-- ==== Sys2Proof/Word.lean ====
section
/-! DEFINITION. The word types of the NT4 and the plainest arithmetic on them (R5, R6). -/

namespace Sys2Proof

/-- One byte of memory, cistern or wire. -/
abbrev Byte := BitVec 8
/-- A 32-bit register, or one fp32 lane. -/
abbrev W32 := BitVec 32
/-- A 64-bit register. -/
abbrev W64 := BitVec 64
/-- A predicate register: one bit per VU lane (R79). -/
abbrev Pred := BitVec 256
/-- A tensor descriptor: eight quadwords (R106). -/
abbrev TDesc := BitVec 512

/-- The field `[hi:lo]` of a value, in the notation of R5. -/
def fld (v hi lo : Nat) : Nat := (v >>> lo) % 2 ^ (hi + 1 - lo)

/-- One bit of a value, as a truth value. -/
def bit (v i : Nat) : Bool := v.testBit i

/-- A truth value as the number 0 or 1. -/
def b2n (b : Bool) : Nat := if b then 1 else 0

/-- `v` with the field `[hi:lo]` replaced by the low bits of `x` (R5). -/
def setFld (v hi lo x : Nat) : Nat :=
  v - (fld v hi lo) <<< lo + (x % 2 ^ (hi + 1 - lo)) <<< lo

/-- The two's-complement reading of the low `n` bits of `v`. -/
def sgn (n v : Nat) : Int :=
  if v % 2 ^ n < 2 ^ (n - 1) then (v % 2 ^ n : Int) else (v % 2 ^ n : Int) - 2 ^ n

/-- The low `n` bits of an integer, as a number. -/
def wrap (n : Nat) (i : Int) : Nat := (i % 2 ^ n).toNat

/-- `n` little-endian bytes of a value (R6). -/
def leBytes : Nat → Nat → List Byte
  | 0, _ => []
  | n + 1, v => BitVec.ofNat 8 v :: leBytes n (v / 256)

/-- The value of a little-endian byte string (R6). -/
def leNat : List Byte → Nat
  | [] => 0
  | b :: bs => b.toNat + 256 * leNat bs

/-- `⌈a / b⌉`. -/
def ceilDiv (a b : Nat) : Nat := (a + b - 1) / b

/-- How many of the low `n` bits of `v` are set. -/
def popcount (n v : Nat) : Nat := ((List.range n).filter fun i => v.testBit i).length

end Sys2Proof
end

