-- ==== Sys2Proof/Config.lean ====
section
/-! DEFINITION. What an implementation of the NT4 fixes and the spec leaves open: opaque constants, so that no proof
can see a value of them. -/

namespace Sys2Proof

/-- The `n`-th value that the spec leaves open on unit `u`, in the order in which the unit meets them. -/
opaque Config.freeValue : Nat → Nat → W64

/-- The hash of R313: the set of a line, by its line number. Software must not rely on any particular mapping. -/
opaque Config.mscSet : Nat → Nat

/-- The accumulator bank whose scores OSMS reads: its encoding (R208) has no field for one. -/
opaque Config.osmsBank : Nat

/-- The rank that completes a unit of an ALL_REDUCE in a stage of `n` members (R390): how the units are divided into
chunks is not stated. Applied to `n`, the number of units and the unit. -/
opaque Config.slcChunk : Nat → Nat → Nat → Nat

/-- Whether an ECDSA P-384 signature verifies (FIPS 186-5, R627, R636) under key `k`: 0 the image key, 1 to 4 the licence
keys of KEYID 0 to 3. The keys lie in the boot ROM. Applied to the key, the signed bytes and the signature. -/
opaque Config.sigOk : Nat → List Byte → List Byte → Bool

/-- SHA-384 (R627), as 48 bytes' little-endian value. -/
opaque Config.sha384 : List Byte → Nat

/-- A tensor element of a decoded frame as fp32, before the rounding to its format (R598): where chroma samples lie and how
fp32 steps round are not stated. Applied to the job's fields, the frame, and the channel, row and column. -/
opaque Config.medPixel : List Byte → List Nat → Nat → Nat → Nat → Nat

end Sys2Proof
end

