-- ==== Sys2Proof/Syntax.lean ====
section
/-! DEFINITION. The commands that act on the NT4: one constructor of `Instr` for each row of
spec/opcode_table.json. A row that is an instruction of a kernel carries the tile that runs it and the fields
of its instruction word (R82); the other rows carry what the outside or a unit brings with the event. -/

namespace Sys2Proof

/-- The fields of an instruction's first word below its major opcode (R82). -/
structure IWord where
  fn  : BitVec 4
  pr  : BitVec 3
  pn  : Bool
  dst : BitVec 6
  sa  : BitVec 6
  sb  : BitVec 6
  sc  : BitVec 6
  imm : BitVec 24
  deriving DecidableEq, Repr

/-- The master of a request, as the headgate tells masters apart (R671, R672): a flume request of a tile with its tag
(1,024 and more for a crumb entry), a tile through another of its units, a command queue, a PCIe function, a leat peer
at a port, an RDMA queue pair, a media session, a snapshot or restore of a partition with its number, or the device
itself. -/
inductive Master where
  | flume (t tag : Nat)
  | tile (t : Nat)
  | queue (q : Nat)
  | fn (port f : Nat)
  | leat (port node : Nat)
  | qp (n : Nat)
  | media (sess : Nat)
  | snap (p n : Nat)
  | device
  deriving DecidableEq, Repr

/-- A request that arrives at a hub: its master, whether it writes, the DPA, the length in bytes within one 256-byte
line, its own hint and the default hint of its page (R316), and the bytes of a write. `part` is the partition of a queue
pair's memory region or of a media session's ring; for every other master the partition is the one R671 gives. -/
structure HubReq where
  who    : Master
  part   : Nat
  write  : Bool
  addr   : Nat
  len    : Nat
  hint   : Nat
  pgHint : Nat
  data   : List Byte
  deriving DecidableEq, Repr

/-- Who writes a register (R698, R699): the ORIGIN, partition, port and identity of its log record. -/
structure Origin where
  cls  : Nat
  part : Nat
  port : Nat
  id   : Nat
  deriving DecidableEq, Repr

/-- A decoded frame as its standard defines it (R596, R600, R601): ORDER as a 32-bit pattern, FLAGS, MISS_REF, MISS_SLOT
and MISS_ORDER of its frame-info entry, its width and height, the codec's conformance window (X, Y, W, H), and the samples
of its planes. -/
structure MedFrame where
  order     : Nat
  flags     : Nat
  missRef   : Nat
  missSlot  : Nat
  missOrder : Nat
  w         : Nat
  h         : Nat
  window    : Nat × Nat × Nat × Nat
  y         : List Nat
  u         : List Nat
  v         : List Nat
  deriving DecidableEq, Repr

/-- A bitstream unit as its standard defines its decoding (R596, R601 to R604): its bytes, the frames that it makes ready
for output, the events of concealment, whether it was discarded for want of a random-access point, and the luma samples
decoded. -/
structure MedUnit where
  bytes   : Nat
  frames  : List MedFrame
  conceal : Nat
  resync  : Bool
  samples : Nat
  deriving DecidableEq, Repr

/-- A frame as its standard codes it (R606 to R611): its order, whether it is a random-access point, the bytes of its
first coding, of its coding at QP_MAX, and of the frame of its type in which every block is skipped, the lengths of its
slices in order (slice mode), whether rows were coded skipped, and its luma samples. -/
structure MedCode where
  order   : Nat
  rap     : Bool
  first   : List Byte
  again   : List Byte
  skip    : List Byte
  slices  : List Nat
  rcSkip  : Bool
  samples : Nat
  deriving DecidableEq, Repr

/-- What a start of the part finds (R623, R641, R648 to R655, R707): TEST_MODE_N low, the fuse check, the PCIe ports that
train, the dies that do not work (numbered as DIE_OK), the compute dies whose rail does not answer, the sites that fail
self-test, each hub's highest operating point at which its stacks pass, the stack sites that fail at 0b11, the weak rows
(a DPA in each), the board channels that fail, the rate and capacity at which the others pass, and whether the two
ditchriders run in lockstep. -/
structure Findings where
  testLow   : Bool
  fuseOk    : Bool
  ports     : Nat
  deadDies  : Nat
  vrDead    : Nat
  badSites  : Nat
  hubOp     : List Nat
  badStacks : Nat
  weakRows  : List Nat
  badChans  : Nat
  boardMts  : Nat
  boardGib  : Nat
  pairOk    : Bool
  deriving DecidableEq, Repr

/-- The commands of the block: one constructor for each row of spec/opcode_table.json, in the table's order. -/
inductive Instr where
  /-- NOP (R89): The scalar pipe executes a no-operation instruction with no effect. -/
  | nop (t : Nat) (w : IWord)
  /-- ALU (R89): The scalar pipe computes s[DST] from s[SA] and s[SB] with the FN operation, shifts taking their count modulo 64 under R752. -/
  | alu (t : Nat) (w : IWord)
  /-- ALUI (R89): The scalar pipe computes s[DST] from s[SA] and IMM24 with the FN operation. -/
  | alui (t : Nat) (w : IWord)
  /-- LI (R89): A scalar or address register is loaded with the 64-bit immediate. -/
  | li (t : Nat) (w : IWord) (x : W64)
  /-- CMP (R89): All lanes of a predicate register are set to the result of a scalar comparison. -/
  | cmp (t : Nat) (w : IWord)
  /-- POP (R89): Lane-wise predicate logic is applied to predicate registers. -/
  | pop (t : Nat) (w : IWord)
  /-- BR (R104): An enabled branch to PC + 8 x IMM24 ends any active loops that it leaves. -/
  | br (t : Nat) (w : IWord)
  /-- BRR (R105): A branch goes to the code offset in s[SA], or aborts with SEQ_BAD_TARGET when the target is not an instruction start. -/
  | brr (t : Nat) (w : IWord)
  /-- LOOP (R103): A hardware loop opens with its count and body length, or aborts with SEQ_LOOP_DEPTH at depth four. -/
  | loop (t : Nat) (w : IWord)
  /-- LOOP_END (R103): When a loop's count is exhausted at the end of its body, execution continues after the body. -/
  | loopEnd (t : Nat)
  /-- FPU (R91): A scalar fp32 operation or conversion is computed exactly, rounded once and counted. -/
  | fpu (t : Nat) (w : IWord)
  /-- WAITQ (R99): Issue resumes once the named queue holds at most n outstanding instructions. -/
  | waitq (t : Nat) (w : IWord)
  /-- FENCE (R99): Issue resumes once every queue of the context is empty and every scalar-pipe cistern write has completed. -/
  | fence (t : Nat) (w : IWord)
  /-- KEND (R126): After waiting as FENCE does and for the write channels, the kernel ends on its tile with OK or SEQ_USER. -/
  | kend (t : Nat) (w : IWord)
  /-- RDSR (R81): A system register is read into s[DST]. -/
  | rdsr (t : Nat) (w : IWord)
  /-- WRSR (R81): A writable system register takes the value of s[SA]. -/
  | wrsr (t : Nat) (w : IWord)
  /-- LDS (R750): The scalar pipe loads 1, 2, 4 or 8 cistern bytes into s[DST], zero- or sign-extended. -/
  | lds (t : Nat) (w : IWord)
  /-- STS (R100): The scalar pipe stores the low bytes of s[SB] into the cistern. -/
  | sts (t : Nat) (w : IWord)
  /-- ADDA (R89): An address register takes a[SA] + s[SB] + IMM24. -/
  | adda (t : Nat) (w : IWord)
  /-- MOVA (R89): A value moves between a scalar register and an address register. -/
  | mova (t : Nat) (w : IWord)
  /-- TDLD (R106): A 64-byte tensor descriptor is loaded from the cistern. -/
  | tdld (t : Nat) (w : IWord)
  /-- TDST (R106): A tensor descriptor is stored to 64 bytes of cistern. -/
  | tdst (t : Nat) (w : IWord)
  /-- TDSET (R106): One quadword of a tensor descriptor is set from a scalar register. -/
  | tdset (t : Nat) (w : IWord)
  /-- TDGET (R106): One quadword of a tensor descriptor is read into a scalar register. -/
  | tdget (t : Nat) (w : IWord)
  /-- TRECV (R111): Once the post ring holds an entry, the oldest tidy-core post moves into s[DST] to s[DST+3]. -/
  | trecv (t : Nat) (w : IWord)
  /-- TSIG (R112): After every earlier instruction has completed, a 64-bit value is delivered to a tidy core's inbox and its interrupt is raised. -/
  | tsig (t : Nat) (w : IWord)
  /-- TIDY_POST (R113): A tidy-core store to POST3 commits a post-ring entry, stalling the core while the ring is full. -/
  | tidyPost (t core k : Nat) (v : W64)
  /-- TIDY_INBOX_READ (R113): A tidy-core load of INBOX takes its oldest value, or returns 0 when it is empty. -/
  | tidyInboxRead (t core : Nat) (count : Bool)
  /-- TIDY_CISTERN_ACCESS (R110): A tidy-core access through the cistern window is served or refused with an access fault. -/
  | tidyCisternAccess (t core addr len : Nat) (data : Option (List Byte))
  /-- LAUNCH (R122): A LAUNCH command is accepted for a kernel and group, or completes with CMD_INVALID. -/
  | launch (q : Nat)
  /-- LAUNCH_START (R124): A queued launch starts on its tiles once earlier launches and context switches allow, reading its argument block and sampling VSEL. -/
  | launchStart (id : Nat) (ext : Option (List Byte))
  /-- LAUNCH_COMPLETE (R126): When every tile of the group has ended or drained, the launch's completion record is written. -/
  | launchComplete (id : Nat)
  /-- WATCHDOG_EXPIRY (R128): A launch's watchdog expires and every tile of the group is aborted with SEQ_WATCHDOG. -/
  | watchdogExpiry (id : Nat)
  /-- LOAD (R117): A LOAD is checked in order and reserves and binds resources on every tile, or is refused whole. -/
  | load (q : Nat) (ext : Option (List Byte))
  /-- UNLOAD (R121): An UNLOAD releases a kernel's held resources, or is refused with LDR_IN_USE. -/
  | unload (q : Nat)
  /-- CTX_SWITCH (R132): A CTX_SWITCH command is accepted for a tile mask and target context. -/
  | ctxSwitch (q : Nat)
  /-- CTX_SWITCH_EFFECT (R133): Once no kernel runs, the switch saves the old context, signals tidy core 0 and waits for its acknowledgement. -/
  | ctxSwitchEffect (t : Nat)
  /-- CTX_SWITCH_FINISH (R133): After the acknowledgement or its timeout, the new context is restored and becomes active. -/
  | ctxSwitchFinish (t : Nat)
  /-- HOOK_TIMEOUT (R134): Tidy core 0 does not acknowledge within 40 us, so the switch continues and HOOK_LATE is set. -/
  | hookTimeout (t : Nat)
  /-- SEQ_CTX_CFG_WRITE (R77): A write to SEQ_CTX_CFGn is accepted or discarded, setting CFG_ERR. -/
  | seqCtxCfgWrite (t c v : Nat) (o : Origin)
  /-- TIL_CTX_AS_WRITE (R348): A write to TIL_CTX_AS is accepted or discarded whole, setting CFG_ERR. -/
  | tilCtxAsWrite (t v : Nat) (o : Origin)
  /-- REGISTER_WRITE (R8): A write to a register without a row of its own takes effect according to its access codes, locks and writers. -/
  | registerWrite (off size v : Nat) (o : Origin)
  /-- MMAC (R138): The ME accumulates an operand product into a bank region, waiting on and releasing ring slots as encoded. -/
  | mmac (t : Nat) (w : IWord) (x : W64)
  /-- MZERO (R150): An accumulator region is set to +0.0 or ACC_PAD. -/
  | mzero (t : Nat) (w : IWord)
  /-- MDRAIN (R151): An accumulator region is scaled, rounded and written to a cistern descriptor, and optionally cleared. -/
  | mdrain (t : Nat) (w : IWord) (x : W64)
  /-- MPAD (R154): ME_PAD, or ACC_PAD from a preset, is written. -/
  | mpad (t : Nat) (w : IWord)
  /-- MLEN (R156): ME_LEN_M, N or K is set, or all three are reset. -/
  | mlen (t : Nat) (w : IWord)
  /-- VOP (R174): Each enabled VU lane computes the FN operation on vector operands. -/
  | vop (t : Nat) (w : IWord)
  /-- VOPB (R174): Each enabled VU lane computes the FN operation with a broadcast scalar operand. -/
  | vopb (t : Nat) (w : IWord)
  /-- VCMP (R177): Lane comparisons set the bits of a predicate register. -/
  | vcmp (t : Nat) (w : IWord)
  /-- VCVT (R178): Each enabled lane is converted between formats. -/
  | vcvt (t : Nat) (w : IWord)
  /-- VLD (R179): A contiguous, strided or indexed vector load is performed from the cistern. -/
  | vld (t : Nat) (w : IWord)
  /-- VST (R179): A contiguous, strided or indexed vector store is performed to the cistern. -/
  | vst (t : Nat) (w : IWord)
  /-- VRED (R183): A fixed-order reduction over lanes, bank columns or descriptor rows is performed. -/
  | vred (t : Nat) (w : IWord)
  /-- QBLK (R185): Blocks are encoded into a block-format tensor under a quantisation profile. -/
  | qblk (t : Nat) (w : IWord) (x : W64)
  /-- VWID (R188): Blocks of a block-format tensor are widened to fp32 or bf16, honouring outliers and escalations. -/
  | vwid (t : Nat) (w : IWord) (x : W64)
  /-- VPERM (R181): Lanes are permuted, rotated or bf16 halves swapped. -/
  | vperm (t : Nat) (w : IWord)
  /-- VBCAST (R181): A scalar or one lane is broadcast to every enabled lane. -/
  | vbcast (t : Nat) (w : IWord)
  /-- VACC (R182): Data moves between vector registers and an accumulator bank, or a bank is scaled by rows or columns. -/
  | vacc (t : Nat) (w : IWord)
  /-- SFN (R192): The SFU evaluates exp2, reciprocal, rsqrt or a kernel table on each enabled lane. -/
  | sfn (t : Nat) (w : IWord)
  /-- STAB (R196): A table record is checked and copied into a kernel table slot. -/
  | stab (t : Nat) (w : IWord)
  /-- OSMN (R214): A query block opens, initialising statistics and optionally a bound pair. -/
  | osmn (t : Nat) (w : IWord)
  /-- OSMX (R215): Row maxima are updated and correction factors written, or rows are marked in no-subtract mode. -/
  | osmx (t : Nat) (w : IWord)
  /-- OSME (R216): bf16 probabilities are written and row sums are updated. -/
  | osme (t : Nat) (w : IWord) (x : W64)
  /-- OSMS (R222): Columns are kept or skipped by their 4-bit estimates and a decision record is written. -/
  | osms (t : Nat) (w : IWord) (x : W64)
  /-- OSMC_CORR (R217): Accumulator rows are multiplied by correction factors. -/
  | osmcCorr (t : Nat) (w : IWord)
  /-- OSMC_FIN (R219): A query block is checked and normalised and closed, or a rerun is called for. -/
  | osmcFin (t : Nat) (w : IWord)
  /-- OSM_RERUN (R219): After the queues drain, a marked no-subtract block is restored to its OSMN state and reruns online. -/
  | osmRerun (t : Nat)
  /-- OSMC_MERGE (R218): A partial record is merged into the accumulator rows and statistics. -/
  | osmcMerge (t : Nat) (w : IWord)
  /-- OSMC_SAVE (R217): Row statistics are written to the cistern. -/
  | osmcSave (t : Nat) (w : IWord)
  /-- OSMC_LOAD (R217): Row statistics are read from the cistern. -/
  | osmcLoad (t : Nat) (w : IWord)
  /-- OSMV_ACCUM (R224): Exact bounds of skipped columns are accumulated into the bound pair. -/
  | osmvAccum (t : Nat) (w : IWord) (x : W64)
  /-- OSMV_DECIDE (R226): The skipped mass is tested against epsilon and the repair predicate is set. -/
  | osmvDecide (t : Nat) (w : IWord) (x : W64)
  /-- OSMB_PROB (R250): Normalised probabilities are rebuilt from saved statistics for the backward pass. -/
  | osmbProb (t : Nat) (w : IWord) (x : W64)
  /-- OSMB_DSCORE (R250): Score gradients dS are computed from P, dP and the row terms. -/
  | osmbDscore (t : Nat) (w : IWord) (x : W64)
  /-- UPD (R438): Weights are updated as alpha x w + beta x d and rounded once. -/
  | upd (t : Nat) (w : IWord) (x : W64)
  /-- UPDS (R438): Running state is updated linearly or with squared input and rounded once. -/
  | upds (t : Nat) (w : IWord) (x : W64)
  /-- KVW (R246): Tokens are encoded into KV pages, estimate lines are recomputed and TOKENS is raised. -/
  | kvw (t : Nat) (w : IWord) (x : W64)
  /-- KVT (R248): Logical pages are translated to a page list in the cistern with their GEN checked. -/
  | kvt (t : Nat) (w : IWord) (x : W64)
  /-- KV_OPEN (R241): A closed sequence is opened with an empty page table. -/
  | kvOpen (q : Nat)
  /-- KV_RESERVE (R241): Pages are reserved to a sequence whole, or the command is refused with KVP_NO_SPACE. -/
  | kvReserve (q : Nat)
  /-- KV_UNRESERVE (R241): Unallocated reserved pages are returned to FREE. -/
  | kvUnreserve (q : Nat)
  /-- KV_CLOSE (R241): A sequence's pages are returned to FREE and it is closed. -/
  | kvClose (q : Nat)
  /-- KVP_POOL_CFG_WRITE (R236): A write to a pool register is accepted, resetting pages and sequences when EN is set, or discarded. -/
  | kvpPoolCfgWrite (n k v : Nat) (o : Origin)
  /-- FCFG (R259): A flume descriptor is read and checked and the channel becomes READY with an empty ring. -/
  | fcfg (t : Nat) (w : IWord)
  /-- FGO (R260): A stream starts on a channel with optional overrides and the channel becomes RUNNING. -/
  | fgo (t : Nat) (w : IWord)
  /-- FWAIT (R261): The flume queue resumes once the channel has left RUNNING or its kernel slot is flagged. -/
  | fwait (t : Nat) (w : IWord)
  /-- FSTOP (R262): A channel stops issuing, drains, empties its ring and becomes STOPPED. -/
  | fstop (t : Nat) (w : IWord)
  /-- FREL (R263): The kernel slot is released on a read channel, or handed to the flume on a write channel. -/
  | frel (t : Nat) (w : IWord)
  /-- CRB_READ (R287): A crumb-path read of up to 256 bytes is issued into the cistern. -/
  | crbRead (t : Nat) (w : IWord) (x : W64)
  /-- CRB_WRITE (R287): A crumb-path write of up to 256 cistern bytes is issued to a device address. -/
  | crbWrite (t : Nat) (w : IWord) (x : W64)
  /-- CRB_WRITE_IMMEDIATE (R287): The 8 bytes of word 1 are written by the crumb path to an aligned device address. -/
  | crbWriteImmediate (t : Nat) (w : IWord) (x : W64)
  /-- FLUME_REQUEST_GRANT (R282): The flume grants requests to crumbs and to eligible channels by least time to empty, allocating tags. -/
  | flumeRequestGrant (t : Nat)
  /-- ADDRESS_WALK (R353): A translation walks the page tables, following versioned entries, and yields a leaf or a fault. -/
  | addressWalk (t tag : Nat)
  /-- FLUME_READ_RESPONSE (R284): Read response data is written into a ring or cistern and its tag is freed. -/
  | flumeReadResponse (t tag : Nat)
  /-- FLUME_WRITE_ACK (R284): A write acknowledgement frees its tag and may complete the write channel. -/
  | flumeWriteAck (t tag : Nat)
  /-- FLUME_SLOT_RECLAIM (R277): The flume takes back a released slot within 4 cycles and may refill it. -/
  | flumeSlotReclaim (t n slot : Nat)
  /-- CIS_ECC_WRITEBACK (R307): A corrected cistern word is written back in the bank's next idle cycle. -/
  | cisEccWriteback (t word : Nat)
  /-- CIS_SCRUB (R310): The bank scrubber reads and corrects one line after idle time or a forced cycle. -/
  | cisScrub (t bank : Nat)
  /-- HUB_READ_REQUEST (R317): A read arriving at a hub is checked, admitted by its weir and served by the MSC or memory. -/
  | hubReadRequest (r : HubReq)
  /-- HUB_WRITE_REQUEST (R315): A write arriving at a hub is checked, admitted, accepted into the MSC and marks dirty sectors. -/
  | hubWriteRequest (r : HubReq)
  /-- HBM_REFRESH (R332): A bank receives a per-bank refresh at its interval. -/
  | hbmRefresh (site pch bank : Nat)
  /-- HBM_REFRESH_MANAGEMENT (R332): A refresh-management command is issued when a bank's activation count reaches the threshold. -/
  | hbmRefreshManagement (site pch bank : Nat)
  /-- MSC_MAINT_WRITEBACK (R324): MSC_MAINT OP 0b01 starts writing back every dirty sector of the hub. -/
  | mscMaintWriteback (h : Nat) (done : Bool) (o : Origin)
  /-- MSC_MAINT_INVALIDATE (R324): MSC_MAINT OP 0b10 starts writing back and then invalidating every line of the hub. -/
  | mscMaintInvalidate (h : Nat) (done : Bool) (o : Origin)
  /-- MSC_MAINT_DONE (R325): A maintenance operation ends, BUSY clears and DONE is set. -/
  | mscMaintDone (h : Nat)
  /-- WEIR_REFILL (R335): Every 256 FCLK cycles each weir's tokens are refilled, scaled by any thermal cap, and ADMIT is cleared. -/
  | weirRefill (h : Nat)
  /-- WEIR_CFG_WRITE (R338): A weir configuration write is accepted for the next refill or discarded. -/
  | weirCfgWrite (h set p v : Nat) (o : Origin)
  /-- STACK_TEMP_READ (R341): Each millisecond a stack's temperature is read and its throttle step updated. -/
  | stackTempRead (site temp : Nat)
  /-- HGT_AS_CFG_WRITE (R347): An address-space configuration write is accepted or discarded while enabled. -/
  | hgtAsCfgWrite (n v : Nat) (o : Origin)
  /-- HGT_VSEL_WRITE (R358): A selector write flips versioned tables and sets VBUSY, or is discarded while busy. -/
  | hgtVselWrite (n v : Nat) (o : Origin)
  /-- VSEL_FLIP_DONE (R358): VBUSY clears once no master can translate with the old selector value. -/
  | vselFlipDone (n : Nat)
  /-- HGT_INVAL_WRITE (R360): A translation invalidation of a page range starts and IBUSY is set. -/
  | hgtInvalWrite (n v : Nat) (o : Origin)
  /-- INVALIDATION_DONE (R360): IBUSY clears once no master can translate through a dropped entry. -/
  | invalidationDone (n : Nat)
  /-- MIG_MOVE (R374): A frame move is checked and begins copying SRC to DST. -/
  | migMove (q : Nat)
  /-- MIG_MOVE_DONE (R375): A move rewrites the named entries, forwards SRC, releases waiting writes and completes. -/
  | migMoveDone (src : Nat)
  /-- MIG_FREE (R373): Cached translations to a MOVED frame are dropped and it returns to NORMAL. -/
  | migFree (q : Nat)
  /-- MIG_MIRROR (R377): Mirrors are assigned or resynchronised and their stale sectors are copied. -/
  | migMirror (q : Nat)
  /-- MIG_UNMIRROR (R378): Mirror flags are cleared, or the command is refused with MIG_SHARED. -/
  | migUnmirror (q : Nat)
  /-- MIG_ATTR (R373): PIN is set or cleared on consecutive frames. -/
  | migAttr (q : Nat)
  /-- MIG_SCAN (R373): DIRTY bits of frames are written to a buffer and optionally cleared. -/
  | migScan (q : Nat)
  /-- SLC (R396): A kernel posts a sluice operation, which is checked and opened or attached to a kept one. -/
  | slc (t : Nat) (w : IWord) (x : W64)
  /-- SLCW (R415): Once the slot's last operation has completed, its completion record is written. -/
  | slcw (t : Nat) (w : IWord) (x : W64)
  /-- SLC_POST (R399): A queue command posts a sluice operation from a descriptor in memory. -/
  | slcPost (q : Nat)
  /-- SLC_COMM_WRITE (R389): A communicator register write is accepted, reading and checking its record when EN is set, or discarded. -/
  | slcCommWrite (n v : Nat) (o : Origin)
  /-- SLUICE_PACKET_RECEIVE (R409): A sluice packet is matched, added, forwarded or delivered, and duplicates are discarded. -/
  | sluicePacketReceive (msg : List Byte)
  /-- SLC_OP_COMPLETE (R414): An operation completes at a member once its bytes are visible and its packets acknowledged. -/
  | slcOpComplete (comm tag step post : Nat)
  /-- SLC_DEADLINE_EXPIRY (R417): A deadline without LATE passes and the operation completes with SLC_TIMEOUT. -/
  | slcDeadlineExpiry (comm tag step post : Nat)
  /-- SLUICE_SLOT_RECLAIM (R410): The sluice takes back a released ring slot within 40 ns and may refill it. -/
  | sluiceSlotReclaim (t slot i : Nat)
  /-- SPK_POST (R422): A sprinkle value set is posted to a communicator with the next epoch. -/
  | spkPost (t : Nat) (w : IWord) (x : W64)
  /-- SPK_WAIT (R422): A sprinkle wait is accepted once the slot's oldest post has written its result record. -/
  | spkWait (t : Nat) (w : IWord) (x : W64)
  /-- SPRINKLE_MESSAGE_RECEIVE (R426): A sprinkle message is checked against the epoch window, reduced or held, and results are sent down. -/
  | sprinkleMessageReceive (msg : List Byte)
  /-- SPK_LEADER_TIMEOUT (R427): The top leader sends a partial result with SPK_TIMEOUT after TIMEOUT_US. -/
  | spkLeaderTimeout (comm slot epoch : Nat)
  /-- SPK_MEMBER_TIMEOUT (R427): A member with no result after 2 x TIMEOUT_US completes its post with SPK_TIMEOUT. -/
  | spkMemberTimeout (t comm slot epoch : Nat)
  /-- LATE_JOIN_RECEIVE (R444): The decider records a package's join and closes the step once every package has joined. -/
  | lateJoinReceive (msg : List Byte)
  /-- LATE_DECISION_DEADLINE (R444): DEADLINE_US after the first join, the decider closes the step without late packages. -/
  | lateDecisionDeadline (comm tag step : Nat)
  /-- LATE_DECISION_RECEIVE (R446): A decision reaches a package, which then sends its terms or relays as an absent package. -/
  | lateDecisionReceive (msg : List Byte)
  /-- SLC_LATE_CFG_WRITE (R451): A late-area configuration write is accepted or discarded. -/
  | slcLateCfgWrite (n v : Nat) (o : Origin)
  /-- LBK_QUERY (R452): A late-bucket record for COMM, TAG and STEP is written to the cistern. -/
  | lbkQuery (t : Nat) (w : IWord) (x : W64)
  /-- LBK_FLUSH (R452): Every bucket slot of COMM and TAG is emptied and full slots are counted as dropped. -/
  | lbkFlush (t : Nat) (w : IWord) (x : W64)
  /-- JRN (R478): A value passes through the journal: copied, recorded or replaced by its record. -/
  | jrn (t : Nat) (w : IWord) (x : W64)
  /-- PUBLISH (R457): A PUBLISH is checked and starts, becomes pending, or replaces a pending one. -/
  | publish (q : Nat)
  /-- PUBLISH_COMPLETE (R456): After the mirror copy and the selector flip settle, PUBVER is written, the publish completes and any pending one starts. -/
  | publishComplete (n b : Nat)
  /-- SNAP_START (R464): A snapshot takes its cut, clearing DIRTY bits, and starts copying. -/
  | snapStart (q : Nat)
  /-- SNAP_WAIT (R462): Completes when the partition's snapshot or restore ends, or at once with SNAP_IDLE. -/
  | snapWait (q : Nat)
  /-- SNAP_ABORT (R462): The running snapshot or restore is ended with SNAP_ABORTED. -/
  | snapAbort (q : Nat)
  /-- SNAP_RESTORE (R469): An image header is checked and its sectors are copied back into frames. -/
  | snapRestore (q : Nat)
  /-- SNAP_SECTOR_SEND (R465): The engine reads a sector into staging and sends it, releasing any write waiting on it. -/
  | snapSectorSend (part frame sector : Nat)
  /-- SNAP_COMPLETE (R466): A snapshot writes its map and final header, or on failure restores DIRTY bits and releases writes. -/
  | snapComplete (part : Nat)
  /-- LOG_JRN_CFG_WRITE (R472): A journal configuration write is accepted or discarded while launches run. -/
  | logJrnCfgWrite (n : Nat) (base : Bool) (v : Nat) (o : Origin)
  /-- LOG_JRN_STEP_WRITE (R472): A write of the current step opens its journal region. -/
  | logJrnStepWrite (n v : Nat) (o : Origin)
  /-- LEA_NODE_WRITE (R529): NODE_ID and LOCK are written, subject to the lock. -/
  | leaNodeWrite (v : Nat) (o : Origin)
  /-- LEA_PORT_CFG_WRITE (R530): A port configuration write is accepted, enabling or draining the port, or discarded. -/
  | leaPortCfgWrite (n v : Nat) (o : Origin)
  /-- LEA_RETRAIN_REQUEST (R523): A write of CTRL.RETRAIN starts a software retrain at the requested width, or is discarded. -/
  | leaRetrainRequest (n v : Nat) (o : Origin)
  /-- LEAT_PARTNER_DETECT (R513): Partner training frames are detected and cold training begins. -/
  | leatPartnerDetect (n devid : Nat)
  /-- LEAT_TRAINING_DONE (R513): Cold training ends with the port ACTIVE at its width, or FAILED. -/
  | leatTrainingDone (n good pgood : Nat)
  /-- LEAT_FAILED_RETRY (R512): A FAILED port returns to DETECT every 100 ms while enabled. -/
  | leatFailedRetry (n : Nat)
  /-- LEAT_DATA_FLIT (R507): A received data flit is taken, ahead or behind by sequence number, with its ACK and credit report. -/
  | leatDataFlit (n bad : Nat) (corr : List Nat) (flit : List Byte)
  /-- LEAT_NULL_FLIT (R489): A NULL flit delivers its ACK and credit report only. -/
  | leatNullFlit (n bad : Nat) (corr : List Nat) (flit : List Byte)
  /-- LEAT_REPLAY_REQ (R509): A REPLAY_REQ frees acknowledged flits and resends outstanding ones from EXPECT. -/
  | leatReplayReq (n bad : Nat) (corr : List Nat) (flit : List Byte)
  /-- LEAT_REPLAY_REQ_REPEAT (R509): The receiver repeats its replay request every 1 us until the expected flit arrives. -/
  | leatReplayReqRepeat (n : Nat)
  /-- LEAT_ACK_TIMEOUT (R510): OLDEST has not advanced for 4 us, so the sender resends, retraining after 8 tries. -/
  | leatAckTimeout (n : Nat)
  /-- LEAT_TRAIN_REQ (R518): A received TRAIN_REQ starts or joins a retrain, resolving leadership. -/
  | leatTrainReq (n devid width reason good : Nat)
  /-- LEAT_TRAIN_ACK (R518): A received TRAIN_ACK fixes the retrain width. -/
  | leatTrainAck (n devid width reason good : Nat)
  /-- LEAT_RETRAIN_DONE (R517): A retrain ends with the port ACTIVE and resending, or FAILED. -/
  | leatRetrainDone (n failed pgood : Nat)
  /-- LEAT_CREDIT_SYNC (R519): A CREDIT_SYNC frees flits before EXPECT and resets held credits and LAST. -/
  | leatCreditSync (n bad : Nat) (corr : List Nat) (flit : List Byte)
  /-- LEAT_LANE_SWAP (R521): A LANE_SWAP is received and answered with LANE_SWAP_ACK. -/
  | leatLaneSwap (n bad : Nat) (corr : List Nat) (flit : List Byte)
  /-- LEAT_LANE_SWAP_ACK (R521): A LANE_SWAP_ACK confirms the agreed swap frame. -/
  | leatLaneSwapAck (n bad : Nat) (corr : List Nat) (flit : List Byte)
  /-- LEAT_LANE_SWAP_APPLY (R521): At the AT-th frame both ends move the old lane's symbols to the spare. -/
  | leatLaneSwapApply (n : Nat)
  /-- LEAT_IDENT (R511): An IDENT record supplies the partner's identity, capabilities and buffer sizes. -/
  | leatIdent (n bad : Nat) (corr : List Nat) (flit : List Byte)
  /-- LEAT_LINK_LOST (R517): No valid flit for 10 us starts a retrain with REASON 4. -/
  | leatLinkLost (n : Nat)
  /-- LEAT_LANE_LOCK_LOSS (R514): An active lane loses lock, is failed and starts a retrain. -/
  | leatLaneLockLoss (n k : Nat)
  /-- LEAT_ERROR_WINDOW (R514): At the end of each 1 ms window, lanes are judged degraded or the port retrains. -/
  | leatErrorWindow (n : Nat) (spares : List Nat)
  /-- LEAT_DISABLE_DRAIN_END (R530): After up to 1 ms of sending when EN is cleared, the port goes to DISABLED. -/
  | leatDisableDrainEnd (n : Nat)
  /-- LEAT_RD_REQ (R496): An inbound read request is checked, translated, checked by the headgate and performed. -/
  | leatRdReq (n : Nat)
  /-- LEAT_WR_REQ (R496): An inbound write request is checked and performed, with WR_RSP after acceptance. -/
  | leatWrReq (n : Nat)
  /-- LEAT_RD_RSP (R501): A read response completes the requester's request or maps its failure status. -/
  | leatRdRsp (n : Nat)
  /-- LEAT_WR_RSP (R501): A write response completes the requester's request or maps its failure status. -/
  | leatWrRsp (n : Nat)
  /-- LEAT_RSP_TIMEOUT (R500): A request with no response after RSP_TIMEOUT completes with LEA_RSP_TIMEOUT. -/
  | leatRspTimeout (n tag : Nat)
  /-- LEAT_MGT_MSG (R493): A management message is delivered to the ditchrider. -/
  | leatMgtMsg (n : Nat)
  /-- PCIE_BAR0_READ (R539): A host read of device memory through BAR0 is checked and served after earlier posted writes. -/
  | pcieBar0Read (p f va len : Nat)
  /-- PCIE_BAR0_WRITE (R539): A host write through BAR0 is checked and performed, or discarded and counted. -/
  | pcieBar0Write (p f va : Nat) (data : List Byte)
  /-- QUEUE_DOORBELL (R547): A doorbell write advances PI, or is ignored as behind or excessive. -/
  | queueDoorbell (q v p f : Nat)
  /-- QUEUE_COMMAND_FETCH (R548): With room in the completion ring, the queue reads and accepts its next command in order. -/
  | queueCommandFetch (q : Nat) (ext : Option (List Byte))
  /-- QUEUE_IRQ_TIMER (R550): TIME_US after an unreported record, the queue sends its MSI-X message. -/
  | queueIrqTimer (q : Nat)
  /-- HIF_Q_CFG_WRITE (R546): A queue configuration write is accepted, resetting pointers when EN is set, or discarded. -/
  | hifQCfgWrite (q k v : Nat) (o : Origin)
  /-- HIF_CCONS_WRITE (R549): Software's consumed count is accepted, or discarded when beyond CPROD. -/
  | hifCconsWrite (q v : Nat) (o : Origin)
  /-- HIF_FN_CFG_WRITE (R538): A function configuration write is accepted or discarded while enabled. -/
  | hifFnCfgWrite (p f v : Nat) (o : Origin)
  /-- PCIE_FLR (R542): A Function Level Reset clears the function's configuration and discards its unforwarded writes. -/
  | pcieFlr (p f : Nat)
  /-- PCIE_LINK_DOWN (R542): A hot reset or link loss acts as an FLR of every function of the port. -/
  | pcieLinkDown (p : Nat) (lost : Bool)
  /-- HOST_READ_COMPLETION (R543): A host completion for a device read returns data, or poison on an error completion. -/
  | hostReadCompletion (tag : Nat) (ok : Bool) (data : List Byte)
  /-- HOST_READ_TIMEOUT (R543): A device read of host memory without completion for 50 ms returns poisoned data. -/
  | hostReadTimeout (tag : Nat)
  /-- HFLUSH (R557): After earlier instructions complete, zero-length flush reads are sent on the masked ports. -/
  | hflush (t : Nat) (w : IWord)
  /-- HFLUSH_READ_RETURN (R558): The last flush read returns, making earlier accepted host writes visible, and HFLUSH completes. -/
  | hflushReadReturn (tag : Nat)
  /-- MBX_INBOUND_WRITE (R562): A host write covering byte 63 commits an inbound mailbox message, or is dropped when full. -/
  | mbxInboundWrite (p f m off : Nat) (data : List Byte)
  /-- MBX_RECV (R563): Once a message is waiting, the oldest inbound message is written to the cistern. -/
  | mbxRecv (t : Nat) (w : IWord)
  /-- MBX_SEND (R563): Once there is room, 64 bytes are accepted into an outbound mailbox. -/
  | mbxSend (t : Nat) (w : IWord)
  /-- MBX_COUNT (R563): The number of waiting inbound messages is written to s[DST]. -/
  | mbxCount (t : Nat) (w : IWord)
  /-- MBX_OUTBOUND_DELIVER (R564): An outbound message is written to the host ring and an MSI-X message is sent when enabled. -/
  | mbxOutboundDeliver (t k : Nat)
  /-- MBX_CONSUMED_WRITE (R564): The host's consumed count for an outbound mailbox is taken or ignored. -/
  | mbxConsumedWrite (p f m v : Nat)
  /-- MBX_CFG_WRITE (R561): A mailbox binding write is accepted or discarded. -/
  | mbxCfgWrite (t k : Nat) (out : Bool) (v : Nat) (o : Origin)
  /-- ETH_PORT_CFG_WRITE (R567): An Ethernet port configuration write is accepted or discarded. -/
  | ethPortCfgWrite (n v : Nat) (o : Origin)
  /-- ETH_FRAME_RECEIVE (R567): A received frame is passed to RoCE or PTP, delivered to RAWQ, or dropped and counted. -/
  | ethFrameReceive (n : Nat) (frame : List Byte)
  /-- RDMA_QP_SET (R571): A queue pair is created or changes state, or the command completes with RDMA_QP_INVALID. -/
  | rdmaQpSet (q : Nat)
  /-- RDMA_QP_DESTROY (R570): A queue pair is destroyed. -/
  | rdmaQpDestroy (q : Nat)
  /-- RDMA_MR_REG (R571): A memory region is registered with a key, or refused with RDMA_MR_INVALID. -/
  | rdmaMrReg (q : Nat)
  /-- RDMA_MR_DEREG (R570): A memory region is deregistered. -/
  | rdmaMrDereg (q : Nat)
  /-- RDMA_SEND (R572): A SEND entry is transmitted on its queue pair. -/
  | rdmaSend (q : Nat) (ext : Option (List Byte))
  /-- RDMA_SEND_IMM (R572): A SEND with immediate entry is transmitted. -/
  | rdmaSendImm (q : Nat) (ext : Option (List Byte))
  /-- RDMA_WRITE (R572): An RDMA WRITE entry is transmitted. -/
  | rdmaWrite (q : Nat) (ext : Option (List Byte))
  /-- RDMA_WRITE_IMM (R572): An RDMA WRITE with immediate entry is transmitted. -/
  | rdmaWriteImm (q : Nat) (ext : Option (List Byte))
  /-- RDMA_READ (R572): An RDMA READ entry is issued. -/
  | rdmaRead (q : Nat)
  /-- RAW_SEND (R572): A raw frame is transmitted from device memory. -/
  | rawSend (q : Nat) (ext : Option (List Byte))
  /-- RDMA_RECV_POST (R572): A receive buffer is posted to a receive queue. -/
  | rdmaRecvPost (q : Nat)
  /-- RDMA_INBOUND_READ (R573): An inbound RDMA READ is checked and served, or NAKed. -/
  | rdmaInboundRead (n psn key va len : Nat)
  /-- RDMA_INBOUND_WRITE (R573): An inbound RDMA WRITE is checked and performed, or NAKed. -/
  | rdmaInboundWrite (n psn key va : Nat) (data : List Byte) (imm : Option Nat)
  /-- RDMA_INBOUND_SEND (R573): An inbound SEND lands in a posted receive buffer, or receives an RNR NAK. -/
  | rdmaInboundSend (n psn : Nat) (data : List Byte) (imm : Option Nat)
  /-- RDMA_RESPONSE_RECEIVE (R574): An acknowledgement, NAK or read response completes a send-queue entry, with ERROR on failure. -/
  | rdmaResponseReceive (n kind psn : Nat) (data : List Byte)
  /-- RDMA_RNR_RETRY (R573): After an RNR NAK the sender retries the SEND every 10 us, up to RETRY times. -/
  | rdmaRnrRetry (n : Nat)
  /-- RDMA_RETRANSMIT_TIMEOUT (R569): The queue pair's timeout expires and go-back-N retransmission starts or retries are spent. -/
  | rdmaRetransmitTimeout (n : Nat)
  /-- SPK_UD_RESEND (R575): A sprinkle, join or decision message is sent a second time 2 us later over UD. -/
  | spkUdResend
  /-- PTP_MESSAGE_RECEIVE (R577): A PTP message is timestamped and the discipline slews or steps the offset. -/
  | ptpMessageReceive (n : Nat) (err : Int)
  /-- GLB_PTP_CFG_WRITE (R576): The time discipline configuration is written or discarded. -/
  | glbPtpCfgWrite (v : Nat) (o : Origin)
  /-- PPS_PULSE (R714): A 10 us pulse is driven on PPS_OUT at each second of reference time. -/
  | ppsPulse
  /-- HIF_MR_DOORBELL (R587): A doorbell advances a media ring's PI, or is ignored. -/
  | hifMrDoorbell (r v : Nat) (o : Origin)
  /-- HIF_MR_CFG_WRITE (R586): A media ring configuration write is accepted or discarded. -/
  | hifMrCfgWrite (r k v : Nat) (o : Origin)
  /-- MED_OPEN (R593): A media session is checked, admitted and created on an engine. -/
  | medOpen (r i : Nat)
  /-- MED_DECODE (R596): Bitstream units are decoded and output frames written as planes or tensors. -/
  | medDecode (r i : Nat) (us : List MedUnit) (tail : List MedFrame) (bs out : Option (List Byte))
  /-- MED_ENCODE (R606): An input frame is encoded and coded frames are written under rate control. -/
  | medEncode (r i : Nat) (cs : List MedCode) (src out cons : Option (List Byte))
  /-- SLICE_FALLBACK_ENTRY (R612): Once a slice-ring entry frees, one FALLBACK entry covering unannounced bytes is written. -/
  | sliceFallbackEntry (num : Nat) (cons : Option (List Byte))
  /-- MED_CLOSE (R594): After earlier jobs of the session, the session is released. -/
  | medClose (r i : Nat)
  /-- MED_JOB_COMPLETE (R588): A media job writes its result record and completion record. -/
  | medJobComplete (r i : Nat)
  /-- MED_ENGINE_FAULT (R617): A failed engine or die fails its sessions with MED_ENGINE_FAULT. -/
  | medEngineFault (d eng : Nat) (die : Bool)
  /-- COLD_RESET_RELEASE (R623): Release of cold reset runs the bring-up stages to ready or recovery. -/
  | coldResetRelease (b : Findings)
  /-- WARM_RESTART (R657): A warm restart from the pin, GLB_RESET or the ditchrider resets logic and keeps memory. -/
  | warmRestart (v : Option Nat) (us : Nat) (o : Origin) (b : Findings)
  /-- FW_BEGIN (R634): Staging of a new image bank opens. -/
  | fwBegin (len : Nat) (o : Origin)
  /-- FW_CHUNK (R634): Window bytes are appended to the staged bank. -/
  | fwChunk (len : Nat) (o : Origin)
  /-- FW_COMMIT (R634): The staged bank is checked and set as NEXT. -/
  | fwCommit (len : Nat) (o : Origin)
  /-- FW_ABORT (R634): An open staging is ended. -/
  | fwAbort (len : Nat) (o : Origin)
  /-- LIC_ADD (R638): A licence record is checked and written into the licence area. -/
  | licAdd (len : Nat) (o : Origin)
  /-- DEFECT_CLEAR (R647): A board or cabling soft-defect entry is marked cleared. -/
  | defectClear (len : Nat) (o : Origin)
  /-- FW_READ (R632): 64 KiB of flash is copied into the window. -/
  | fwRead (len : Nat) (o : Origin)
  /-- FW_OP_COMPLETE (R634): A flash operation ends and its outcome is reported in DRD_FW_STATUS. -/
  | fwOpComplete (flashOk : Bool)
  /-- HGT_PART_CFG_WRITE (R665): A partition configuration write is accepted or discarded. -/
  | hgtPartCfgWrite (n v : Nat) (o : Origin)
  /-- HGT_PART_TILES_WRITE (R667): A partition's tile set is changed or the write discarded. -/
  | hgtPartTilesWrite (n v : Nat) (o : Origin)
  /-- HGT_GRANULE_WRITE (R669): A granule grant changes and GBUSY is set, or the write is discarded. -/
  | hgtGranuleWrite (board : Bool) (g v : Nat) (o : Origin)
  /-- GRANULE_CHANGE_DONE (R669): A grant change has taken effect at every hub and GBUSY clears. -/
  | granuleChangeDone
  /-- HGT_FRZ_REL (R675): A frozen master or a partition freeze is released, or the write is discarded. -/
  | hgtFrzRel (v : Nat) (o : Origin)
  /-- SHARE (R678): Mirrored frames are marked SHARED and readers added, or the operation fails. -/
  | share (v : Nat) (o : Origin)
  /-- UNSHARE (R679): SHARED is cleared on the owner's frames and granule readers are cleared. -/
  | unshare (v : Nat) (o : Origin)
  /-- MEMORY_CHANNEL_LOSS (R683): A lost board channel or stack re-homes mirrored frames and poisons the rest. -/
  | memoryChannelLoss (board : Bool) (k : Nat)
  /-- TILE_FAULT (R687): A tile fault promotes a spare and restarts the launch, or ends it with SEQ_TILE_FAULT. -/
  | tileFault (t : Nat) (spareOk : Bool) (lost : List Nat)
  /-- DITCHRIDER_TAKEOVER (R693): On an error or divergence one ditchrider continues and the other is isolated. -/
  | ditchriderTakeover (failed : Option Nat)
  /-- LOG_ACK_WRITE (R700): The change-log acknowledgement is advanced, or discarded above HEAD. -/
  | logAckWrite (v : Nat) (o : Origin)
  /-- LOG_CFG_WRITE (R700): The change-log overflow configuration is written or discarded. -/
  | logCfgWrite (v : Nat) (o : Origin)
  /-- PERF_WRAP_SERVICE (R166): The ditchrider services a performance-counter wrap and extends its telemetry count. -/
  | perfWrapService (off : Nat)
  /-- PWRGD_ASSERT (R708): PWRGD is asserted once the rails and clocks are up. -/
  | pwrgdAssert
  /-- PWRGD_LOSS (R709): PWRGD drops while COLD_RST_N is high, causing a cold reset, FAULT_N and a log record. -/
  | pwrgdLoss (us : Nat)
  /-- COLD_RESET_ASSERT (R709): Cold reset is asserted and the device resets, losing memory contents. -/
  | coldResetAssert (us : Nat)
  /-- POWER_BRAKE_ASSERT (R725): PWRBRK_N sets F_brake to 400 MHz within 20 us. -/
  | powerBrakeAssert (us : Nat)
  /-- POWER_BRAKE_RELEASE (R725): 1 ms after deassertion F_brake is lifted and F_pwr starts at 400 MHz. -/
  | powerBrakeRelease (us : Nat)
  /-- CLAMP_TRIGGER (R724): Four 1 us samples above CLAMP_W set F_clamp on every tile. -/
  | clampTrigger (samples : List Nat)
  /-- POWER_PERIOD_UPDATE (R722): At each 100 us period F_pwr is lowered, raised or held, and the clamp may be lifted. -/
  | powerPeriodUpdate (now : Nat)
  /-- MONITOR_CALIBRATION (R721): Current monitors are calibrated against PMBus every 100 ms. -/
  | monitorCalibration
  /-- DIE_TEMP_READ (R729): A logic die reports its temperature every 100 us. -/
  | dieTempRead (i tj : Nat)
  /-- DIE_TEMP_CEILING_UPDATE (R729): Each millisecond F_temp of a compute die is lowered or raised by 25 MHz. -/
  | dieTempCeilingUpdate (d : Nat)
  /-- PROTECTION_END (R730): After 100 ms within limits protection ends and F_pwr restarts at 400 MHz. -/
  | protectionEnd
  /-- THM_PWR_CFG_WRITE (R726): The power-limit configuration is written or discarded. -/
  | thmPwrCfgWrite (v : Nat) (o : Origin)
  /-- SB_READ_REQUEST (R716): A sideband Block Write 0x10 requests a register read. -/
  | sbReadRequest (off : Nat) (pec : Bool)
  /-- SB_WRITE_REQUEST (R716): A sideband Block Write 0x12 requests a register write. -/
  | sbWriteRequest (off v : Nat) (pec : Bool)
  /-- SB_RESULT_READ (R716): A sideband Block Read 0x11 returns the status and value of the last request. -/
  | sbResultRead (pec : Bool)
  /-- STANDBY_POWER_UP (R714): Standby power rises, the always-on island powers up and samples the SMB_ADDR straps. -/
  | standbyPowerUp (strap : Nat)
  /-- PTM_RESPONSE_RECEIVE (R578): A PCIe PTM response arrives and the ditchrider disciplines device time, slewing or stepping GLB_PTP_OFFSET and updating LOCKED. -/
  | ptmResponseReceive (p : Nat) (err : Int)
  /-- SMBUS_ALERT_RESPONSE (R733): A read of the SMBus Alert Response Address while ALERT_N is asserted is answered with the device's own sideband address. -/
  | smbusAlertResponse
  /-- MEDIA_JOB_FETCH (R588): A media ring reads its next 128-byte job after a doorbell and accepts it in ring order, completing jobs of unknown TYPE with CMD_INVALID. -/
  | mediaJobFetch (r : Nat) (ext : Option (List Byte))
  deriving DecidableEq, Repr

end Sys2Proof
end

