-- ==== Sys2Proof/Decode.lean ====
section
/-! DEFINITION. The encodings of the Kreizia instruction set (R82 to R90 and the unit chapters): the fields of a
word, which files its register fields name, which bits must be 0, and which words are a defined encoding for check 6
of R117. The table of commands gives no row any bits, so no word spells a command (`decodeTableWord`). -/

namespace Sys2Proof

/-- The command that a word spells by the table's bits: no row of the table has bits. -/
def decodeTableWord (_nbits _w : Nat) : Option Instr := none

/-- The register files of R79. -/
inductive RF where
  | s | a | p | td | v | acc | st
  deriving DecidableEq, Repr

/-- The number of registers of a file (R79). -/
def RF.size : RF → Nat
  | .s => 32 | .a => 16 | .p => 8 | .td => 32 | .v => 64 | .acc => 4 | .st => 4

/-- The shape of an encoding: 0 one word, 1 two words with two specifiers, 2 two words with a 64-bit immediate; the
file each register field names, if it is used; the IMM24 bits that are used; and, per specifier, the kinds of
R85 it may have, bit k standing for kind k, none meaning that it must be 0. -/
structure Enc where
  form : Nat
  dst  : Option RF
  sa   : Option RF
  sb   : Option RF
  sc   : Option RF
  imm  : Nat
  ka   : Nat
  kb   : Nat
  deriving DecidableEq, Repr

/-- A one-word encoding. -/
def enc1 (dst sa sb sc : Option RF) (imm : Nat) : Enc := ⟨0, dst, sa, sb, sc, imm, 0, 0⟩
/-- An extended encoding with two specifiers. -/
def enc2 (dst sa sb sc : Option RF) (imm ka kb : Nat) : Enc := ⟨1, dst, sa, sb, sc, imm, ka, kb⟩

/-- The RND and SAT bits of R84. -/
def immRnd : Nat := 0xE00000
/-- The TY bits of R173. -/
def immTy : Nat := 0x180000
/-- The region fields of the OSM instructions (R209). -/
def immOsm : Nat := 0x07FF00

/-- The encodings by major opcode and FN (R89, R143, R173, R208, R257, R392, R422, R437, R452, R557, R563);
`none` where the pair is reserved. -/
def encOf (opc fn : Nat) : Option Enc :=
  match opc with
  | 0x00 => if fn = 0 then some (enc1 none none none none 0) else none
  | 0x01 => if fn ≤ 13 then some (enc1 (some .s) (some .s) (some .s) none 0) else none
  | 0x02 => if fn ≤ 13 then some (enc1 (some .s) (some .s) none none 0xFFFFFF) else none
  | 0x03 => if fn = 0 then some ⟨2, some .s, none, none, none, 0, 0, 0⟩
            else if fn = 1 then some ⟨2, some .a, none, none, none, 0, 0, 0⟩ else none
  | 0x04 => if fn ≤ 5 then some (enc1 (some .p) (some .s) (some .s) none 0) else none
  | 0x05 => if fn ≤ 3 then some (enc1 (some .p) (some .p) (some .p) none 0)
            else if fn ≤ 5 then some (enc1 (some .p) (some .p) none none 0) else none
  | 0x06 => if fn = 0 then some (enc1 none none none none 0xFFFFFF) else none
  | 0x07 => if fn = 0 then some (enc1 none (some .s) none none 0) else none
  | 0x08 => if fn = 0 then some (enc1 none (some .s) none none 0xFFFFFF) else none
  | 0x09 => if fn = 3 then some (enc1 (some .s) (some .s) (some .s) (some .s) immRnd)
            else if fn ≤ 5 then some (enc1 (some .s) (some .s) (some .s) none immRnd)
            else if fn ≤ 7 then some (enc1 (some .s) (some .s) none none immRnd) else none
  | 0x0A => if fn = 0 then some (enc1 none none none none 0xFF07) else none
  | 0x0B => if fn = 0 then some (enc1 none none none none 0) else none
  | 0x0C => if fn = 0 then some (enc1 none none none none 0xFFFFFF) else none
  | 0x0D => if fn = 0 then some (enc1 (some .s) none none none 0xFFFFFF) else none
  | 0x0E => if fn = 0 then some (enc1 none (some .s) none none 0xFFFFFF) else none
  | 0x10 => if fn ≤ 7 then some (enc1 (some .s) (some .a) none none 0xFFFFFF) else none
  | 0x11 => if fn ≤ 3 then some (enc1 none (some .a) (some .s) none 0xFFFFFF) else none
  | 0x12 => if fn = 0 then some (enc1 (some .a) (some .a) (some .s) none 0xFFFFFF) else none
  | 0x13 => if fn = 0 then some (enc1 (some .a) (some .s) none none 0)
            else if fn = 1 then some (enc1 (some .s) (some .a) none none 0) else none
  | 0x14 => if fn = 0 then some (enc1 (some .td) (some .a) none none 0xFFFFFF) else none
  | 0x15 => if fn = 0 then some (enc1 none (some .a) (some .td) none 0xFFFFFF) else none
  | 0x16 => if fn ≤ 7 then some (enc1 (some .td) (some .s) none none 0) else none
  | 0x17 => if fn ≤ 7 then some (enc1 (some .s) (some .td) none none 0) else none
  | 0x20 => if fn ≤ 7 then some (enc2 (some .acc) none none none 0x18FFFF 12 12) else none
  | 0x21 => if fn ≤ 7 then some (enc1 (some .acc) none none none 0x10FF00) else none
  | 0x22 => if fn ≤ 7 then some (enc2 none (some .acc) (some .s) none 0xF8FF00 8 0) else none
  | 0x23 => if fn = 0 then some (enc1 none (some .s) none none 0)
            else if fn = 1 then some (enc1 none none none none 3) else none
  | 0x24 => if fn ≤ 2 then some (enc1 none (some .s) none none 0)
            else if fn = 3 then some (enc1 none none none none 0) else none
  | 0x30 => if fn = 3 ∨ fn = 4 then some (enc1 (some .v) (some .v) (some .v) (some .v) (immRnd + immTy))
            else if fn = 7 ∨ fn = 8 ∨ fn = 14 ∨ fn = 15 then some (enc1 (some .v) (some .v) none none (immRnd + immTy))
            else some (enc1 (some .v) (some .v) (some .v) none (immRnd + immTy))
  | 0x31 => if fn = 3 ∨ fn = 4 then some (enc1 (some .v) (some .v) (some .s) (some .v) (immRnd + immTy))
            else if fn = 7 ∨ fn = 8 ∨ fn = 14 ∨ fn = 15 then some (enc1 (some .v) (some .v) none none (immRnd + immTy))
            else some (enc1 (some .v) (some .v) (some .s) none (immRnd + immTy))
  | 0x32 => if fn ≤ 6 then some (enc1 (some .p) (some .v) (some .v) none immTy) else none
  | 0x33 => if fn ≤ 1 then some (enc1 (some .v) (some .v) (some .v) none immRnd)
            else if fn ≤ 5 then some (enc1 (some .v) (some .v) none none 0)
            else if fn ≤ 9 then some (enc1 (some .v) (some .v) none none immRnd) else none
  | 0x34 => if fn = 0 then some (enc1 (some .v) (some .a) none none 0xFFFFF)
            else if fn = 1 then some (enc1 (some .v) (some .a) (some .s) none 0xFFFFF)
            else if fn = 2 then some (enc1 (some .v) (some .a) (some .v) none 0xFFFFF) else none
  | 0x35 => if fn = 0 then some (enc1 none (some .a) none (some .v) 0xFFFFF)
            else if fn = 1 then some (enc1 none (some .a) (some .s) (some .v) 0xFFFFF)
            else if fn = 2 then some (enc1 none (some .a) (some .v) (some .v) 0xFFFFF) else none
  | 0x36 => if fn ≤ 2 then some (enc1 (some .s) (some .v) none none 0)
            else if fn ≤ 5 then some (enc1 (some .v) (some .acc) none none 0x7F)
            else if fn ≤ 9 then some (enc1 (some .v) (some .td) (some .s) none 0) else none
  | 0x37 => if fn ≤ 7 then some (enc2 none (some .s) (some .s) none 0x100000 2 8) else none
  | 0x38 => if fn ≤ 1 then some (enc2 none (some .s) (some .s) none 0 8 2) else none
  | 0x39 => if fn = 0 then some (enc1 (some .v) (some .v) (some .v) none 0)
            else if fn = 1 then some (enc1 (some .v) (some .v) none none 0xFF)
            else if fn = 2 then some (enc1 (some .v) (some .v) none none 0) else none
  | 0x3A => if fn = 0 then some (enc1 (some .v) (some .s) none none 0)
            else if fn = 1 then some (enc1 (some .v) (some .v) none none 0xFF) else none
  | 0x3B => if fn = 0 then some (enc1 (some .v) (some .acc) none none 0x7F)
            else if fn = 1 then some (enc1 (some .acc) (some .v) none none 0x7F)
            else if fn = 2 then some (enc1 (some .acc) none (some .v) none immRnd)
            else if fn = 3 then some (enc1 (some .acc) none (some .v) none (immRnd + 0x100)) else none
  | 0x40 => if fn ≤ 2 then some (enc1 (some .v) (some .v) none none (immRnd + immTy))
            else if fn = 3 then some (enc1 (some .v) (some .v) none none (immRnd + immTy + 0xF)) else none
  | 0x41 => some (enc1 none (some .a) none none 0xFFFFF)
  | 0x50 => if fn = 0 then some (enc1 (some .v) (some .acc) (some .st) none immOsm) else none
  | 0x51 => if fn = 0 then some (enc2 none (some .acc) (some .st) none (immOsm + 0xD00000) 8 0) else none
  | 0x52 => if fn = 0 then some (enc2 (some .a) (some .v) (some .st) (some .a) immOsm 6 1) else none
  | 0x53 => if fn = 0 then some (enc1 (some .acc) (some .v) none none immOsm)
            else if fn = 1 then some (enc1 (some .acc) none (some .st) none immOsm)
            else if fn = 2 then some (enc1 (some .acc) none (some .st) (some .a) immOsm)
            else if fn ≤ 4 then some (enc1 none none (some .st) (some .a) immOsm) else none
  | 0x54 => if fn = 0 then some (enc1 (some .st) (some .st) none none (immOsm + 3)) else none
  | 0x55 => if fn = 0 then some (enc2 none (some .acc) (some .st) none (immOsm + 0xD00000) 8 0)
            else if fn = 1 then some (enc2 none (some .acc) (some .acc) (some .v) (immOsm + 0xD00000) 8 0) else none
  | 0x56 => if fn = 0 then some (enc2 (some .st) (some .v) (some .acc) (some .a) immOsm 6 0)
            else if fn = 1 then some (enc2 (some .p) (some .st) (some .st) none 0x00FF00 0 0) else none
  | 0x57 => if fn = 0 then some (enc2 none (some .s) (some .s) (some .s) 0xFF003F 2 0) else none
  | 0x58 => if fn = 0 then some (enc2 none (some .s) (some .s) (some .s) 0xFF000F 2 0) else none
  | 0x60 => if fn = 0 then some (enc1 none (some .a) none none 0x1F) else none
  | 0x61 => if fn = 0 then some (enc1 none none none none 0x1F)
            else if fn = 1 then some (enc1 none (some .s) none none 0x1F)
            else if fn = 2 then some (enc1 none (some .s) (some .s) none 0x1F) else none
  | 0x62 => if fn ≤ 1 then some (enc1 none none none none 0x1F) else none
  | 0x63 => if fn = 0 then some (enc1 none none none none 0x1F) else none
  | 0x64 => if fn ≤ 1 then some ⟨2, none, some .a, some .a, none, 0x3FF, 0, 0⟩
            else if fn = 2 then some ⟨2, none, some .a, none, none, 0x3FF, 0, 0⟩ else none
  | 0x65 => if fn = 0 then some (enc1 none none none none 0x1F) else none
  | 0x70 => if fn = 0 then some (enc2 none none none none 0xF 2 0) else none
  | 0x71 => if fn = 0 then some (enc2 none none none none 0xF 2 0) else none
  | 0x72 => if fn = 0 then some (enc2 none (some .s) none none 0xFF7 2 2)
            else if fn = 1 then some (enc2 none none none none 7 0 0) else none
  | 0x73 => if fn = 0 ∨ fn = 1 then some (enc1 none (some .a) none none 3)
            else if fn = 2 then some (enc1 (some .s) none none none 3) else none
  | 0x74 => if fn = 0 then some (enc1 none none none none 0xF) else none
  | 0x75 => if fn = 0 then some (enc1 none (some .s) none none 3) else none
  | 0x76 => if fn = 0 then some (enc1 (some .s) none none none 0) else none
  | 0x77 => if fn = 0 then some (enc2 none (some .s) (some .s) (some .s) 0xF00000 8 8) else none
  | 0x78 => if fn ≤ 1 then some (enc2 none (some .s) (some .s) (some .s) 0xF00000 8 8) else none
  | 0x79 => if fn = 0 then some (enc2 none (some .s) (some .s) (some .s) 0 2 0)
            else if fn = 1 then some (enc2 none (some .s) (some .s) none 0 0 0) else none
  | 0x7A => if fn = 0 then some (enc2 (some .s) (some .s) none none 0 0 0) else none
  | _ => none

/-- The rows M, columns N and split factor of a shape (R143). -/
def shapeOf (n : Nat) : Nat × Nat × Nat :=
  if n = 0 then (256, 128, 1) else if n = 1 then (256, 64, 2) else if n = 2 then (256, 32, 4)
  else if n = 3 then (256, 16, 8) else if n = 4 then (128, 128, 2) else if n = 5 then (64, 128, 4)
  else if n = 6 then (32, 128, 8) else (16, 128, 16)

/-- Whether a region's row and column index lie in the bank (R144). -/
def regionOk (shape imm : Nat) : Bool :=
  let (m, n, _) := shapeOf shape
  decide (fld imm 15 12 * m < 256) && decide (fld imm 11 8 * n < 128)

/-- The system registers that RDSR may name (R81, R201, R202, R210). -/
def sysReadable (i : Nat) : Bool :=
  decide (i ≤ 6) || decide (0x10 ≤ i ∧ i ≤ 0x13) || decide (i = 0x20) || decide (0x30 ≤ i ∧ i ≤ 0x38)
  || decide (0x40 ≤ i ∧ i ≤ 0x45) || decide (0x48 ≤ i ∧ i ≤ 0x57)

/-- The system registers that WRSR may name. -/
def sysWritable (i : Nat) : Bool :=
  decide (i = 0x20) || decide (0x30 ≤ i ∧ i ≤ 0x37) || decide (0x40 ≤ i ∧ i ≤ 0x44)
  || decide (0x48 ≤ i ∧ i ≤ 0x57)

/-- Specifier A of a second word (R85). -/
def specA (x : W64) : Nat := fld x.toNat 31 0
/-- Specifier B of a second word (R85). -/
def specB (x : W64) : Nat := fld x.toNat 63 32
/-- The kind of a specifier (R85). -/
def specKind (sp : Nat) : Nat := fld sp 31 30

/-- Whether a specifier is of an allowed kind with its reserved bits 0 and its numbers in range (R85, R86);
`kinds` 0 asks for an all-zero specifier, and a register specifier names a scalar register. -/
def specOk (kinds sp : Nat) : Bool :=
  if kinds = 0 then sp == 0
  else bit kinds (specKind sp) &&
    (if specKind sp = 0 then fld sp 29 6 == 0 && decide (fld sp 5 0 < 32)
     else if specKind sp = 1 then true
     else if specKind sp = 2 then fld sp 17 0 == 0 && decide (fld sp 29 24 < 48) &&
       (decide (fld sp 23 20 ≤ 7) || decide (fld sp 23 20 = 15))
     else fld sp 29 5 == 0)

/-- A register field against the file it names (R83). -/
def regOk (f : Option RF) (n : BitVec 6) : Bool :=
  match f with
  | none => n == 0
  | some rf => decide (n.toNat < rf.size)

/-- Whether an FN of VOP or VOPB in form TY exists and its RND and SAT bits are allowed (R173, R174). -/
def vopOk (fn imm : Nat) : Bool :=
  let ty := fld imm 20 19
  let rounds := decide (fn ≤ 4) && decide (ty ≤ 1)
  (rounds || fld imm 23 21 == 0) &&
  (if fn = 12 ∨ fn = 13 then decide (2 ≤ ty) else if fn = 14 ∨ fn = 15 then ty == 0 else true)

/-- The rules of an instruction's own fields beyond the files and masks of `encOf`. -/
def encExtra (opc : Nat) (w : IWord) (x : W64) : Bool :=
  let fn := w.fn.toNat
  let imm := w.imm.toNat
  match opc with
  | 0x08 => imm != 0
  | 0x0A => decide (fld imm 2 0 ≤ 4)
  | 0x0D => sysReadable imm
  | 0x0E => sysWritable imm
  | 0x20 =>
    regionOk fn imm &&
      (fld imm 7 0 == 0 ||
        ((specKind (specA x) != 2 || (fld (specA x) 23 20 == 15 && bit (specA x) 18)) &&
         (specKind (specB x) != 2 || (fld (specB x) 23 20 == 15 && bit (specB x) 18))))
  | 0x21 => regionOk fn imm
  | 0x22 => regionOk fn imm && (bit imm 20 || w.sb == 0)
  | 0x30 => vopOk fn imm
  | 0x31 => vopOk fn imm
  | 0x32 => fld imm 20 19 != 1
  | 0x3B => decide (fn ≤ 1) || fld imm 23 22 != 2
  | 0x40 => decide (fld imm 20 19 ≤ 1)
  | 0x41 => fld imm 5 0 == 0
  | 0x56 => if fn = 1 then regionOk 0 imm else regionOk (fld imm 18 16) imm
  | 0x50 => regionOk (fld imm 18 16) imm
  | 0x51 => regionOk (fld imm 18 16) imm
  | 0x52 => regionOk (fld imm 18 16) imm
  | 0x53 => regionOk (fld imm 18 16) imm
  | 0x54 => regionOk (fld imm 18 16) imm
  | 0x55 => regionOk (fld imm 18 16) imm
  | 0x57 => fld imm 5 4 != 3
  | 0x64 => fn != 2 || fld imm 7 0 == 7
  | 0x76 => decide (w.dst.toNat ≤ 28)
  | _ => true

/-- Whether a word is a defined encoding of major opcode `opc` (R83, R89, check 6 of R117). For a one-word form the
second word plays no part. -/
def kzDefined (opc : Nat) (w : IWord) (x : W64) : Bool :=
  match encOf opc w.fn.toNat with
  | none => false
  | some e =>
    regOk e.dst w.dst && regOk e.sa w.sa && regOk e.sb w.sb && regOk e.sc w.sc &&
    (w.imm.toNat &&& e.imm == w.imm.toNat) &&
    (e.form != 1 || (specOk e.ka (specA x) && specOk e.kb (specB x))) &&
    encExtra opc w x

/-- The unit queue that runs an opcode (R93), numbered as in WAITQ; 5 for the scalar pipe. -/
def kzQueue (opc : Nat) : Nat :=
  if opc ≤ 0x17 ∨ opc = 0x76 then 5
  else if opc ≤ 0x24 then 0
  else if opc ≤ 0x3B then 1
  else if opc ≤ 0x41 then 2
  else if opc ≤ 0x56 then 1
  else if opc ≤ 0x58 then 4
  else if opc ≤ 0x65 then 3
  else if opc = 0x77 ∨ opc = 0x78 then 1
  else 4

/-- The depth of a unit queue (R93). -/
def queueDepth (q : Nat) : Nat := if q = 0 then 16 else if q = 1 ∨ q = 2 then 32 else if q = 3 then 64 else 16

/-- Whether each lane uses its own predicate bit (R95): the VU, SFU and OSM groups, but for QBLK, VWID and
STAB, which have no lanes. -/
def kzLanewise (opc : Nat) : Bool :=
  decide (0x30 ≤ opc ∧ opc ≤ 0x56 ∧ opc ≠ 0x37 ∧ opc ≠ 0x38 ∧ opc ≠ 0x41)

/-- The first word of an instruction from its major opcode, its X bit and its fields (R82). -/
def kzWord (opc : BitVec 7) (xbit : Bool) (w : IWord) : W64 :=
  BitVec.ofBool xbit ++ opc ++ w.fn ++ w.pr ++ BitVec.ofBool w.pn ++ w.dst ++ w.sa ++ w.sb ++ w.sc ++ w.imm

/-- The fields of an instruction's first word (R82). -/
def kzFields (v : W64) : IWord :=
  { fn := v.extractLsb' 52 4, pr := v.extractLsb' 49 3, pn := v.getLsbD 48, dst := v.extractLsb' 42 6,
    sa := v.extractLsb' 36 6, sb := v.extractLsb' 30 6, sc := v.extractLsb' 24 6, imm := v.extractLsb' 0 24 }

/-- The major opcode of a first word (R82). -/
def kzOpc (v : W64) : BitVec 7 := v.extractLsb' 56 7

/-- Whether a first word announces a second one (R82). -/
def kzExt (v : W64) : Bool := v.getLsbD 63

/-- The length in bytes of the instruction whose first word is `v`. -/
def kzLen (v : W64) : Nat := if kzExt v then 16 else 8

/-- Whether a whole instruction is a defined encoding, its X bit included. -/
def kzInstrOk (v x : W64) : Bool :=
  let opc := (kzOpc v).toNat
  let w := kzFields v
  kzDefined opc w x &&
  (match encOf opc w.fn.toNat with
   | none => false
   | some e => kzExt v == decide (e.form ≠ 0))

/-- The registers an instruction reads or writes, each with whether it writes it (R94, R145, R207). A predicate
register is read by every instruction. -/
def kzUses (opc : Nat) (w : IWord) (x : W64) : List (RF × Nat × Bool) :=
  match encOf opc w.fn.toNat with
  | none => []
  | some e =>
    let fn := w.fn.toNat
    let one (f : Option RF) (n : BitVec 6) (wr : Bool) : List (RF × Nat × Bool) :=
      match f with
      | none => []
      | some rf => [(rf, n.toNat, wr)]
    -- address registers named as DST by OSMS are read
    let dstWr := !(opc == 0x52)
    let saWr := e.sa == some .acc && (opc == 0x22 || opc == 0x3B || opc == 0x55)
      || (opc == 0x54 && bit w.imm.toNat 0)
    let sbWr := e.sb == some .st && (opc == 0x50 || opc == 0x51 || (opc == 0x53 && (fn == 2 || fn == 4)))
    let spec (sp : Nat) : List (RF × Nat × Bool) :=
      if specKind sp = 0 then [(.s, fld sp 5 0, false)]
      else if specKind sp = 1 then [(.a, fld sp 29 26, false)]
      else if specKind sp = 3 then [(.td, fld sp 4 0, false)] else []
    [(.p, w.pr.toNat, false)] ++ one e.dst w.dst dstWr ++ one e.sa w.sa saWr ++ one e.sb w.sb sbWr ++
    one e.sc w.sc false ++
    (if opc = 0x76 then (List.range 4).map (fun k => (.s, w.dst.toNat + k, true)) else []) ++
    (if e.form = 1 then (if e.ka = 0 then [] else spec (specA x)) ++ (if e.kb = 0 then [] else spec (specB x))
     else [])

/-- The logical resource an instruction names, with its number (R90, R86): 0 flume channel, 1 sluice slot, 2 sprinkle
slot, 3 SFU table slot, 4 KV handle, 5 accumulator bank, 6 tidy-core use. -/
def kzRefs (opc : Nat) (w : IWord) (x : W64) : List (Nat × Nat) :=
  let imm := w.imm.toNat
  let fn := w.fn.toNat
  let ring (sp : Nat) : List (Nat × Nat) :=
    if specKind sp = 2 then
      (let r := fld sp 29 24; if r < 32 then [(0, r)] else [(1, r - 32)]) else []
  let specs := match encOf opc fn with
    | some e => if e.form = 1 then (if e.ka = 0 then [] else ring (specA x)) ++ (if e.kb = 0 then [] else ring (specB x)) else []
    | none => []
  let accs := (kzUses opc w x).filterMap fun u => if u.1 = .acc then some (5, u.2.1) else none
  specs ++ accs ++
  (if opc = 0x60 ∨ opc = 0x61 ∨ opc = 0x62 ∨ opc = 0x63 ∨ opc = 0x65 then [(0, fld imm 4 0)]
   else if opc = 0x70 ∨ opc = 0x71 then [(1, fld imm 3 0)]
   else if opc = 0x72 then [(2, fld imm 2 0)]
   else if opc = 0x40 ∧ fn = 3 then [(3, fld imm 3 0)]
   else if opc = 0x41 then [(3, fn)]
   else if opc = 0x57 ∨ opc = 0x58 then [(4, fld imm 3 0)]
   else if opc = 0x75 ∨ opc = 0x76 then [(6, 0)] else [])

end Sys2Proof
end

