-- ==== Sys2Proof/Machine/Sparse.lean ====
section
/-! DEFINITION. Sparse storage: every memory, register file and table of the model that is indexed by a
number is a list of (index, value) pairs in one canonical form, with a value `d k` at an index not listed. -/

namespace Sys2Proof.Machine

/-- Storage indexed by a number. Listed indices rise strictly, and no listed value equals the value an
unlisted index has. -/
abbrev Sparse (α : Type) := List (Nat × α)

/-- What index `k` holds: its listed value, or `d k` when it is not listed. -/
def spGet {α : Type} (d : Nat → α) : Sparse α → Nat → α
  | [], k => d k
  | (j, v) :: m, k => if k = j then v else if k < j then d k else spGet d m k

/-- `m` with index `k` no longer listed. -/
def spErase {α : Type} : Sparse α → Nat → Sparse α
  | [], _ => []
  | (j, v) :: m, k => if k = j then m else if k < j then (j, v) :: m else (j, v) :: spErase m k

/-- `m` with `v` listed at `k`, in place. -/
def spInsert {α : Type} : Sparse α → Nat → α → Sparse α
  | [], k, x => [(k, x)]
  | (j, v) :: m, k, x =>
    if k = j then (k, x) :: m else if k < j then (k, x) :: (j, v) :: m else (j, v) :: spInsert m k x

/-- `m` with index `k` holding `v`; an index that holds what an unlisted one has is not listed. -/
def spSet {α : Type} [DecidableEq α] (d : Nat → α) (m : Sparse α) (k : Nat) (v : α) : Sparse α :=
  if v = d k then spErase m k else spInsert m k v

/-- The value at `k` changed by a function. -/
def spMod {α : Type} [DecidableEq α] (d : Nat → α) (m : Sparse α) (k : Nat) (f : α → α) : Sparse α :=
  spSet d m k (f (spGet d m k))

/-- Every listed index of `m` is at least `lo`, indices rise strictly, and no listed value is the default. -/
def spWfFrom {α : Type} [DecidableEq α] (d : Nat → α) : Nat → Sparse α → Bool
  | _, [] => true
  | lo, (j, v) :: m => decide (lo ≤ j) && decide (v ≠ d j) && spWfFrom d (j + 1) m

/-- The canonical form. -/
def spWf {α : Type} [DecidableEq α] (d : Nat → α) (m : Sparse α) : Bool := spWfFrom d 0 m

/-- `n` consecutive values from index `k`. -/
def spRead {α : Type} (d : Nat → α) (m : Sparse α) (k : Nat) : Nat → List α
  | 0 => []
  | n + 1 => spGet d m k :: spRead d m (k + 1) n

/-- Consecutive values written from index `k`. -/
def spWrite {α : Type} [DecidableEq α] (d : Nat → α) (m : Sparse α) (k : Nat) : List α → Sparse α
  | [] => m
  | v :: vs => spWrite d (spSet d m k v) (k + 1) vs

end Sys2Proof.Machine
end

