-- ==== Sys2Proof/Machine/Fp.lean ====
section
/-! DEFINITION. Exact dyadic reals, the scalar formats of R32, and rounding (R63 to R66): every result is
computed exactly and rounded once. -/

namespace Sys2Proof.Machine

/-- An exact finite value `(-1)^neg * mant * 2^exp`; a zero keeps its sign. -/
structure Dy where
  neg  : Bool
  mant : Nat
  exp  : Int
  deriving DecidableEq, Repr

/-- A value of a floating-point format: NaN (always quiet, no payload, R33), an infinity, or finite. -/
inductive Ext where
  | nan
  | inf (neg : Bool)
  | fin (d : Dy)
  deriving DecidableEq, Repr

/-- The rounding modes of R63. -/
inductive Rnd where
  | rne | rtz | sr | rna
  deriving DecidableEq, Repr

/-- The RND encoding of R63. -/
def rndOf (n : Nat) : Rnd :=
  if n % 4 = 0 then .rne else if n % 4 = 1 then .rtz else if n % 4 = 2 then .sr else .rna

/-- A binary floating-point layout: exponent bits and fraction bits (R32). -/
structure FFmt where
  eb : Nat
  fb : Nat
  deriving DecidableEq, Repr

/-- fp32 of R32. -/
def fp32 : FFmt := ⟨8, 23⟩
/-- bf16 of R32. -/
def bf16 : FFmt := ⟨8, 7⟩
/-- fp16 of R32. -/
def fp16 : FFmt := ⟨5, 10⟩

/-- The exponent bias of a layout (R32). -/
def FFmt.bias (f : FFmt) : Nat := 2 ^ (f.eb - 1) - 1
/-- The bit pattern of +infinity. -/
def FFmt.infBits (f : FFmt) : Nat := (2 ^ f.eb - 1) <<< f.fb
/-- The canonical NaN of R33. -/
def FFmt.nanBits (f : FFmt) : Nat := f.infBits + 2 ^ (f.fb - 1)
/-- The bit pattern of the largest finite magnitude. -/
def FFmt.maxBits (f : FFmt) : Nat := f.infBits - 1
/-- The sign bit's weight. -/
def FFmt.signBit (f : FFmt) : Nat := 2 ^ (f.eb + f.fb)

/-- Zero. -/
def Dy.zero : Dy := ⟨false, 0, 0⟩
/-- A natural number as an exact value. -/
def Dy.ofNat (n : Nat) : Dy := ⟨false, n, 0⟩
/-- An integer as an exact value. -/
def Dy.ofInt (i : Int) : Dy := ⟨decide (i < 0), i.natAbs, 0⟩
/-- The signed significand at exponent `e`, for `e` at most the value's own exponent. -/
def Dy.at (d : Dy) (e : Int) : Int :=
  let m : Int := (d.mant <<< (d.exp - e).toNat : Nat)
  if d.neg then -m else m
/-- The exact value of an integer times `2^e`. -/
def Dy.scaled (i e : Int) : Dy := ⟨decide (i < 0), i.natAbs, e⟩
/-- Negation. -/
def Dy.neg' (d : Dy) : Dy := { d with neg := !d.neg }
/-- Magnitude. -/
def Dy.abs (d : Dy) : Dy := { d with neg := false }
/-- The exact sum; an exact zero sum is +0 unless both terms are negative (IEEE 754-2019). -/
def Dy.add (a b : Dy) : Dy :=
  let e := min a.exp b.exp
  let s := a.at e + b.at e
  if s = 0 then ⟨a.neg && b.neg, 0, 0⟩ else Dy.scaled s e
/-- The exact product. -/
def Dy.mul (a b : Dy) : Dy := ⟨a.neg != b.neg, a.mant * b.mant, a.exp + b.exp⟩
/-- The exact difference. -/
def Dy.sub (a b : Dy) : Dy := a.add b.neg'
/-- The value times `2^k`. -/
def Dy.shift (d : Dy) (k : Int) : Dy := { d with exp := d.exp + k }
/-- Strict order of exact values; zeros of both signs are equal. -/
def Dy.lt (a b : Dy) : Bool :=
  let e := min a.exp b.exp
  decide (a.at e < b.at e)
/-- Weak order of exact values. -/
def Dy.le (a b : Dy) : Bool := !b.lt a
/-- Numeric equality. -/
def Dy.eqv (a b : Dy) : Bool := !a.lt b && !b.lt a
/-- `⌊log2 |d|⌋` of a non-zero value. -/
def Dy.log2 (d : Dy) : Int := (Nat.log2 d.mant : Int) + d.exp
/-- Whether the value is zero. -/
def Dy.isZero (d : Dy) : Bool := d.mant == 0
/-- Whether the magnitude is a power of two. -/
def Dy.isPow2 (d : Dy) : Bool := d.mant != 0 && 2 ^ Nat.log2 d.mant == d.mant
/-- `⌊|d|⌋` of a value. -/
def Dy.floorAbs (d : Dy) : Nat :=
  if 0 ≤ d.exp then d.mant <<< d.exp.toNat else d.mant >>> (-d.exp).toNat
/-- `⌊d⌋`. -/
def Dy.floor (d : Dy) : Int :=
  if d.neg then -(if 0 ≤ d.exp then ((d.mant <<< d.exp.toNat : Nat) : Int)
    else (((d.mant + 2 ^ (-d.exp).toNat - 1) >>> (-d.exp).toNat : Nat) : Int))
  else (d.floorAbs : Int)

/-- Reading a bit pattern of a scalar format (R33, R34). -/
def FFmt.dec (f : FFmt) (b : Nat) : Ext :=
  let s := bit b (f.eb + f.fb)
  let e := fld b (f.eb + f.fb - 1) f.fb
  let m := b % 2 ^ f.fb
  if e = 2 ^ f.eb - 1 then (if m = 0 then .inf s else .nan)
  else if e = 0 then .fin ⟨s, m, 1 - (f.bias : Int) - f.fb⟩
  else .fin ⟨s, m + 2 ^ f.fb, (e : Int) - f.bias - f.fb⟩

/-- A significand `m * 2^e` on the grid of spacing `2^q`, rounded under a mode with draw `D` (R63, R65). -/
def roundGrid (r : Rnd) (D : Nat) (m : Nat) (e q : Int) : Nat :=
  if q ≤ e then m <<< (e - q).toNat
  else
    let d := (q - e).toNat
    let lo := m >>> d
    let rem := m % 2 ^ d
    let up : Bool := match r with
      | .rne => decide (2 ^ d < 2 * rem) || (decide (2 * rem = 2 ^ d) && lo % 2 == 1)
      | .rtz => false
      | .rna => decide (2 ^ d ≤ 2 * rem)
      | .sr => decide (65536 ≤ (rem <<< 16) >>> d + D)
    if up then lo + 1 else lo

/-- A rounded result: its bits, and whether it saturated or overflowed (R64, R69). -/
structure Rounded where
  bits : Nat
  sat  : Bool
  ovf  : Bool
  deriving DecidableEq, Repr

/-- Rounding an exact value to a scalar format once, under RND, SAT and a 16-bit draw (R63 to R66, R69). -/
def FFmt.round (f : FFmt) (r : Rnd) (sat : Bool) (D : Nat) (d : Dy) : Rounded :=
  let sb := if d.neg then f.signBit else 0
  if d.mant = 0 then ⟨sb, false, false⟩
  else
    let emin : Int := 1 - (f.bias : Int)
    let q0 : Int := max d.log2 emin - f.fb
    let m := roundGrid r D d.mant d.exp q0
    -- the biased exponent and fraction of `m * 2^q0`, the carry of a rounding up included
    let e0 : Nat := (q0 + f.fb - emin).toNat
    -- a carry out of the significand goes into the exponent by this addition
    let code := m + e0 <<< f.fb
    let beyond : Bool := (let big : Dy := ⟨false, 2 ^ (f.fb + 1) - 1, (f.bias : Int) - f.fb⟩; big.lt d.abs)
    if f.infBits ≤ code then
      (if sat || r = .rtz then ⟨sb + f.maxBits, true, false⟩ else ⟨sb + f.infBits, false, true⟩)
    else ⟨sb + code, beyond && decide (r = .rtz), false⟩

/-- The bits of an extended value in a format, rounding a finite one. -/
def FFmt.enc (f : FFmt) (r : Rnd) (sat : Bool) (D : Nat) : Ext → Rounded
  | .nan => ⟨f.nanBits, false, false⟩
  | .inf s => ⟨(if s then f.signBit else 0) + f.infBits, false, false⟩
  | .fin d => f.round r sat D d

/-- IEEE 754-2019 addition on extended values, exact. -/
def Ext.add : Ext → Ext → Ext
  | .nan, _ => .nan
  | _, .nan => .nan
  | .inf a, .inf b => if a = b then .inf a else .nan
  | .inf a, .fin _ => .inf a
  | .fin _, .inf b => .inf b
  | .fin a, .fin b => .fin (a.add b)

/-- Negation of an extended value. -/
def Ext.neg : Ext → Ext
  | .nan => .nan
  | .inf s => .inf (!s)
  | .fin d => .fin d.neg'

/-- Magnitude of an extended value. -/
def Ext.abs : Ext → Ext
  | .nan => .nan
  | .inf _ => .inf false
  | .fin d => .fin d.abs

/-- IEEE 754-2019 multiplication on extended values, exact. -/
def Ext.mul : Ext → Ext → Ext
  | .nan, _ => .nan
  | _, .nan => .nan
  | .inf a, .inf b => .inf (a != b)
  | .inf a, .fin d => if d.isZero then .nan else .inf (a != d.neg)
  | .fin d, .inf b => if d.isZero then .nan else .inf (d.neg != b)
  | .fin a, .fin b => .fin (a.mul b)

/-- Subtraction on extended values, exact. -/
def Ext.sub (a b : Ext) : Ext := a.add b.neg

/-- Strict order; false when either is NaN. -/
def Ext.lt : Ext → Ext → Bool
  | .nan, _ => false
  | _, .nan => false
  | .inf a, .inf b => a && !b
  | .inf a, .fin _ => a
  | .fin _, .inf b => !b
  | .fin a, .fin b => a.lt b

/-- Whether the value is NaN. -/
def Ext.isNan : Ext → Bool
  | .nan => true
  | _ => false

/-- Whether the value is finite. -/
def Ext.isFin : Ext → Bool
  | .fin _ => true
  | _ => false

/-- The finite value, with 0 for a non-finite one. -/
def Ext.toDy : Ext → Dy
  | .fin d => d
  | _ => Dy.zero

/-- Whether the value is a zero of either sign. -/
def Ext.isZero : Ext → Bool
  | .fin d => d.isZero
  | _ => false

/-- Numeric equality; false when either is NaN. -/
def Ext.eqv (a b : Ext) : Bool := !a.isNan && !b.isNan && !a.lt b && !b.lt a

/-- `kz_mix` of R66. -/
def kzMix (z : W64) : W64 :=
  let z := (z ^^^ (z >>> 30)) * 0xB5A36C4E9D172F8B#64
  let z := (z ^^^ (z >>> 27)) * 0x8F1D3A6BC25947E1#64
  z ^^^ (z >>> 31)

/-- `kz_draw` of R66: the 16-bit draw of one stochastic rounding. -/
def kzDraw (seed : W64) (tensorId : Nat) (stream : Nat) (index : W64) : Nat :=
  let tag : W64 := BitVec.ofNat 64 ((tensorId % 2 ^ 32) * 256 + stream % 256)
  let key := kzMix (seed ^^^ (tag * 0xA0D527C36E91B45D#64))
  ((kzMix (key + index * 0xB5A36C4E9D172F8B#64)) >>> 48).toNat

end Sys2Proof.Machine
end

