-- ==== Sys2Proof/Machine/Block.lean ====
section
/-! DEFINITION. The block formats of R36 to R43: element codes, planes, the outlier record, encoding a block
(R48 to R53) and reading one back. -/

namespace Sys2Proof.Machine

/-- The bits of one element of block format `f` (R37, R41; FMT numbers of R44). -/
def elemBits (f : Nat) : Nat :=
  if f = 0 ∨ f = 1 ∨ f = 5 then 8 else if f = 2 ∨ f = 3 then 6 else if f = 4 then 4 else 2

/-- The element bytes of one block (R40). -/
def blockBytes (f : Nat) : Nat := 4 * elemBits f

/-- Whether FMT names a block format. -/
def isBlockFmt (f : Nat) : Bool := decide (f ≤ 6)

/-- The floating layout of the elements of FMT 0 to 4 (R37). -/
def elemFFmt (f : Nat) : FFmt :=
  if f = 0 then ⟨4, 3⟩ else if f = 1 then ⟨5, 2⟩ else if f = 2 then ⟨3, 2⟩ else if f = 3 then ⟨2, 3⟩
  else ⟨2, 1⟩

/-- The code of the largest magnitude of an element format, sign bit apart (R37). -/
def elemMaxCode (f : Nat) : Nat :=
  if f = 0 then 0x7E else if f = 1 then 0x7B else if f = 2 ∨ f = 3 then 0x1F else if f = 4 then 7
  else if f = 5 then 127 else 2

/-- EMAX of R37. -/
def elemEmax (f : Nat) : Int :=
  if f = 0 then 8 else if f = 1 then 15 else if f = 2 then 4 else if f = 3 ∨ f = 4 then 2 else 0

/-- The value of an element code (R37 to R39). -/
def elemDec (f code : Nat) : Ext :=
  if f ≤ 4 then
    let l := elemFFmt f
    let s := bit code (l.eb + l.fb)
    let e := fld code (l.eb + l.fb - 1) l.fb
    let m := code % 2 ^ l.fb
    if f = 0 ∧ code % 128 = 127 then .nan
    else if f = 1 ∧ e = 31 then (if m = 0 then .inf s else .nan)
    else if e = 0 then .fin ⟨s, m, 1 - (l.bias : Int) - l.fb⟩
    else .fin ⟨s, m + 2 ^ l.fb, (e : Int) - l.bias - l.fb⟩
  else if f = 5 then
    let v := sgn 8 code
    .fin ⟨decide (v < 0), v.natAbs, -6⟩
  else
    let c := code % 4
    .fin (if c = 3 then ⟨true, 1, 0⟩ else ⟨false, c, 0⟩)

/-- The element code of a finite value already divided by the block's scale, rounded and saturated (R48 step 4,
the NL2 tie rule after it). -/
def elemEnc (f : Nat) (r : Rnd) (D : Nat) (x : Dy) : Nat :=
  if f ≤ 4 then
    let l := elemFFmt f
    let sb := if x.neg then 2 ^ (l.eb + l.fb) else 0
    if x.mant = 0 then sb
    else
      let emin : Int := 1 - (l.bias : Int)
      let q : Int := max x.log2 emin - l.fb
      let m := roundGrid r D x.mant x.exp q
      sb + min (m + (q + l.fb - emin).toNat <<< l.fb) (elemMaxCode f)
  else if f = 5 then
    let m := min (roundGrid r D x.mant x.exp (-6)) 127
    if x.neg then wrap 8 (-(m : Int)) else m
  else
    -- a tie between two NL2 values goes to the smaller magnitude, whatever the nearest mode
    let two : Bool := (Dy.mk false 1 (-1)).eqv (x.abs.sub (Dy.ofNat x.floorAbs))
    let m := if two && r != .sr then x.floorAbs else roundGrid r D x.mant x.exp 0
    if x.neg then (if m = 0 then 0 else 3) else min m 2

/-- The largest magnitude of a format on the side of the given sign (R37, R49). -/
def elemLimit (f : Nat) (neg : Bool) : Dy :=
  if f = 6 then Dy.ofNat (if neg then 1 else 2)
  else (elemDec f (elemMaxCode f)).toDy

/-- The largest of a list of magnitudes under an order, with its index; ties go to the lower index. -/
def argmaxFrom (xs : List (Nat × Dy)) : Option (Nat × Dy) :=
  xs.foldl (fun best x => match best with
    | none => some x
    | some b => if b.2.lt x.2 then some x else some b) none

/-- `⌊log2⌋` of a magnitude, with −150 for zero (R48 step 2). -/
def log2z (d : Dy) : Int := if d.isZero then -150 else d.log2

/-- A quantisation profile (R44). -/
structure QProf where
  escSlots : Nat
  escEn    : Bool
  errBits  : Nat
  uflMax   : Nat
  outGap   : Nat
  outlEn   : Bool
  rnd      : Nat
  fmt      : Nat
  deriving DecidableEq, Repr

/-- The fields of a VU_QPROF register (R44). -/
def qprofOf (v : Nat) : QProf :=
  { escSlots := fld v 23 22, escEn := bit v 21, errBits := fld v 20 18, uflMax := fld v 17 12,
    outGap := fld v 11 9, outlEn := bit v 8, rnd := fld v 7 6, fmt := fld v 3 0 }

/-- Whether a profile is one that a QBLK may name (R45). -/
def QProf.valid (p : QProf) : Bool :=
  decide (p.fmt ≤ 6) && (!p.escEn || p.outlEn) && (!p.outlEn || p.outGap != 0) && decide (p.uflMax ≤ 32)

/-- Escalation slots per segment of the 2-bit field (R44). -/
def escSlotCount (c : Nat) : Nat := if c = 0 then 0 else 2 ^ (c - 1)

/-- One encoded block before any escalation: its codes, scale, outlier record, and what the triggers and the
counters need (R48 to R50). -/
structure EncBlock where
  codes   : List Nat
  scale   : Nat
  record  : Nat
  nan     : Bool
  outl    : Nat
  ufl     : Nat
  sat     : Nat
  ovf     : Nat
  trigger : Bool
  deriving DecidableEq, Repr

/-- The indices of the outliers of a block, of none, one or two elements (R48 step 2). -/
def outliers (gap : Nat) (xs : List Dy) : List Nat :=
  let ix := xs.mapIdx fun i x => (i, x.abs)
  match argmaxFrom ix with
  | none => []
  | some a1 =>
    let ix2 := ix.filter fun p => p.1 != a1.1
    match argmaxFrom ix2 with
    | none => []
    | some a2 =>
      let a3 := (argmaxFrom (ix2.filter fun p => p.1 != a2.1)).getD (0, Dy.zero)
      if !a2.2.isZero && decide ((gap : Int) ≤ log2z a2.2 - log2z a3.2) then
        (if a1.1 < a2.1 then [a1.1, a2.1] else [a2.1, a1.1])
      else if !a1.2.isZero && decide ((gap : Int) ≤ log2z a1.2 - log2z a2.2) then [a1.1] else []

/-- Clamping of the scale exponent to [−127, 127] (R48 step 3). -/
def clampX (x : Int) : Int := max (-127) (min 127 x)

/-- The scale exponent X of the elements that are not outliers (R48 step 3). -/
def scaleExp (f : Nat) (xs : List Dy) : Int :=
  if f = 6 then
    let pos := ((xs.filter fun x => !x.neg).foldl (fun m x => if m.lt x then x else m) Dy.zero).shift (-1)
    let negm := (xs.filter fun x => x.neg).foldl (fun m x => if m.lt x.abs then x.abs else m) Dy.zero
    let y := if pos.lt negm then negm else pos
    if y.isZero then -127 else clampX (if y.isPow2 then y.log2 else y.log2 + 1)
  else
    let amax := xs.foldl (fun m x => if m.lt x.abs then x.abs else m) Dy.zero
    if amax.isZero then -127 else clampX (amax.log2 - elemEmax f)

/-- One valid entry of an outlier record (R42). -/
def outlEntry (idx val : Nat) : Nat := 2 ^ 21 + idx <<< 16 + val

/-- A running fp32 sum of exact terms, each added with one RNE rounding, from +0.0 (R50). -/
def fp32Sum (terms : List Dy) : Ext :=
  terms.foldl (fun acc t => fp32.dec ((fp32.enc .rne false 0 (acc.add (.fin t))).bits)) (.fin Dy.zero)

/-- Encoding one block of 32 values under a profile's format, rounding, outlier rule and triggers (R48, R49, R50).
`draw i` is the stochastic draw of element `i`. An outlier entry that rounds to infinity overflows (R69); it never counts
as saturated (R49). -/
def encodeBlock (p : QProf) (draw : Nat → Nat) (xs : List Ext) : EncBlock :=
  if xs.any (fun x => !x.isFin) then
    { codes := xs.map fun _ => 0, scale := 0xFF, record := 0, nan := true, outl := 0, ufl := 0, sat := 0,
      ovf := 0, trigger := false }
  else
    let ds := xs.map Ext.toDy
    let r := rndOf p.rnd
    let outs := if p.outlEn then outliers p.outGap ds else []
    let idx := ds.mapIdx fun i x => (i, x)
    let rest := idx.filter fun q => !outs.contains q.1
    let X := scaleExp p.fmt (rest.map Prod.snd)
    let codes := idx.map fun q => elemEnc p.fmt r (draw q.1) (q.2.shift (-X))
    let isSat (d : Dy) : Bool := ((elemLimit p.fmt d.neg).shift X).abs.lt d.abs
    let decoded (q : Nat × Dy) : Dy := ((elemDec p.fmt (codes.getD q.1 0)).toDy).shift X
    let sat := (rest.filter fun q => isSat q.2).length
    let ufl := (rest.filter fun q => !q.2.isZero && (decoded q).isZero).length
    let wide (i : Nat) : Rounded := bf16.round r false (draw i) (ds.getD i Dy.zero)
    let entry (i : Nat) : Nat := outlEntry i (wide i).bits
    let record := match outs with
      | [] => 0
      | [i] => entry i
      | i :: j :: _ => entry i + (entry j) <<< 22
    let err := fp32Sum (rest.map fun q => let d := q.2.sub (decoded q); d.mul d)
    let sq := fp32Sum (rest.map fun q => q.2.mul q.2)
    let scaled := Ext.mul (.fin ⟨false, 1, -2 * (p.errBits : Int)⟩) sq
    { codes := codes, scale := (X + 127).toNat, record := record, nan := false, outl := outs.length,
      ufl := ufl, sat := sat, ovf := (outs.filter fun i => (wide i).ovf).length,
      trigger := decide (sat ≠ 0) || decide (p.uflMax < ufl) || (p.errBits != 0 && scaled.lt err) }

/-- Little-endian bit packing of codes of `b` bits (R41). -/
def packBits (b : Nat) (codes : List Nat) : Nat :=
  (codes.mapIdx fun i c => (c % 2 ^ b) <<< (b * i)).foldl (· + ·) 0

/-- The element bytes of one block (R41). -/
def packBlock (f : Nat) (codes : List Nat) : List Byte := leBytes (blockBytes f) (packBits (elemBits f) codes)

/-- Element `i`'s code out of a block's element bytes (R41). -/
def elemCode (f : Nat) (bytes : List Byte) (i : Nat) : Nat :=
  (leNat bytes >>> (elemBits f * i)) % 2 ^ elemBits f

/-- The value of a code under an E8M0 scale; a scale of 0xFF makes it NaN (R36). -/
def scaledVal (f code scale : Nat) : Ext :=
  if scale = 0xFF then .nan
  else match elemDec f code with
    | .fin d => .fin (d.shift ((scale : Int) - 127))
    | e => e

/-- The 32 values of a block from its narrow encoding, outlier entries apart (R36, R57). -/
def narrowVals (f : Nat) (bytes : List Byte) (scale : Nat) : List Ext :=
  (List.range 32).map fun i => scaledVal f (elemCode f bytes i) scale

/-- The 32 values with the record's valid entries in place (R43): entry 0 wins over an entry 1 of equal index. -/
def withOutliers (record : Nat) (vals : List Ext) : List Ext :=
  vals.mapIdx fun i v =>
    if bit record 21 && fld record 20 16 == i then bf16.dec (fld record 15 0)
    else if bit record 43 && fld record 42 38 == i then bf16.dec (fld record 37 22)
    else v

/-- Whether a block whose outlier record is `record` is escalated in a tensor with `slots` slots per segment
(R751). -/
def isEscalated (slots record : Nat) : Bool := bit record 47 && decide (fld record 46 45 < slots)

/-- How many valid entries a record holds. -/
def validEntries (record : Nat) : Nat := b2n (bit record 21) + b2n (bit record 43)

/-- `n` bf16 values out of bytes. -/
def bf16Vals (n : Nat) (bytes : List Byte) : List Ext :=
  (List.range n).map fun i => bf16.dec (leNat ((bytes.drop (2 * i)).take 2))

end Sys2Proof.Machine
end

