-- ==== Sys2Proof/Machine/State.lean ====
section
/-! DEFINITION. The state of the NT4 as the block sees it: plain data for everything the spec names, the reasons
a step can stop, and the state after a cold reset. Register files hold, per offset of the register view (R738 to
R743), the stored value of every register field that is not derived from other state. -/

namespace Sys2Proof.Machine

/-- An active hardware loop (R103, R747): code offsets of the first word of the body and of the first word of
its last instruction, and the iterations remaining, the current one included; 0 when the count is exhausted
and execution has not yet continued after the body. -/
structure Loop where
  start : Nat
  stop  : Nat
  rem   : Nat
  deriving DecidableEq, Repr

/-- The open query block of a context (R211, R214, R219, R220): its mode, whether it is a rerun, the columns
skipped and the rows marked, the statistics register and rows of its OSMN, the registers and the loop state to
restore, the channels started since, whether a rerun would be unsafe, and whether a rerun is due. -/
structure OsmBlk where
  isOpen  : Bool
  mode    : Bool
  rerun   : Bool
  due     : Bool
  dirty   : Bool
  skipped : Nat
  marked  : List Nat
  stReg   : Nat
  rows    : List Nat
  started : Nat
  pc      : Nat
  loops   : List Loop
  s       : Sparse W64
  a       : Sparse W64
  p       : Sparse Pred
  td      : Sparse TDesc
  deriving DecidableEq, Repr

/-- The contents of a ring slot as an instruction read them: its bytes, and the poisoned words met. -/
structure Image where
  ring  : Nat
  base  : Nat
  bytes : List Byte
  bad   : List Nat
  deriving DecidableEq, Repr

/-- What an instruction samples when it issues (R46, R109, R210): s29 to s31, the quantisation profile it names,
the system registers of R210, and for OSMN its restart point (R214, R219). -/
structure Sample where
  s29  : W64
  s30  : W64
  s31  : W64
  prof : W64
  osm  : Sparse W64
  blk  : OsmBlk
  deriving DecidableEq, Repr

/-- An instruction outstanding in a unit queue (R93, R97): its place in issue order, the registers it
uses (R94), its sample, whether it has started and only waits for its
completion, the crumb entry or flush it started, and the ring slots it has read so far. -/
structure QEntry where
  instr   : Instr
  seq     : Nat
  uses    : List (RF × Nat × Bool)
  samp    : Sample
  started : Bool
  ref     : Nat
  got     : List Image
  deriving DecidableEq, Repr

/-- A loaded kernel (R115, R748): header fields that stay in force, and the bindings of its logical resources. -/
structure LKernel where
  handle    : Nat
  kernelId  : Nat
  accMask   : Nat
  accKeep   : Nat
  flags     : Nat
  channels  : Nat
  codeOff   : Nat
  codeBytes : Nat
  entry     : Nat
  cisOff    : Nat
  cisBytes  : Nat
  sfuMap    : List Nat
  slcMap    : List Nat
  spkMap    : List Nat
  kvpMap    : List Nat
  group     : Nat
  deriving DecidableEq, Repr

/-- The registers and state kept once per context (R79, R81, R153, R155, R210, R309, R299). -/
structure Ctx where
  s      : Sparse W64
  a      : Sparse W64
  p      : Sparse Pred
  td     : Sparse TDesc
  pc     : Nat
  loops  : List Loop
  mePad  : W64
  lenM   : Nat
  lenN   : Nat
  lenK   : Nat
  osm    : Sparse W64
  blk    : OsmBlk
  poison : Bool
  saved  : Bool
  flmSaved : Sparse Byte
  kernels : List LKernel
  deriving DecidableEq, Repr

/-- One SFU table slot: whether a STAB of its kernel has written it, and its record (R196, R197). -/
structure SfuTable where
  loaded : Bool
  mode   : Nat
  oor    : Nat
  lo     : Nat
  w      : Nat
  knots  : List Nat
  deriving DecidableEq, Repr

/-- A ring of cistern slots (R163, R271, R277): base and pitch in the kernel's allocation, one state per slot
(0 owned by the producer of a read ring or the kernel of a write ring, 1 flag set, 2 released and on its way
back), the kernel's and the producer's current slot, and the slot format. -/
structure Ring where
  base  : Nat
  pitch : Nat
  sl    : List Nat
  kslot : Nat
  pslot : Nat
  fmt   : Nat
  outl  : Bool
  esc   : Nat
  rows  : Nat
  cols  : Nat
  deriving DecidableEq, Repr

/-- Response bytes of a stream that wait for the bytes before them: the plane and its byte position. -/
structure Staged where
  plane : Nat
  pos   : Nat
  data  : List Byte
  deriving DecidableEq, Repr

/-- A flume channel (R258 to R299): its state, the descriptor it was configured with, the overrides of its
stream, its ring, and how far the stream has been requested (per plane, in bytes), staged and delivered. -/
structure Chan where
  st       : Nat
  desc     : List Byte
  base     : Nat
  count    : Nat
  bound0   : Nat
  ring     : Ring
  cur      : List Nat
  stage    : List Staged
  commit   : Nat
  escUsed  : List Nat
  drops    : Bool
  stopping : Bool
  done     : List Byte
  deriving DecidableEq, Repr

/-- What a translation yields (R351 to R353, R380): KIND 0 none yet, 3 a DPA, 4 a host address and its PCIe port, 5 a
peer's DVA with PEER and PORTS; the page's default hint and its R and W bits. -/
structure Leaf where
  kind  : Nat
  addr  : Nat
  port  : Nat
  ports : Nat
  hint  : Nat
  r     : Bool
  w     : Bool
  deriving DecidableEq, Repr

/-- A request in flight on a tag (R283, R284): the channel and plane it serves, the plane position and length in
bytes, its device address, its translated target (kind 0 while the walk is due, otherwise the leaf's KIND of R351, with
the DPA, host or peer address, the port, peer and port mask), its hints, the issue time, and the answer once one has
come: 0 data, 1 poison, 2 denied, 3 denied by a frozen master, 4 a translation fault. -/
structure Flight where
  tag    : Nat
  chan   : Nat
  plane  : Nat
  pos    : Nat
  len    : Nat
  write  : Bool
  addr   : Nat
  leaf   : Leaf
  hint   : Nat
  data   : List Byte
  t0     : Nat
  ans    : Option (Nat × List Byte)
  deriving DecidableEq, Repr

/-- A crumb entry (R287): 0 free, 1 waiting for its grant, 2 issued; its place in issue order, direction, device address and translated target,
cistern offset, length, data, and the answer once one has come. -/
structure Crumb where
  st     : Nat
  seq    : Nat
  write  : Bool
  addr   : Nat
  leaf   : Leaf
  cis    : Nat
  len    : Nat
  hint   : Nat
  data   : List Byte
  t0     : Nat
  ans    : Option (Nat × List Byte)
  deriving DecidableEq, Repr

/-- A cached translation of a tile (R359): the address space and selector value it was made under, its first page and
the pages it spans, and its leaf. -/
structure TlbE where
  as   : Nat
  sel  : Nat
  vpn  : Nat
  span : Nat
  leaf : Leaf
  deriving DecidableEq, Repr

/-- The kernel that runs on a tile (R126 to R130): its launch, context and handle, when it started, whether it
has ended or is draining, its own status and detail, the exception status bits set while it ran, the ports to which it
wrote host memory (R559), whether it completed an instruction that forbids a restart (R687), the selector value of its
launch (R357), and the journal mode and step of its launch (R473). -/
structure Run where
  launch : Nat
  ctx    : Nat
  handle : Nat
  t0     : Nat
  ended  : Bool
  status : Nat
  detail : Nat
  exc    : Nat
  ports  : Nat
  effects : Bool
  sel    : Nat
  jmode  : Nat
  jstep  : Nat
  deriving DecidableEq, Repr

/-- A context switch in progress on a tile (R133): the command it belongs to, the new context, and the step
reached (3 waiting for the acknowledgement of tidy core 0, 4 restoring), and when the wait began. -/
structure Switch where
  cmd  : Nat
  dest : Nat
  step : Nat
  t0   : Nat
  deriving DecidableEq, Repr

/-- A sluice slot of a tile (R396 to R419). -/
structure SlcSlot where
  state  : Nat
  tag    : Nat
  ring   : Ring
  status : Nat
  record : List Byte
  deriving DecidableEq, Repr

/-- The inbound and the outbound mailbox of a context and number (R561 to R564): the bytes written since the last commit,
the messages waiting, COMMITTED and TAKEN; the messages accepted and not yet delivered, and how many were sent,
delivered and consumed. -/
structure Mailbox where
  buf       : Sparse Byte
  msgs      : List (List Byte)
  committed : Nat
  taken     : Nat
  outbox    : List (List Byte)
  sent      : Nat
  delivered : Nat
  consumed  : Nat
  deriving DecidableEq, Repr

/-- One exposed tile (R19, R75 to R136): its registers by offset (R740), contexts, the register files kept once
per tile (R79), cistern bytes, poisoned and single-bit-faulty words (R307, R308), per-line error counts and
scrub pointers (R310, R311), code store, SFU tables, flume, sluice and sprinkle slots, unit queues, tidy-core
state (R111 to R114), and the running kernel. -/
structure Tile where
  regs    : Sparse W64
  ctxs    : Sparse Ctx
  v       : Sparse W32
  acc     : Sparse W32
  st      : Sparse W64
  cis     : Sparse Byte
  bad     : Sparse Bool
  soft    : Sparse Bool
  lineCe  : Sparse Nat
  scrub   : Sparse Nat
  code    : Sparse Byte
  sfu     : Sparse SfuTable
  chans   : Sparse Chan
  flights : List Flight
  crumbs  : Sparse Crumb
  slc     : Sparse SlcSlot
  queues  : Sparse (List QEntry)
  issued  : Nat
  post    : List (List W64)
  inbox   : Sparse (List W64)
  latch   : Sparse W64
  scratch : Sparse Byte
  act     : Option Nat
  switch  : Option Switch
  run     : Option Run
  aborting : Bool
  wraps   : Sparse Nat
  mbx     : Sparse Mailbox
  tlb     : List TlbE
  free    : Nat
  deriving DecidableEq, Repr
/-- A line of the memory-side cache (R313, R314): sector masks of valid, dirty, poisoned, correctable and
uncorrectable data, its 256 bytes, whether it holds keep data, the partition that allocated it, its way, and when it
was last used. -/
structure MscLine where
  valid  : Nat
  dirty  : Nat
  poison : Nat
  ce     : Nat
  ue     : Nat
  data   : List Byte
  keep   : Bool
  part   : Nat
  way    : Nat
  used   : Nat
  deriving DecidableEq, Repr

/-- The page-state entry of a frame (R370). -/
structure Frame where
  dirty  : Nat
  mstale : Nat
  state  : Nat
  pin    : Bool
  mirror : Bool
  mcopy  : Bool
  shared : Bool
  fwd    : Nat
  mframe : Nat
  deriving DecidableEq, Repr

/-- A request that waits at its hub (R286, R336, R375, R465): 0 for a weir, 1 for a frame that is moving, 2 for a
sector that a snapshot has not read. -/
structure Waiter where
  why  : Nat
  req  : HubReq
  since : Nat
  deriving DecidableEq, Repr

/-- A running MIG_MOVE (R375). -/
structure Move where
  queue : Nat
  seqno : Nat
  part  : Nat
  src   : Nat
  dst   : Nat
  ptes  : List Nat
  deriving DecidableEq, Repr

/-- A command that a queue has accepted: its sequence number and its 64 bytes. -/
structure QCmd where
  seqno : Nat
  bytes : List Byte
  deriving DecidableEq, Repr

/-- A command queue beyond its registers (R544 to R550): the accepted commands that have not begun, the records owed in
command order, each written once it and those before it are there, the records no interrupt has reported, when the first
of them was written, and the receive entries posted (R572). -/
structure CmdQ where
  cmds  : List QCmd
  owed  : List (Nat × Option (List Byte))
  unrep : Nat
  since : Nat
  posted : List QCmd
  deriving DecidableEq, Repr

/-- What the device sends to the outside: to a PCIe port (a write or read of host memory, a message-signalled
interrupt, a completion), a leat port (a flit, or a TRAIN_REQ or TRAIN_ACK, which may also go in training frames), the ditchrider (a management message), the regulator of a compute die's rail, an Ethernet port (a frame, or a RoCE v2 packet to a queue pair of a DGID), a hub (an answer to a request that
came in as a command), a tidy core (what a load of it gets, or its access fault), the ditchrider, or a sideband master (the result of its last
request, or the address that answers an alert), a land, or an interrupt to the ditchrider. -/
inductive Out where
  | hostWrite (port fn addr : Nat) (data : List Byte)
  | hostRead (port fn addr len tag : Nat)
  | msix (port fn vector : Nat)
  | completion (port status : Nat) (data : List Byte)
  | leat (port : Nat) (flit : List Byte)
  | train (port kind width reason good : Nat)
  | mgt (port : Nat) (msg : List Byte)
  | rail (die mhz : Nat)
  | eth (port : Nat) (frame : List Byte)
  | roce (port : Nat) (gid : List Byte) (qp op psn : Nat) (data : List Byte)
  | answer (who : Master) (status : Nat) (data : List Byte)
  | tidy (t core : Nat) (fault : Bool) (data : List Byte)
  | pin (name level : Nat)
  | sideband (status value : Nat)
  | alertAddr (a : Nat)
  | fire (what arg : Nat)
  deriving DecidableEq, Repr

/-- A LAUNCH that the command arbiter holds, from its acceptance to its completion (R122 to R130): `phase` is 0 while it
waits, 1 while it runs, 2 while its flush reads are out (R559), 3 while it is to start again (R689); `sels` are the
selector values sampled at its start (R357), by tile. -/
structure Launch where
  id      : Nat
  queue   : Nat
  seqno   : Nat
  part    : Nat
  ctx     : Nat
  handle  : Nat
  mask    : Nat
  args    : Nat
  tag     : Nat
  timeout : Nat
  phase   : Nat
  sels    : List (Nat × Nat)
  flush   : List Nat
  t0      : Nat
  deriving DecidableEq, Repr

/-- A CTX_SWITCH that the command arbiter holds: the tiles on which it has not yet taken effect (R132). -/
structure CtxCmd where
  id    : Nat
  queue : Nat
  seqno : Nat
  ctx   : Nat
  todo  : Nat
  deriving DecidableEq, Repr

/-- A KV pool beyond its registers (R235 to R243): the allocated pages, and per sequence STATE, MAXPG, PT_BASE, RESERVED,
IN_USE and TOKENS. -/
structure KvSeq where
  isOpen : Bool
  maxpg  : Nat
  ptBase : Nat
  reserved : Nat
  inUse  : Nat
  tokens : Nat
  deriving DecidableEq, Repr

/-- A KV pool's page states and sequences. -/
structure KvPool where
  used : Sparse Bool
  seqs : Sparse KvSeq
  deriving DecidableEq, Repr

/-- A change-log record (R699). -/
structure LogRec where
  time   : Nat
  type   : Nat
  origin : Nat
  part   : Nat
  port   : Nat
  id     : Nat
  info   : Nat
  seq    : Nat
  target : Nat
  value  : Nat
  deriving DecidableEq, Repr

/-- A soft-defect entry (R644). -/
structure Defect where
  kind   : Nat
  st     : Nat
  unit   : Nat
  loc    : Nat
  events : Nat
  bootno : Nat
  deriving DecidableEq, Repr

/-- A row-remap entry of a hub (R650, R747). -/
structure Remap where
  hub    : Nat
  stack  : Nat
  pch    : Nat
  bank   : Nat
  row    : Nat
  target : Nat
  deriving DecidableEq, Repr

/-- A PUBLISH that runs or is pending (R456, R457): its address space, selector, value and version, its command, its
extents as (first DPA, count), whether it runs, and whether it has flipped its selector. -/
structure Pub where
  as      : Nat
  sel     : Nat
  value   : Nat
  version : Nat
  queue   : Nat
  seqno   : Nat
  extents : List (Nat × Nat)
  running : Bool
  flipped : Bool
  deriving DecidableEq, Repr

/-- A running snapshot or restore of a partition (R462 to R470): its number, command, ports, peer, identity and step, the
image address, the sector map's address, the set as (frame, image frame) in set order, whether the image header of a
restore has been accepted, per frame the sectors that belong to it and those not yet read, the peer addresses of the
sectors sent or requested and not yet answered, how many were answered, and the status it ends with, if it failed. -/
structure Snap where
  part    : Nat
  num     : Nat
  queue   : Nat
  seqno   : Nat
  restore : Bool
  ports   : Nat
  peer    : Nat
  id      : Nat
  step    : Nat
  image   : Nat
  mapOut  : Nat
  set     : List (Nat × Nat)
  begun   : Bool
  cut     : Sparse Nat
  todo    : Sparse Nat
  flying  : List Nat
  acked   : Nat
  err     : Nat
  deriving DecidableEq, Repr

/-- A read of host memory that has left on a PCIe port and has no completion yet (R543, R553 to R558): its tag, the
function whose requester ID it carries, the host address and length, and whom it serves. -/
structure HostReq where
  tag  : Nat
  port : Nat
  fn   : Nat
  addr : Nat
  len  : Nat
  who  : Master
  t0   : Nat
  deriving DecidableEq, Repr

/-- A request for a peer package that has no response yet (R494 to R500): when it was handed to its port, or sent. -/
structure PeerReq where
  port  : Nat
  tag   : Nat
  write : Bool
  dest  : Nat
  addr  : Nat
  len   : Nat
  who   : Master
  t0    : Nat
  sent  : Bool
  deriving DecidableEq, Repr


/-- A stage of a communicator above the package (R387, R388): ALG (0xFF when it is absent), PORTS, NRANKS, RANK and the
member table. -/
structure SlcStage where
  alg     : Nat
  ports   : Nat
  n       : Nat
  rank    : Nat
  members : List Nat
  deriving DecidableEq, Repr

/-- A communicator in service, as it was read when EN was set (R386): TILE_MASK, and the tray, rack and hall stages. -/
structure SlcComm where
  mask   : Nat
  stages : List SlcStage
  deriving DecidableEq, Repr

/-- What a package holds of a unit of an operation (R401 to R408): an fp32 partial that it formed after a stage (`own`),
a packet it accepted on a stage, or, with kind 2, a result or a gathered unit, `stage` being 4 when it was formed here.
`src` is the sender's global rank, `hdr` the bucket header, whose COUNT an own partial keeps too; `digest` the packet's DIGEST. -/
structure SlcTerm where
  kind    : Nat
  stage   : Nat
  hop     : Nat
  src     : Nat
  unit    : Nat
  off     : Nat
  contrib : Nat
  hdr     : Nat
  own     : Bool
  digest  : Nat
  data    : List Byte
  deriving DecidableEq, Repr

/-- A packet that a package sent, by stage, hop, unit, row offset and the rank of the stage's member it went to. -/
structure SlcSent where
  kind  : Nat
  stage : Nat
  hop   : Nat
  unit  : Nat
  off   : Nat
  dest  : Nat
  acked : Bool
  deriving DecidableEq, Repr

/-- A post of an operation by a tile or a command queue (R396, R399): who posted it, its slot and the slot's number in
its kernel, the context, effective selector, allocation and launch of the kernel, the journal mode and step, the command's
number for a queue, its descriptor, when it was accepted, whether it has completed, whether it has stopped and why
(STATUS, DETAIL), its FLAGS, the units it has delivered, whether its own contribution has been taken, the ring slots
filled, since when it has waited for one, and whether a launch that R24 restarted may attach to it. -/
structure SlcPost where
  who    : Master
  slot   : Nat
  ctx    : Nat
  sel    : Nat
  cisOff : Nat
  launch : Nat
  handle : Nat
  jmode  : Nat
  jstep  : Nat
  seqno  : Nat
  desc   : List Byte
  t0     : Nat
  ended  : Bool
  status : Nat
  detail : Nat
  flags  : Nat
  got    : List Nat
  taken  : Bool
  filled : Nat
  since  : Option Nat
  kept   : Bool
  deriving DecidableEq, Repr

/-- An operation at this package (R400): COMM, TAG and STEP, its posts, its descriptor once it is known, what it holds
and has sent, and whether a mismatch has stopped it. -/
structure SlcOp where
  comm  : Nat
  tag   : Nat
  step  : Nat
  desc  : List Byte
  posts : List SlcPost
  terms : List SlcTerm
  sent  : List SlcSent
  stopped : Bool
  added : Nat
  late  : Nat
  deriving DecidableEq, Repr

/-- A step of a COMM and TAG under a deadline (R444 to R447): at the decider the packages that joined, when the first
join came, its deadline, the journal of the launch that posted it and whether the step is closed; at every package the
parts of the decision, the present packages once it is known, and when it came. -/
structure SlcLate where
  comm   : Nat
  tag    : Nat
  step   : Nat
  joins  : List Nat
  first  : Nat
  limit  : Nat
  jmode  : Nat
  jstep  : Nat
  closed : Bool
  parts  : List Nat
  flags  : List Nat
  decided : Bool
  when_  : Nat
  deriving DecidableEq, Repr

/-- A sprinkle post (R422 to R427): tile, slot, epoch, when, where its result record goes, its launch's partition
journal, its values, whether its record has been written, and whether a WAIT has taken it. -/
structure SpkPost where
  tile  : Nat
  t0    : Nat
  dst   : Nat
  jmode : Nat
  jstep : Nat
  vals  : List Nat
  wrote : Bool
  waited : Bool
  deriving DecidableEq, Repr

/-- An epoch of a communicator and sprinkle slot at this package (R424 to R427): stage mask, OP and COUNT, the posts, the
values received from members of the stages above (stage, rank, PRESENT, values), whether the package has sent its own
up, the result once known (STATUS, PRESENT, values), and whether a timeout closed it. -/
structure SpkOp where
  comm   : Nat
  slot   : Nat
  epoch  : Nat
  stages : Nat
  op     : Nat
  count  : Nat
  posts  : List SpkPost
  recv   : List (Nat × Nat × Nat × List Nat)
  up     : Nat
  result : Option (Nat × Nat × List Nat)
  closed : Bool
  deriving DecidableEq, Repr

/-- A message of a queue pair that has not been acknowledged (R569, R572): its first PSN, packets, TYPE, data, remote
address, key, length and immediate, the send-queue command it belongs to (queue and number), if any, and for a READ the
local address and the bytes received. -/
structure QpMsg where
  psn   : Nat
  pkts  : Nat
  type  : Nat
  data  : List Byte
  raddr : Nat
  rkey  : Nat
  len   : Nat
  imm   : Nat
  cmd   : Option (Nat × Nat)
  tag   : Nat
  laddr : Nat
  got   : Nat
  deriving DecidableEq, Repr

/-- A queue pair (R570, R571): the fields of RDMA_QP_SET, its partition and address space, the next PSN to send and the
next expected, the messages not acknowledged, the retries left, since when it waits, whether it waits after an RNR NAK, and
the messages it has completed as a responder. -/
structure Qp where
  state : Nat
  port  : Nat
  mtu   : Nat
  sq    : Nat
  rq    : Nat
  dqpn  : Nat
  dgid  : List Byte
  dmac  : List Byte
  vlan  : Nat
  dscp  : Nat
  prio  : Nat
  retry : Nat
  timeout : Nat
  maxrd : Nat
  part  : Nat
  as    : Nat
  fn    : Nat
  psn   : Nat
  epsn  : Nat
  out   : List QpMsg
  left  : Nat
  since : Nat
  rnr   : Bool
  msn   : Nat
  deriving DecidableEq, Repr

/-- A memory region (R570, R571): its key's ACCESS, DVA range, partition and address space. -/
structure Mr where
  access : Nat
  base   : Nat
  len    : Nat
  part   : Nat
  as     : Nat
  deriving DecidableEq, Repr

/-- One virtual channel of a leat port (R502 to R504): the partner's buffer size, the credits held, the last CRED received,
the slots freed here, the received part of a message that has not ended, the messages in the receive buffer, and the rest
of a message that is being sent. -/
structure LVc where
  psize : Nat
  held  : Nat
  last  : Nat
  freed : Nat
  part  : List Byte
  ready : List (List Byte)
  sending : List Byte
  deriving DecidableEq, Repr

/-- A DATA flit in the replay buffer (R506): its number, the channel whose message slot 0 continues, its slots, how many
slots of each channel it carries, the channels of the messages that end in it, and how often it was sent. -/
structure LFlit where
  seq    : Nat
  cont   : Option Nat
  slots  : List Byte
  counts : List Nat
  ends   : List Nat
  sent   : Nat
  deriving DecidableEq, Repr

/-- A lane swap of a port (R521): OLD, NEW and AT, whether the degraded lane is one of this end's receive lanes, and
whether both ends have agreed. -/
structure LSwap where
  old   : Nat
  new   : Nat
  frame : Nat
  rx    : Bool
  agreed : Bool
  deriving DecidableEq, Repr

/-- A leat port beyond its configuration (R481 to R536): STATE, the width coded as MAXW, its active receive lanes and the
partner's, the failed receive lanes, the lanes that both ends qualified once that is known, NEXT_SEQ and EXPECT, the
replay buffer, the channels, which of VC0 and VC2 is next, which channel the next flit reports, what is known of the
partner (DEVID, NODE, PORT, switch, MAXW, IDENT received, buffer sizes of this training), whether this end led, the width
it has requested and the width agreed, whether the partner's CREDIT_SYNC has come, a swap, since when it asks for a
replay, when OLDEST advanced, when the last valid flit came, when EN was cleared, when it failed, when the last error
window ended and when the next flit is due (in tenths of a nanosecond), and per lane the corrected symbols of the window
and the windows in excess, with the window's uncorrectable codewords. -/
structure LPort where
  st     : Nat
  width  : Nat
  lact   : Nat
  tact   : Nat
  lfail  : Nat
  good   : Option (Nat × Nat)
  next   : Nat
  expect : Nat
  out    : List LFlit
  vcs    : Sparse LVc
  alt    : Bool
  rot    : Nat
  pid    : Nat
  pnode  : Nat
  pport  : Nat
  pswitch : Bool
  pmaxw  : Nat
  ident  : Bool
  sizes  : List Nat
  leader : Bool
  req    : Option Nat
  agreed : Nat
  synced : Bool
  swap   : Option LSwap
  replay : Option Nat
  lastAdv  : Nat
  lastFlit : Nat
  drainT : Nat
  failT  : Nat
  winT   : Nat
  txDue  : Nat
  corr   : List Nat
  hot    : List Nat
  uncorr : Nat
  deriving DecidableEq, Repr

/-- A slice-ring entry (R610): OFFSET, BYTES, FRAME and FLAGS. -/
structure Slice where
  off   : Nat
  bytes : Nat
  frame : Nat
  flags : Nat
  deriving DecidableEq, Repr

/-- A media session (R591 to R616): its number, ring, die and engine, the job that opened it, whether it has failed, the
output frames counted since its open, the frames that are ready and not yet written, the frames coded, the receiver
buffer's fullness in bits times FPS_NUM, the slice entries written, and the FALLBACK entry that waits with the job it
belongs to. -/
structure Sess where
  num    : Nat
  ring   : Nat
  die    : Nat
  eng    : Nat
  desc   : List Byte
  failed : Bool
  shown  : Nat
  ready  : List MedFrame
  coded  : Nat
  full   : Nat
  seq    : Nat
  fall   : Option (Nat × Slice)
  deriving DecidableEq, Repr

/-- What a media job reports (R588, R618): STATUS, the record's DETAIL, and the result record's fields. -/
structure MedRes where
  status : Nat
  detail : Nat
  flags  : Nat
  units  : Nat
  frames : Nat
  bytes  : Nat
  first  : Nat
  last   : Nat
  conc   : Nat
  full   : Nat
  deriving DecidableEq, Repr

/-- A media job that a ring has accepted and that has no record yet (R588): its ring, number and bytes, when it was
accepted, and its result once it has run. -/
structure MedJob where
  ring  : Nat
  idx   : Nat
  bytes : List Byte
  t0    : Nat
  res   : Option MedRes
  deriving DecidableEq, Repr

/-- What the ditchrider found and counts since the last start (R623 to R663): the PCIe ports that trained, the dies and
compute-die rails that do not work, the bad tile sites, the capability block's GEN, the frames lost under R650, the
declared board channels and those lost since, the versions and ABI levels of image types 1 to 4, and the records of the licence area valid and
rejected and the valid features. -/
structure Boot where
  ports    : Nat
  deadDies : Nat
  vrDead   : Nat
  badSites : Nat
  gen      : Nat
  lost     : Nat
  declared : Nat
  lostCh   : Nat
  fwVer    : List Nat
  fwAbi    : List Nat
  licValid : Nat
  licBad   : Nat
  licFeat  : Nat
  deriving DecidableEq, Repr

/-- The flash update unit (R632 to R634): the operation that runs with its LEN, the LEN of an open BEGIN, the bytes
received, PENDING, and CODE. -/
structure FwUnit where
  busy    : Option (Nat × Nat)
  staging : Option Nat
  got     : Nat
  pend    : Bool
  code    : Nat
  deriving DecidableEq, Repr

/-- Power limiting and temperature beyond the THM registers (R721 to R731): F_pwr, F_brake,
F_clamp (0: none), F_prot, F_temp by compute die, the last values of NOW, newest first, the consecutive periods
with AVG at or below LIMIT_W, since when every die and stack has been within the limits of R730, and the monitors'
calibrations done. -/
structure Power where
  fpwr  : Nat
  brake : Bool
  clamp : Nat
  prot  : Bool
  ftemp : Sparse Nat
  nows  : List Nat
  calm  : Nat
  cool  : Option Nat
  cals  : Nat
  deriving DecidableEq, Repr

/-- The control lands (R714): standby power, PWRGD, COLD_RST_N asserted, FAULT_N and THERMTRIP_N asserted, the sampled
SMB_ADDR straps, and the second of reference time of the last PPS pulse. -/
structure Pins where
  standby : Bool
  pwrgd   : Bool
  cold    : Bool
  fault   : Bool
  trip    : Bool
  smb     : Nat
  pps     : Nat
  deriving DecidableEq, Repr

/-- The state of the NT4: the commands that wait, the registers outside the tiles by offset of the register view and the
shadows of write-only registers, the tiles, device time, the command arbiter, the package as fused and as qualified,
memory by DPA with the condition of its 64-byte units, the memory-side cache, the page states, the requests that wait
at hubs, migrations and snapshots, KV pools, command queues, the change log, and what has been sent to the outside. -/
structure State where
  pending : List Instr
  regs    : Sparse W64
  shadow  : Sparse W64
  tiles   : Sparse Tile
  time    : Nat
  launches : List Launch
  switches : List CtxCmd
  nextId  : Nat
  mem     : Sparse Byte
  units   : Sparse Nat
  msc     : Sparse MscLine
  mclk    : Nat
  busDir  : Sparse Bool
  frames  : Sparse Frame
  waits   : List Waiter
  moves   : List Move
  remaps  : List Remap
  defects : List Defect
  pools   : Sparse KvPool
  queues  : Sparse CmdQ
  log     : Sparse LogRec
  wraps   : Sparse Nat
  telem   : Sparse Nat
  outs    : List Out
  free    : Nat
  variant : Nat
  uid     : Nat
  fuses   : List Nat
  licences : Nat
  excluded : Nat
  boards  : Nat
  boardGib : Nat
  defDropped : Nat
  active  : Sparse W64
  snaps   : List Snap
  jseq    : Sparse Nat
  hostReqs : List HostReq
  peerReqs : List PeerReq
  leaQ    : Sparse (List (List Byte))
  holders : Sparse Nat
  offline : Nat
  boardMts : Nat
  comms   : Sparse SlcComm
  lateTab : Sparse (List (Nat × Nat × Nat))
  ops     : List SlcOp
  lates   : List SlcLate
  spkOps  : List SpkOp
  spkEpoch : Sparse Nat
  qps     : Sparse Qp
  udAgain : List (Nat × Nat × Nat × List Byte)
  lateFmt : Sparse Nat
  pubs    : List Pub
  snapEnd : Sparse Nat
  snapWaits : List (Nat × Nat × Nat)
  mrs     : Sparse (Option Mr)
  pcieDown : Nat
  ptpGood : Nat
  lports  : Sparse LPort
  flash   : Sparse Byte
  defPrev : List Defect
  defSeq  : Nat
  events  : List LogRec
  boot    : Boot
  revoked : Nat
  fw      : FwUnit
  power   : Power
  pins    : Pins
  sb      : Nat × Nat
  grants  : List (Nat × Nat)
  sessions : List Sess
  jobs    : List MedJob
  medDead : Nat
  deriving DecidableEq, Repr

/-- Why the machine stops with a fault: it never does. Every error that the spec describes is an effect: a status code, a
completion record, a poisoned value, a freeze, a counter or a discarded write. -/
inductive Fault where
  deriving DecidableEq, Repr

/-- Why a command has no meaning here. -/
inductive Refusal where
  /-- The command has not been given its meaning yet: raised by `exec`. Safe. -/
  | notModelled (mnemonic : String)
  /-- An instruction row whose word is not a defined encoding (R83, R89): the loader refuses such code, and the
  spec gives it no effect. Raised by the instruction rows. Safe. -/
  | undefinedEncoding
  deriving DecidableEq, Repr


def dW64 : Nat → W64 := fun _ => 0
def dW32 : Nat → W32 := fun _ => 0
def dByte : Nat → Byte := fun _ => 0
def dBool : Nat → Bool := fun _ => false
def dNat : Nat → Nat := fun _ => 0
def dPred : Nat → Pred := fun _ => 0
def dTDesc : Nat → TDesc := fun _ => 0

def Ring.none : Ring :=
  { base := 0, pitch := 0, sl := [], kslot := 0, pslot := 0, fmt := 0, outl := false, esc := 0, rows := 0,
    cols := 0 }

def OsmBlk.none : OsmBlk :=
  { isOpen := false, mode := false, rerun := false, due := false, dirty := false, skipped := 0, marked := [],
    stReg := 0, rows := [], started := 0, pc := 0, loops := [], s := [], a := [], p := [], td := [] }

/-- A context at cold reset; LEN registers hold their Reset value (R155). -/
def Ctx.reset : Ctx :=
  { s := [], a := [], p := [], td := [], pc := 0, loops := [], mePad := 0, lenM := 0x7FFFFFFF,
    lenN := 0x7FFFFFFF, lenK := 0x7FFFFFFF, osm := [], blk := .none, poison := false, saved := false, flmSaved := [],
    kernels := [] }

def SfuTable.none : SfuTable := { loaded := false, mode := 0, oor := 0, lo := 0, w := 0, knots := [] }

def Chan.none : Chan :=
  { st := 0, desc := [], base := 0, count := 0, bound0 := 0, ring := .none, cur := [], stage := [],
    commit := 0, escUsed := [], drops := false, stopping := false, done := [] }

def Leaf.none : Leaf := { kind := 0, addr := 0, port := 0, ports := 0, hint := 0, r := false, w := false }

def Crumb.none : Crumb :=
  { st := 0, seq := 0, write := false, addr := 0, leaf := .none, cis := 0, len := 0, hint := 0, data := [], t0 := 0,
    ans := Option.none }

def dCtx : Nat → Ctx := fun _ => .reset
def dSfu : Nat → SfuTable := fun _ => .none
def dChan : Nat → Chan := fun _ => .none
def dCrumb : Nat → Crumb := fun _ => .none
def dQueue : Nat → List QEntry := fun _ => []
def dInbox : Nat → List W64 := fun _ => []

def SlcSlot.none : SlcSlot := { state := 0, tag := 0, ring := .none, status := 0, record := [] }
def dSlc : Nat → SlcSlot := fun _ => .none

/-- The launch values of the system registers 0x40 to 0x57 (R210), by index from 0x40. -/
def dOsm : Nat → W64 := fun i => if i = 0 then 0x7F800000 else if i = 3 then 0x3F317218 else 0

/-- A tile at cold reset. -/
def Tile.reset : Tile :=
  { regs := [], ctxs := [], v := [], acc := [], st := [], cis := [], bad := [], soft := [], lineCe := [],
    scrub := [], code := [], sfu := [], chans := [], flights := [], crumbs := [], slc := [],
    queues := [], issued := 0, post := [], inbox := [], latch := [], scratch := [], act := none,
    switch := none, run := none, aborting := false, wraps := [], mbx := [],
    tlb := [], free := 0 }

def MscLine.none : MscLine :=
  { valid := 0, dirty := 0, poison := 0, ce := 0, ue := 0, data := [], keep := false, part := 0, way := 0, used := 0 }
def dMsc : Nat → MscLine := fun _ => .none
def Frame.zero : Frame :=
  { dirty := 0, mstale := 0, state := 0, pin := false, mirror := false, mcopy := false, shared := false, fwd := 0,
    mframe := 0 }
def dFrame : Nat → Frame := fun _ => .zero
def KvSeq.none : KvSeq := { isOpen := false, maxpg := 0, ptBase := 0, reserved := 0, inUse := 0, tokens := 0 }
def dKvSeq : Nat → KvSeq := fun _ => .none
def dKvPool : Nat → KvPool := fun _ => { used := [], seqs := [] }
def dCmdQ : Nat → CmdQ := fun _ => { cmds := [], owed := [], unrep := 0, since := 0, posted := [] }
def LogRec.none : LogRec :=
  { time := 0, type := 0, origin := 0, part := 0, port := 0, id := 0, info := 0, seq := 0, target := 0, value := 0 }
def dLog : Nat → LogRec := fun _ => .none
def dTile : Nat → Tile := fun _ => .reset

def Qp.none : Qp :=
  { state := 0, port := 0, mtu := 0, sq := 0, rq := 0, dqpn := 0, dgid := [], dmac := [], vlan := 0, dscp := 0, prio := 0
    retry := 0, timeout := 0, maxrd := 0, part := 0, as := 0, fn := 0, psn := 0, epsn := 0, out := [], left := 0, since := 0
    rnr := false, msn := 0 }
def dQp : Nat → Qp := fun _ => .none
def Mailbox.none : Mailbox :=
  { buf := [], msgs := [], committed := 0, taken := 0, outbox := [], sent := 0, delivered := 0, consumed := 0 }
def dMbx : Nat → Mailbox := fun _ => .none
def dMr : Nat → Option Mr := fun _ => Option.none

def LVc.none : LVc := { psize := 0, held := 0, last := 0, freed := 0, part := [], ready := [], sending := [] }
def dLVc : Nat → LVc := fun _ => .none
def LPort.none : LPort :=
  { st := 0, width := 0, lact := 0, tact := 0, lfail := 0, good := Option.none, next := 0, expect := 0, out := [], vcs := []
    alt := false, rot := 0, pid := 0, pnode := 0, pport := 0, pswitch := false, pmaxw := 0, ident := false, sizes := []
    leader := false, req := Option.none, agreed := 0, synced := false, swap := Option.none, replay := Option.none
    lastAdv := 0, lastFlit := 0, drainT := 0, failT := 0, winT := 0, txDue := 0, corr := [0, 0, 0, 0, 0]
    hot := [0, 0, 0, 0, 0], uncorr := 0 }
def dLPort : Nat → LPort := fun _ => .none
/-- An erased byte of flash reads 0xFF. -/
def dFlash : Nat → Byte := fun _ => 0xFF
/-- The ceiling of a compute die (R729). -/
def dCeil : Nat → Nat := fun _ => 1500

/-- The lands of the package at the assertion of cold reset, with standby and main power good. -/
def Pins.reset : Pins :=
  { standby := true, pwrgd := true, cold := true, fault := false, trip := false, smb := 0, pps := 0 }

/-- What the ditchrider knows before a start. -/
def Boot.none : Boot :=
  { ports := 0, deadDies := 0, vrDead := 0, badSites := 0, gen := 0, lost := 0, declared := 0, lostCh := 0, fwVer := [], fwAbi := []
    licValid := 0, licBad := 0, licFeat := 0 }
/-- The flash update unit, with nothing open. -/
def FwUnit.none : FwUnit := { busy := Option.none, staging := Option.none, got := 0, pend := false, code := 0 }
/-- No ceiling below 1,500 MHz. -/
def Power.none : Power :=
  { fpwr := 1500, brake := false, clamp := 0, prot := false, ftemp := [], nows := [], calm := 0, cool := Option.none, cals := 0 }

/-- The NT4 at the assertion of its cold reset, with standby and main power good: every register at its Reset value,
memory with nothing listed, nothing waiting. The part is an NT4-A whose fuses give every compute die four slot holders
and a spare; its boot flash is erased. -/
def State.reset : State :=
  { pending := [], regs := [], shadow := [], tiles := [], time := 0, launches := [], switches := [], nextId := 0, mem := []
    units := [], msc := [], mclk := 0, busDir := [], frames := [], waits := [], moves := [], remaps := [], defects := []
    pools := [], queues := [], log := [], wraps := [], telem := [], outs := [], free := 0, variant := 1, uid := 0
    fuses := List.replicate 16 0x43210, licences := 0, excluded := 0, boards := 0, boardGib := 0, defDropped := 0
    active := [], snaps := [], jseq := [], hostReqs := [], peerReqs := [], leaQ := [], holders := [], offline := 0
    boardMts := 0, comms := [], lateTab := [], ops := [], lates := [], spkOps := [], spkEpoch := [], qps := [], udAgain := []
    lateFmt := [], pubs := [], snapEnd := [], snapWaits := [], mrs := [], pcieDown := 0, ptpGood := 0, lports := [], flash := []
    defPrev := [], defSeq := 0, events := [], boot := .none, revoked := 0, fw := .none, power := .none, pins := .reset
    sb := (0, 0), grants := [], sessions := [], jobs := [], medDead := 0 }

/-- The answer of a meaning. -/
abbrev Res := Host.Outcome State Fault Refusal

end Sys2Proof.Machine
end

