-- ==== Sys2Proof/Machine/Flags.lean ====
section
/-! DEFINITION. The exception counters and status bits (R69 to R73) and the performance counters (R166): every flag
and count that an instruction sets. -/

namespace Sys2Proof.Machine

/-- The events of R70 that one instruction causes, by counter. -/
structure Exc where
  blk     : Nat := 0
  outl    : Nat := 0
  ufl     : Nat := 0
  sat     : Nat := 0
  esc     : Nat := 0
  escmiss : Nat := 0
  nan     : Nat := 0
  ovf     : Nat := 0
  meOvf   : Nat := 0
  meNan   : Nat := 0
  deriving DecidableEq, Repr

/-- No event. -/
def Exc.zero : Exc := {}

/-- The events of two parts of an instruction together. -/
def Exc.plus (a b : Exc) : Exc :=
  { blk := a.blk + b.blk, outl := a.outl + b.outl, ufl := a.ufl + b.ufl, sat := a.sat + b.sat,
    esc := a.esc + b.esc, escmiss := a.escmiss + b.escmiss, nan := a.nan + b.nan, ovf := a.ovf + b.ovf,
    meOvf := a.meOvf + b.meOvf, meNan := a.meNan + b.meNan }

/-- The events of a list of parts. -/
def Exc.sum (es : List Exc) : Exc := es.foldl Exc.plus .zero

/-- A rounded scalar result with the events of R69: `inNan` says that some input was NaN. -/
def deliver (f : FFmt) (r : Rnd) (sat : Bool) (D : Nat) (inNan : Bool) (e : Ext) : Nat × Exc :=
  match e with
  | .nan => (f.nanBits, if inNan then .zero else { nan := 1 })
  | _ =>
    let o := f.enc r sat D e
    (o.bits, { sat := b2n o.sat, ovf := b2n o.ovf })

/-- A 64-bit counter that saturates at all-ones, advanced by `n` (R70). -/
def satCount (v : W64) (n : Nat) : W64 := BitVec.ofNat 64 (min (v.toNat + n) (2 ^ 64 - 1))

/-- The bits of VU_EXC_STATUS that the events set (R73). -/
def Exc.status (e : Exc) : Nat :=
  b2n (e.sat != 0) + 2 * b2n (e.esc != 0) + 4 * b2n (e.escmiss != 0) + 8 * b2n (e.nan != 0) +
  16 * b2n (e.ovf != 0) + 32 * b2n (e.meOvf != 0) + 64 * b2n (e.meNan != 0)

/-- The counts in the order of R70's table. -/
def Exc.list (e : Exc) : List Nat :=
  [e.blk, e.outl, e.ufl, e.sat, e.esc, e.escmiss, e.nan, e.ovf, e.meOvf, e.meNan]

/-- The offset of context `c`'s first counter (R740). -/
def excBase (c : Nat) : Nat := 0x2400 + 0x100 * c
/-- The offset of context `c`'s VU_EXC_STATUS (R740). -/
def excStatusOff (c : Nat) : Nat := excBase c + 0x50

/-- A tile register's stored value. -/
def Tile.reg (tl : Tile) (off : Nat) : W64 := spGet dW64 tl.regs off
/-- A tile register's stored value replaced. -/
def Tile.setReg (tl : Tile) (off : Nat) (v : W64) : Tile := { tl with regs := spSet dW64 tl.regs off v }

/-- Counters from `off` on, 8 bytes apart, advanced by a list of counts. -/
def bumpFrom (regs : Sparse W64) (off : Nat) : List Nat → Sparse W64
  | [] => regs
  | n :: ns =>
    bumpFrom (if n = 0 then regs else spSet dW64 regs off (satCount (spGet dW64 regs off) n)) (off + 8) ns

/-- The events of an instruction of context `c` counted (R70), their status bits set (R73), and the bits kept for the
completion record of the running kernel (R129). -/
def Tile.count (tl : Tile) (c : Nat) (e : Exc) : Tile :=
  let regs := bumpFrom tl.regs (excBase c) e.list
  let st := spGet dW64 regs (excStatusOff c)
  { tl with
    regs := spSet dW64 regs (excStatusOff c) (st ||| BitVec.ofNat 64 e.status)
    run := tl.run.map fun r => { r with exc := r.exc ||| e.status } }

/-- A performance counter of R166 advanced by `n`: the 48-bit COUNT wraps and then sets OVF. -/
def perfAdd (v : W64) (n : Nat) : W64 :=
  let c := fld v.toNat 47 0 + n
  BitVec.ofNat 64 (setFld (if c < 2 ^ 48 then v.toNat else v.toNat ||| 2 ^ 63) 47 0 c)

/-- Whether advancing a performance counter by `n` wraps it. -/
def perfWraps (v : W64) (n : Nat) : Bool := decide (2 ^ 48 ≤ fld v.toNat 47 0 + n)

/-- A tile's performance counter advanced; a wrap raises the tile's performance-counter interrupt, which stays until the
ditchrider has serviced the wrap (R166). -/
def Tile.perf (tl : Tile) (off n : Nat) : Tile :=
  { tl with regs := spSet dW64 tl.regs off (perfAdd (tl.reg off) n)
            wraps := if perfWraps (tl.reg off) n then spMod dNat tl.wraps off (· + 1) else tl.wraps }

/-- Several performance counters advanced. -/
def Tile.perfs (tl : Tile) (l : List (Nat × Nat)) : Tile := l.foldl (fun t p => t.perf p.1 p.2) tl

end Sys2Proof.Machine
end

