-- ==== Sys2Proof/Machine/Ops.lean ====
section
/-! DEFINITION. The named operations over a tile's registers, cistern, rings and queues that the instruction meanings
share. -/

namespace Sys2Proof.Machine

/-- Why a part of an instruction cannot go on: the task aborts with a code and a detail, or it waits. -/
inductive Stop where
  | abort (code detail : Nat)
  | wait
  deriving DecidableEq, Repr

/-- A part of an instruction that may stop. -/
abbrev Ex (α : Type) := Except Stop α

/-- What an instruction does on its tile: it completes, it waits in its queue holding the ring slots read so far, it
starts and is outstanding until its completion comes, it leaves the program counter to itself (a branch, or a stall
of the scalar pipe), or it aborts the task (R127). -/
inductive Act where
  | done (tl : Tile)
  | wait (tl : Tile) (got : List Image)
  | started (tl : Tile) (ref : Nat)
  | stay (tl : Tile)
  | abort (tl : Tile) (code detail : Nat)
  deriving DecidableEq, Repr

/-- The running kernel as an instruction sees it: its tile number, context, resources and sample, the device
time, the start of its launch and the tile's clock. -/
structure Kx where
  t    : Nat
  c    : Nat
  k    : LKernel
  samp : Sample
  got  : List Image
  seq  : Nat
  now  : Nat
  t0   : Nat
  mhz  : Nat
  deriving DecidableEq, Repr

/-- An abort. -/
def fail {α : Type} (code : Nat) (detail : Nat := 0) : Ex α := .error (.abort code detail)
/-- An abort unless a condition holds. -/
def need (b : Bool) (code : Nat) (detail : Nat := 0) : Ex Unit := if b then .ok () else fail code detail

/-- What a tile-level computation does, from the tile before it. -/
def Act.of (tl : Tile) (r : Ex Tile) : Act :=
  match r with
  | .ok t => .done t
  | .error (.abort c d) => .abort tl c d
  | .error .wait => .wait tl []

/-! ### Registers of a context -/

/-- Context `c` of a tile. -/
def Tile.ctx (tl : Tile) (c : Nat) : Ctx := spGet dCtx tl.ctxs c
/-- Context `c` replaced. -/
def Tile.setCtx (tl : Tile) (c : Nat) (x : Ctx) : Tile := { tl with ctxs := spSet dCtx tl.ctxs c x }

/-- A scalar register; s0 reads as 0 (R79). -/
def Ctx.sGet (x : Ctx) (n : Nat) : W64 := if n = 0 then 0 else spGet dW64 x.s n
/-- A scalar register written; writes to s0 are ignored (R79). -/
def Ctx.sSet (x : Ctx) (n : Nat) (v : W64) : Ctx := if n = 0 then x else { x with s := spSet dW64 x.s n v }
/-- An address register. -/
def Ctx.aGet (x : Ctx) (n : Nat) : W64 := spGet dW64 x.a n
/-- An address register written. -/
def Ctx.aSet (x : Ctx) (n : Nat) (v : W64) : Ctx := { x with a := spSet dW64 x.a n v }
/-- A predicate register; p0 reads as all ones (R79). -/
def Ctx.pGet (x : Ctx) (n : Nat) : Pred := if n = 0 then BitVec.allOnes 256 else spGet dPred x.p n
/-- A predicate register written; writes to p0 are ignored (R79). -/
def Ctx.pSet (x : Ctx) (n : Nat) (v : Pred) : Ctx := if n = 0 then x else { x with p := spSet dPred x.p n v }
/-- A tensor descriptor register. -/
def Ctx.tdGet (x : Ctx) (n : Nat) : TDesc := spGet dTDesc x.td n
/-- A tensor descriptor register written. -/
def Ctx.tdSet (x : Ctx) (n : Nat) (v : TDesc) : Ctx := { x with td := spSet dTDesc x.td n v }

/-- The predicate of an instruction, inverted when PN is 1 (R95). -/
def Ctx.predOf (x : Ctx) (w : IWord) : Pred := if w.pn then ~~~(x.pGet w.pr.toNat) else x.pGet w.pr.toNat
/-- Whether an instruction is enabled (R95). -/
def Ctx.enabled (x : Ctx) (w : IWord) : Bool := (x.predOf w).getLsbD 0

/-! ### Register files kept once per tile -/

/-- Lane `l` of vector register `r`. -/
def Tile.vGet (tl : Tile) (r l : Nat) : Nat := (spGet dW32 tl.v (256 * r + l)).toNat
/-- Lane `l` of vector register `r` written. -/
def Tile.vSet (tl : Tile) (r l v : Nat) : Tile :=
  { tl with v := spSet dW32 tl.v (256 * r + l) (BitVec.ofNat 32 v) }
/-- The index of an accumulator element. -/
def accIx (b m n : Nat) : Nat := 32768 * b + 128 * m + n
/-- Accumulator element (m, n) of bank `b`. -/
def Tile.accGet (tl : Tile) (b m n : Nat) : Nat := (spGet dW32 tl.acc (accIx b m n)).toNat
/-- Accumulator element written. -/
def Tile.accSet (tl : Tile) (b m n v : Nat) : Tile :=
  { tl with acc := spSet dW32 tl.acc (accIx b m n) (BitVec.ofNat 32 v) }
/-- The value of an accumulator element. -/
def Tile.accVal (tl : Tile) (b m n : Nat) : Ext := fp32.dec (tl.accGet b m n)
/-- Row `l` of row-statistics register `r`: SUM in the high half, MAX in the low half (R207). -/
def Tile.stGet (tl : Tile) (r l : Nat) : Nat := (spGet dW64 tl.st (256 * r + l)).toNat
/-- Row `l` of row-statistics register `r` written. -/
def Tile.stSet (tl : Tile) (r l hi lo : Nat) : Tile :=
  { tl with st := spSet dW64 tl.st (256 * r + l) (BitVec.ofNat 64 ((hi % 2 ^ 32) * 2 ^ 32 + lo % 2 ^ 32)) }

/-! ### The cistern -/

/-- The poisoned words among those that bytes `off` to `off + n − 1` of the tile's cistern touch (R308). -/
def badWords (tl : Tile) (off n : Nat) : List Nat :=
  if n = 0 then []
  else (List.range ((off + n - 1) / 8 + 1 - off / 8)).filterMap fun i =>
    if spGet dBool tl.bad (off / 8 + i) then some (off / 8 + i) else none

/-- `n` bytes of the tile's cistern as they stand. -/
def Tile.cisBytes (tl : Tile) (off n : Nat) : List Byte := spRead dByte tl.cis off n

/-- Poison gone from every word that bytes `off` to `off + n − 1` cover whole (R308). -/
def clearBad (bad : Sparse Bool) (off n : Nat) : Sparse Bool :=
  (List.range ((off + n) / 8 - (off + 7) / 8)).foldl (fun b i => spSet dBool b ((off + 7) / 8 + i) false) bad

/-- Bytes written into the tile's cistern: a whole-word write ends a word's poison, a partial one leaves it
(R307, R308). -/
def Tile.cisPut (tl : Tile) (off : Nat) (bs : List Byte) : Tile :=
  { tl with cis := spWrite dByte tl.cis off bs, bad := clearBad tl.bad off bs.length
            soft := clearBad tl.soft off bs.length }

/-- CIS_ECC_STATUS after a read of single-bit-faulty words counted each once (R307, R312). -/
def eccCount (v : W64) (n : Nat) : W64 :=
  BitVec.ofNat 64 (setFld v.toNat 31 0 (min (fld v.toNat 31 0 + n) (2 ^ 32 - 1)))

/-- The size in bytes of a tile's cistern. -/
def cisSize : Nat := 50331648

/-- The abort of R102 unless `n` bytes at kernel offset `off` lie in the kernel's allocation. -/
def inAlloc (k : LKernel) (off n : Nat) : Ex Unit := need (decide (off + n ≤ k.cisBytes)) 0x321

/-- `n` bytes at kernel offset `off`, under R102 and R308. -/
def cisRead (tl : Tile) (k : LKernel) (off n : Nat) : Ex (List Byte) := do
  inAlloc k off n
  match badWords tl (k.cisOff + off) n with
  | [] => .ok (tl.cisBytes (k.cisOff + off) n)
  | w :: _ => fail 0x801 w

/-- Bytes written at kernel offset `off`, under R102. -/
def cisWrite (tl : Tile) (k : LKernel) (off : Nat) (bs : List Byte) : Ex Tile := do
  inAlloc k off bs.length
  .ok (tl.cisPut (k.cisOff + off) bs)

/-- A signed 24-bit immediate as an addend of 64 bits (R82). -/
def imm64 (w : IWord) : W64 := w.imm.signExtend 64

/-! ### Rings -/

/-- The physical sluice slot of a kernel's logical one. -/
def slcPhys (k : LKernel) (l : Nat) : Nat := k.slcMap.getD l 0

/-- The ring of ring number `r` (R86): a flume channel's or a sluice slot's. -/
def Tile.ring (tl : Tile) (k : LKernel) (r : Nat) : Ring :=
  if r < 32 then (spGet dChan tl.chans r).ring else (spGet dSlc tl.slc (slcPhys k (r - 32))).ring

/-- The ring of ring number `r` replaced. -/
def Tile.setRing (tl : Tile) (k : LKernel) (r : Nat) (g : Ring) : Tile :=
  if r < 32 then { tl with chans := spMod dChan tl.chans r fun c => { c with ring := g } }
  else { tl with slc := spMod dSlc tl.slc (slcPhys k (r - 32)) fun c => { c with ring := g } }

/-- The bytes of an operand tile's planes in the packed layout (R164): offsets of the scale, outlier and escalation
planes, and the tile's size. -/
structure Packed where
  scale : Nat
  outl  : Nat
  esc   : Nat
  size  : Nat
  deriving DecidableEq, Repr

/-- `n` rounded up to a multiple of 64. -/
def up64 (n : Nat) : Nat := ceilDiv n 64 * 64

/-- The bytes of one element of a scalar or raw format (Q5.FMT of R106, 0xC raw). -/
def scalarBytes (f : Nat) : Nat := if f = 8 then 4 else if f = 12 then 1 else 2

/-- The bytes of one packed row of a scalar format (R164). -/
def packedRow (f cols : Nat) : Nat := up64 (cols * scalarBytes f)

/-- The packed layout of an R by C tile (R164). -/
def packedOf (f rows cols : Nat) (outl : Bool) (escSlots : Nat) : Packed :=
  if isBlockFmt f then
    let blocks := rows * cols / 32
    let scale := up64 (blocks * blockBytes f)
    let o := up64 (scale + blocks)
    let e := up64 (o + if outl then 6 * blocks else 0)
    { scale := scale, outl := o, esc := e
      size := if escSlots = 0 then (if outl then o + 6 * blocks else scale + blocks)
        else e + 64 * escSlots * ceilDiv blocks 64 }
  else { scale := 0, outl := 0, esc := 0, size := rows * packedRow f cols }

/-- The size of a ring's slot tile. -/
def Ring.tileSize (g : Ring) : Nat := (packedOf g.fmt g.rows g.cols g.outl (escSlotCount g.esc)).size

/-- A slot's flag is set. -/
def Ring.flagged (g : Ring) (i : Nat) : Bool := g.sl.getD i 0 == 1

/-- How many slots are in a state. -/
def Ring.countIn (g : Ring) (v : Nat) : Nat := (g.sl.filter (· == v)).length

/-- A slot's state replaced. -/
def Ring.setSlot (g : Ring) (i v : Nat) : Ring := { g with sl := g.sl.set i v }

/-- The consumer slot advanced by one. -/
def Ring.nextK (g : Ring) : Ring := { g with kslot := (g.kslot + 1) % max 1 g.sl.length }

/-- Whether releasing a slot of ring `r` while a block is open makes its rerun unsafe: the producer was not started
after the OSMN (R220). -/
def releaseUnsafe (b : OsmBlk) (r : Nat) : Bool := !(decide (r < 32) && bit b.started r)

/-- The open block of a context marked as unsafe to rerun when `u` (R220). -/
def Ctx.mark (x : Ctx) (u : Bool) : Ctx :=
  if x.blk.isOpen && u then { x with blk := { x.blk with dirty := true } } else x

/-- A slot released by its consumer (R88): its flag clears, the slot is on its way back, and a consumer-slot operand
advances the consumer slot. -/
def ringRelease (tl : Tile) (kx : Kx) (r i : Nat) (cur : Bool) : Ex Tile := do
  let g := tl.ring kx.k r
  need (g.flagged i) 0x325
  let g := g.setSlot i 2
  let tl := tl.setRing kx.k r (if cur then g.nextK else g)
  let x := tl.ctx kx.c
  .ok (tl.setCtx kx.c (x.mark (releaseUnsafe x.blk r)))

/-- A ring-slot specifier read once: the slot's bytes and poisoned words (R87), and the slot released when REL is 1
(R88). A slot that has no ring, or the ring of a channel that is no reader, aborts (R280). -/
def ringTake (tl : Tile) (kx : Kx) (sp : Nat) : Ex (Tile × Image) := do
  let r := fld sp 29 24
  let g := tl.ring kx.k r
  need (!(decide (r < 32) && (let c := spGet dChan tl.chans r
    c.st == 0 || (c.desc.getD 1 0).toNat == 1))) 0x703
  let cur := decide (fld sp 23 20 = 15)
  let i := if cur then g.kslot else fld sp 23 20
  if bit sp 19 && !g.flagged i then .error .wait
  let off := kx.k.cisOff + g.base + i * g.pitch
  let n := g.tileSize
  let im : Image := { ring := r, base := off, bytes := tl.cisBytes off n, bad := badWords tl off n }
  let tl ← if bit sp 18 then ringRelease tl kx r i cur else .ok tl
  .ok (tl, im)

/-- A fresh free value of tile `t`, and the tile after taking it. -/
def Tile.fresh (tl : Tile) (t : Nat) : W64 × Tile := (Config.freeValue t tl.free, { tl with free := tl.free + 1 })

end Sys2Proof.Machine
end

