-- ==== Sys2Proof/Machine/Operands.lean ====
section
/-! DEFINITION. Operand forms: tensor descriptors (R106 to R108), specifiers (R85), and the tiles of operand values
that the ME and the VU read through a descriptor, a ring slot or a cistern address. -/

namespace Sys2Proof.Machine

/-- A tensor descriptor's fields (R106). `sp` holds ELEM_SP, SCALE_SP, OUTL_SP and ESC_SP in bits 0 to 3. -/
structure TD where
  elem  : Nat
  scale : Nat
  outlB : Nat
  escB  : Nat
  rows  : Nat
  cols  : Nat
  tid   : Nat
  sp    : Nat
  outl  : Bool
  escC  : Nat
  fmt   : Nat
  mats  : Nat
  rowPitch : Nat
  matPitch : Nat
  deriving DecidableEq, Repr

/-- Reading a descriptor register's fields (R106). -/
def tdOf (d : TDesc) : TD :=
  let v := d.toNat
  let q (i : Nat) : Nat := fld v (64 * i + 63) (64 * i)
  { elem := q 0, scale := q 1, outlB := q 2, escB := q 3, rows := fld (q 4) 63 32, cols := fld (q 4) 31 0,
    tid := fld (q 5) 63 32, sp := fld (q 5) 15 12, outl := bit (q 5) 10, escC := fld (q 5) 9 8,
    fmt := fld (q 5) 3 0, mats := fld (q 6) 63 40, rowPitch := fld (q 6) 39 0, matPitch := fld (q 7) 39 0 }

/-- The checks of R108. -/
def TD.check (d : TD) : Ex Unit :=
  need (decide (d.fmt ≤ 6 ∨ (8 ≤ d.fmt ∧ d.fmt ≤ 11)) && d.rows != 0 && d.cols != 0 && d.mats != 0 &&
    (!isBlockFmt d.fmt || d.cols % 32 == 0) && (d.fmt != 11 || d.cols % 4096 == 0) &&
    (d.escC == 0 || d.outl)) 0x327

/-- Whether every plane the tensor has lies in the cistern (R141, R186, R188). -/
def TD.inCistern (d : TD) : Bool :=
  bit d.sp 0 && (!isBlockFmt d.fmt || bit d.sp 1) && (!d.outl || bit d.sp 2) && (d.escC == 0 || bit d.sp 3)

/-- The tensor's block count, or its element count for scalar formats (R107). -/
def TD.elems (d : TD) : Nat := d.mats * d.rows * d.cols

/-- The kernel offset of element `i` of a scalar tensor, by its linear position (R106, R109). -/
def TD.elemOff (d : TD) (i : Nat) : Nat :=
  let m := i / (d.rows * d.cols)
  let r := i / d.cols % d.rows
  d.elem + m * d.matPitch + r * d.rowPitch + (i % d.cols) * scalarBytes d.fmt

/-- A specifier's descriptor register. -/
def specTd (x : Ctx) (sp : Nat) : TD := tdOf (x.tdGet (fld sp 4 0))
/-- A cistern-address specifier's kernel offset (R85). -/
def specCis (x : Ctx) (sp : Nat) : Nat :=
  ((x.aGet (fld sp 29 26)).toNat + 64 * fld sp 25 0) % 2 ^ 64

/-- The value of a scalar element's bytes. -/
def scalarDec (f : Nat) (bs : List Byte) : Ext :=
  if f = 8 then fp32.dec (leNat bs) else if f = 9 then bf16.dec (leNat bs) else fp16.dec (leNat bs)

/-- The scalar layout of Q5.FMT. -/
def scalarFmt (f : Nat) : FFmt := if f = 8 then fp32 else if f = 9 then bf16 else fp16

/-- One group of up to 32 values along K, with what the side port moves for it (R159). -/
structure Grp where
  vals : List Ext
  ents : Nat
  esc  : Nat
  deriving DecidableEq, Repr

/-- An operand of the ME: its shape, format and planes, and the bytes a ring slot gave, if it is one. -/
structure Opnd where
  rows   : Nat
  cols   : Nat
  fmt    : Nat
  outl   : Bool
  slots  : Nat
  elem   : Nat
  scale  : Nat
  outlB  : Nat
  escB   : Nat
  pitch  : Nat
  images : List Image
  slotCols : Nat
  deriving DecidableEq, Repr

/-- An operand named by a descriptor (R141). -/
def opndOfTd (d : TD) : Opnd :=
  { rows := d.rows, cols := d.cols, fmt := d.fmt, outl := d.outl, slots := escSlotCount d.escC, elem := d.elem,
    scale := d.scale, outlB := d.outlB, escB := d.escB, pitch := d.rowPitch, images := [], slotCols := d.cols }

/-- An operand named by a ring, over the slots read from it (R148, R163). -/
def opndOfRing (g : Ring) (n : Nat) (ims : List Image) : Opnd :=
  let p := packedOf g.fmt g.rows g.cols g.outl (escSlotCount g.esc)
  { rows := g.rows, cols := g.cols * n, fmt := g.fmt, outl := g.outl, slots := escSlotCount g.esc, elem := 0,
    scale := p.scale, outlB := p.outl, escB := p.esc, pitch := packedRow g.fmt g.cols, images := ims,
    slotCols := g.cols }

/-- `n` bytes at offset `off` of an operand: from the cistern, or from the image of slot `slot`. -/
def Opnd.bytes (o : Opnd) (tl : Tile) (k : LKernel) (slot off n : Nat) : Ex (List Byte) :=
  if o.images = [] then cisRead tl k off n
  else
    let im := o.images.getD slot ⟨0, 0, [], []⟩
    match im.bad.filter (fun w => decide ((im.base + off) / 8 ≤ w ∧ 8 * w < im.base + off + n)) with
    | [] => .ok ((im.bytes.drop off).take n)
    | w :: _ => fail 0x801 w

/-- Block `b` of an operand's slot: its 32 values, entries and escalation (R43, R751). -/
def Opnd.block (o : Opnd) (tl : Tile) (k : LKernel) (slot b : Nat) : Ex Grp := do
  let eb ← o.bytes tl k slot (o.elem + b * blockBytes o.fmt) (blockBytes o.fmt)
  let sc ← o.bytes tl k slot (o.scale + b) 1
  let rec' ← if o.outl then o.bytes tl k slot (o.outlB + 6 * b) 6 else .ok []
  let r := leNat rec'
  if o.outl && isEscalated o.slots r then do
    let es ← o.bytes tl k slot (o.escB + ((b / 64) * o.slots + fld r 46 45) * 64) 64
    .ok { vals := bf16Vals 32 es, ents := 0, esc := 1 }
  else
    .ok { vals := (if o.outl then withOutliers r else id) (narrowVals o.fmt eb (leNat sc))
          ents := validEntries r, esc := 0 }

/-- Element (row, column) of a scalar operand. -/
def Opnd.scalar (o : Opnd) (tl : Tile) (k : LKernel) (row col : Nat) : Ex Ext := do
  let slot := col / o.slotCols
  let bs ← o.bytes tl k slot (o.elem + row * o.pitch + (col % o.slotCols) * scalarBytes o.fmt) (scalarBytes o.fmt)
  .ok (scalarDec o.fmt bs)

/-- Group `g` of row `row`: 32 consecutive K indices, or as many as the scalar row still has. -/
def Opnd.group (o : Opnd) (tl : Tile) (k : LKernel) (row g : Nat) : Ex Grp :=
  if isBlockFmt o.fmt then
    let perRow := o.slotCols / 32
    o.block tl k (g / perRow) (row * perRow + g % perRow)
  else do
    let vs ← (List.range (min 32 (o.cols - 32 * g))).mapM fun j => o.scalar tl k row (32 * g + j)
    .ok { vals := vs, ents := 0, esc := 0 }

/-- The rows `0 … rows − 1` of an operand, each as its groups `0 … groups − 1`. -/
def Opnd.read (o : Opnd) (tl : Tile) (k : LKernel) (rows groups : Nat) : Ex (List (List Grp)) :=
  (List.range rows).mapM fun r => (List.range groups).mapM fun g => o.group tl k r g

/-- The draw of a stochastic rounding into a register: tensor s31[31:0], index s29 + `i` (R109, R170). -/
def regDraw (sm : Sample) (i : Nat) : Nat :=
  kzDraw sm.s30 (fld sm.s31.toNat 31 0) (fld sm.s31.toNat 39 32) (sm.s29 + BitVec.ofNat 64 i)

/-- The draw of a stochastic rounding into a tensor: its TENSOR_ID and the element's linear position (R109). -/
def tdDraw (sm : Sample) (tid i : Nat) : Nat :=
  kzDraw sm.s30 tid (fld sm.s31.toNat 39 32) (BitVec.ofNat 64 i)

/-- IMM24.RND (R84). -/
def rndW (w : IWord) : Rnd := rndOf (fld w.imm.toNat 23 22)
/-- IMM24.SAT (R84). -/
def satW (w : IWord) : Bool := bit w.imm.toNat 21
/-- The region's first bank row and column and its extents, from a shape and the ROW_IDX and COL_IDX fields (R144). -/
def regionOf (shape imm : Nat) : Nat × Nat × Nat × Nat :=
  let (m, n, _) := shapeOf shape
  (fld imm 15 12 * m, fld imm 11 8 * n, m, n)

end Sys2Proof.Machine
end

