-- ==== Sys2Proof/Machine/Task.lean ====
section
/-! DEFINITION. A task on a tile: how an instruction issues (R92 to R97), how the program counter and the loops
advance (R103), and how a task is aborted (R127). -/

namespace Sys2Proof.Machine

/-- The reset value of a register outside the tiles, by offset of the register view (R739 to R743): the registers whose
reset value is not 0. -/
def regInit (off : Nat) : W64 :=
  if 0x30100 ≤ off ∧ off < 0x30300 then 0x5DC
  else if 0x02000000 ≤ off ∧ off < 0x02400000 then
    (let o := off % 0x100000
     if o = 0 then 0x103
     else if 0x10000 ≤ o ∧ o < 0x10040 then 0x8FFFF else 0)
  else if 0x03000000 ≤ off ∧ off < 0x03400000 then
    (let o := off % 0x40000
     if o = 0 then 0x0014000000002710 else if o = 8 then 4 else if o = 0x30 then 0x1000 else 0)
  else if off = 0x18 then 0x01000000
  else if off = 0x48 then 0x136
  else if off = 0x10000 then 4
  else if off = 0x30000 then 0x03E809740898
  else if 0x50400 ≤ off ∧ off < 0x50440 then 0x3E8
  else if 0x60000 ≤ off ∧ off < 0x60020 then 0x0201E40000000000
  else if off = 0x100100 then 0x8000000000000000
  else if off = 0x100108 then 0xFFFFFFFFFFFFFFFF
  else if 0x102000 ≤ off ∧ off < 0x105000 then 0x80000000
  else if 0x04000000 ≤ off ∧ off < 0x04000800 ∧ off % 0x200 = 0 then 0x8000000000000000
  else 0

/-- A register outside the tiles: its stored value. -/
def State.reg (s : State) (off : Nat) : W64 := spGet regInit s.regs off
/-- A register outside the tiles replaced. -/
def State.setReg (s : State) (off : Nat) (v : W64) : State := { s with regs := spSet regInit s.regs off v }

/-- Tile `t`. -/
def State.tile (s : State) (t : Nat) : Tile := spGet dTile s.tiles t
/-- Tile `t` replaced. -/
def State.setTile (s : State) (t : Nat) (tl : Tile) : State := { s with tiles := spSet dTile s.tiles t tl }

/-- A kernel of a context by its handle. -/
def findKernel (x : Ctx) (h : Nat) : Option LKernel := x.kernels.find? fun k => k.handle == h

/-- The running kernel of a tile: its run and its resources. -/
def Tile.running (tl : Tile) : Option (Run × LKernel) :=
  match tl.run with
  | none => none
  | some r => if r.ended then none else (findKernel (tl.ctx r.ctx) r.handle).map fun k => (r, k)

/-- The ECLK of a tile in MHz, from THM_ECLKt (R728). -/
def tileMhz (s : State) (t : Nat) : Nat := fld (s.reg (0x30100 + 8 * t)).toNat 10 0

/-! ### Completion records of channels (R291) -/

/-- Whether the channel's descriptor is in list mode. -/
def Chan.listMode (c : Chan) : Bool := (c.desc.getD 0 0).toNat == 1
/-- Whether the channel writes. -/
def Chan.isWrite (c : Chan) : Bool := (c.desc.getD 1 0).toNat == 1
/-- The source format of the channel. -/
def Chan.srcFmt (c : Chan) : Nat := (c.desc.getD 4 0).toNat
/-- The stream elements of one unit: 32 for a block source, otherwise 1 (R268). -/
def Chan.unitElems (c : Chan) : Nat := if !c.listMode && isBlockFmt c.srcFmt then 32 else 1

/-- A 32-byte completion record of a channel or crumb (R291). -/
def flmRecord (status chan flags listPos elem addr time : Nat) : List Byte :=
  leBytes 2 status ++ leBytes 1 chan ++ leBytes 1 flags ++ leBytes 4 listPos ++ leBytes 8 elem ++ leBytes 8 addr ++
    leBytes 8 time

/-- The FLAGS byte of a channel's record (R291). -/
def Chan.recFlags (c : Chan) : Nat := b2n c.isWrite + 2 * b2n c.listMode + 4 * b2n c.drops

/-- A channel leaves RUNNING for state `st` with a status, a list position, an element index and a fault address: its
completion record goes to FLM_CHn_DONE and to DONE_OFF when that is set (R291). -/
def Tile.chanEnd (tl : Tile) (k : LKernel) (n st status listPos elem addr time : Nat) : Tile :=
  let c := spGet dChan tl.chans n
  let r := flmRecord status n c.recFlags listPos elem addr time
  let off := leNat ((c.desc.drop 0xE4).take 4)
  let tl := { tl with chans := spSet dChan tl.chans n { c with st := st, done := r } }
  if off = 0xFFFFFFFF then tl else tl.cisPut (k.cisOff + off) r

/-- Every RUNNING channel is stopped: STOPPED, with FLM_STOPPED (R127, R266). -/
def Tile.stopChans (tl : Tile) (k : LKernel) (time : Nat) : Tile :=
  (List.range 32).foldl (fun tl n =>
    let c := spGet dChan tl.chans n
    if c.st = 2 then tl.chanEnd k n 4 0x70A 0 c.commit 0 time else tl) tl

/-- A tile's task aborted with a code and a detail (R127): issue stops, queued instructions and waits end, and its
channels stop. Requests in flight drain by their own events. -/
def Tile.abortTask (tl : Tile) (code detail time : Nat) : Tile :=
  match tl.running with
  | none => tl
  | some (r, k) =>
    { tl.stopChans k time with
      queues := []
      aborting := true
      run := some { r with ended := true, status := code, detail := detail, exc := (tl.run.getD r).exc } }

/-- Every tile of a launch's group but tile `t` aborted with SEQ_GROUP_ABORT (R127); a tile whose kernel has already
ended keeps its own status. -/
def abortGroup (s : State) (l t : Nat) : State :=
  (List.range 64).foldl (fun s u =>
    let tl := s.tile u
    if u ≠ t ∧ (tl.run.map (·.launch)) = some l then s.setTile u (tl.abortTask 0x329 0 s.time) else s) s

/-- CIS_ECC_STATUS after an uncorrectable word was found (R312). -/
def Tile.ueFound (tl : Tile) (word : Nat) : Tile :=
  let v := (tl.reg 0xB000).toNat
  if bit v 63 then tl
  else tl.setReg 0xB000 (BitVec.ofNat 64 (setFld (setFld v 63 63 1) 54 32 word))

/-- TASK_ABORT (R127): the task of tile `t`, whose state is `tl`, is aborted with a code and a detail, and with it
every other tile of its group. -/
def abortTile (s : State) (t : Nat) (tl : Tile) (code detail : Nat) : State :=
  let tl := if code = 0x801 then tl.ueFound detail else tl
  match tl.running with
  | none => s.setTile t tl
  | some (r, _) => abortGroup (s.setTile t (tl.abortTask code detail s.time)) r.launch t

/-! ### Advancing -/

/-- The program counter and loops after an instruction of `len` bytes that does not branch (R103): at the last
instruction of the innermost loop's body the next iteration begins, or the loop is left exhausted. -/
def Ctx.advance (x : Ctx) (len : Nat) : Ctx :=
  match x.loops.getLast? with
  | none => { x with pc := x.pc + len }
  | some l =>
    if l.stop = x.pc then
      if 1 < l.rem then { x with pc := l.start, loops := x.loops.dropLast ++ [{ l with rem := l.rem - 1 }] }
      else { x with pc := x.pc + len, loops := x.loops.dropLast ++ [{ l with rem := 0 }] }
    else { x with pc := x.pc + len }

/-- Whether the innermost loop's count is exhausted and execution has not yet gone on after its body. -/
def Ctx.loopOver (x : Ctx) : Bool :=
  match x.loops.getLast? with
  | none => false
  | some l => l.rem == 0

/-- The length of an instruction of major opcode `opc`. -/
def instrLen (opc : Nat) (w : IWord) : Nat :=
  match encOf opc w.fn.toNat with
  | some e => if e.form = 0 then 8 else 16
  | none => 8

/-! ### Issue -/

/-- Whether the uses of a new instruction conflict with those of an outstanding one (R94). -/
def usesConflict (new old : List (RF × Nat × Bool)) : Bool :=
  new.any fun u => old.any fun v => u.1 == v.1 && u.2.1 == v.2.1 && (u.2.2 || v.2.2)

/-- The queue entries outstanding on a tile. -/
def Tile.outstanding (tl : Tile) : List QEntry := (List.range 5).flatMap fun q => spGet dQueue tl.queues q

/-- What an instruction of context `c` samples at issue (R46, R109, R210). -/
def Tile.sample (tl : Tile) (c opc : Nat) (w : IWord) : Sample :=
  let x := tl.ctx c
  { s29 := x.sGet 29, s30 := x.sGet 30, s31 := x.sGet 31
    prof := if opc = 0x37 then tl.reg (0x2000 + 8 * (w.fn.toNat % 8)) else 0
    osm := x.osm
    blk := if opc = 0x54 then
        (let y := x.advance 8
         { OsmBlk.none with pc := y.pc, loops := y.loops, s := x.s, a := x.a, p := x.p, td := x.td })
      else .none }

/-- The first entry of a queue that has not started. -/
def headWaiting (es : List QEntry) : Option QEntry := es.find? fun e => !e.started

/-- The first entry that has not started replaced, or removed. -/
def replaceWaiting (new : Option QEntry) : List QEntry → List QEntry
  | [] => []
  | e :: es => if e.started then e :: replaceWaiting new es else (match new with | none => es | some n => n :: es)

/-- Queue `q`'s entries replaced. -/
def Tile.setQueue (tl : Tile) (q : Nat) (es : List QEntry) : Tile := { tl with queues := spSet dQueue tl.queues q es }

/-- The context's program counter moved past an instruction. -/
def Tile.advance (tl : Tile) (c len : Nat) : Tile := tl.setCtx c ((tl.ctx c).advance len)

/-- A new entry at the end of queue `q`. -/
def Tile.pushQueue (tl : Tile) (q : Nat) (e : QEntry) : Tile := tl.setQueue q (spGet dQueue tl.queues q ++ [e])

/-- The running kernel as an instruction of queue entry `e` sees it. -/
def kxOf (s : State) (t : Nat) (_ : Tile) (r : Run) (k : LKernel) (e : QEntry) : Kx :=
  { t := t, c := r.ctx, k := k, samp := e.samp, got := e.got, seq := e.seq, now := s.time, t0 := r.t0
    mhz := tileMhz s t }

/-- The head of queue `q`, which has been waiting, runs again. -/
def retryHead (s : State) (t : Nat) (tl : Tile) (r : Run) (k : LKernel) (q : Nat) (e : QEntry)
    (body : State → Tile → Kx → State × Act) : State :=
  let es := spGet dQueue tl.queues q
  let (s, act) := body s tl (kxOf s t tl r k e)
  match act with
  | .done tl' => s.setTile t (tl'.setQueue q (replaceWaiting none es))
  | .stay tl' => s.setTile t (tl'.setQueue q (replaceWaiting none es))
  | .wait tl' got => s.setTile t (tl'.setQueue q (replaceWaiting (some { e with got := got }) es))
  | .started tl' ref => s.setTile t (tl'.setQueue q (replaceWaiting (some { e with started := true, ref := ref }) es))
  | .abort tl' c d => abortTile s t tl' c d

/-- A new instruction issues: into its queue behind waiting ones, or at once (R92, R93). -/
def issueNew (s : State) (t : Nat) (tl : Tile) (r : Run) (k : LKernel) (i : Instr) (opc : Nat) (w : IWord) (x : W64)
    (body : State → Tile → Kx → State × Act) : State :=
  let q := kzQueue opc
  let len := instrLen opc w
  let es := spGet dQueue tl.queues q
  let ctx := tl.ctx r.ctx
  let uses := kzUses opc w x
  if k.codeBytes ≤ ctx.pc then abortTile s t tl 0x322 0
  else if tl.outstanding.any (fun e => usesConflict uses e.uses) then s
  else if !kzLanewise opc && !ctx.enabled w then s.setTile t (tl.advance r.ctx len)
  else if q < 5 ∧ queueDepth q ≤ es.length then s
  else
    let samp := tl.sample r.ctx opc w
    let e : QEntry := { instr := i, seq := tl.issued, uses := uses, samp := samp, started := false, ref := 0, got := [] }
    -- a system-queue instruction makes the rerun of an open block unsafe (R220)
    let tl := tl.setCtx r.ctx (ctx.mark (q == 4))
    let tl := { tl with issued := tl.issued + 1 }
    if q < 5 ∧ (headWaiting es).isSome then s.setTile t ((tl.pushQueue q e).advance r.ctx len)
    else
      let (s, act) := body s tl (kxOf s t tl r k e)
      match act with
      | .done tl' => s.setTile t (tl'.advance r.ctx len)
      | .stay tl' => s.setTile t tl'
      | .wait tl' got => s.setTile t ((tl'.pushQueue q { e with got := got }).advance r.ctx len)
      | .started tl' ref => s.setTile t ((tl'.pushQueue q { e with started := true, ref := ref }).advance r.ctx len)
      | .abort tl' c d => abortTile s t tl' c d

/-- An instruction of tile `t`: of the tile's running kernel, in its active context. With no kernel running, while an
exhausted loop has not been left or a rerun is due, it does not issue. A command that names the waiting head of its
queue runs that head again. -/
def runInstr (s : State) (t : Nat) (i : Instr) (opc : Nat) (w : IWord) (x : W64)
    (body : State → Tile → Kx → State × Act) : State :=
  let tl := s.tile t
  match tl.running with
  | none => s
  | some (r, k) =>
    let q := kzQueue opc
    match (if q < 5 then headWaiting (spGet dQueue tl.queues q) else none) with
    | some e =>
      if e.instr = i then retryHead s t tl r k q e body
      else if (tl.ctx r.ctx).loopOver || (tl.ctx r.ctx).blk.due then s
      else issueNew s t tl r k i opc w x body
    | none =>
      if (tl.ctx r.ctx).loopOver || (tl.ctx r.ctx).blk.due then s
      else issueNew s t tl r k i opc w x body

/-- The meaning of an instruction row whose effect reaches beyond its tile: a word that is no defined encoding is
refused. -/
def deviceInstr (s : State) (t : Nat) (i : Instr) (opc : Nat) (w : IWord) (x : W64)
    (body : State → Tile → Kx → State × Act) : Res :=
  if kzDefined opc w x then .next (runInstr s t i opc w x body) else .refused .undefinedEncoding

/-- The meaning of an instruction row that acts on its own tile. -/
def tileInstr (s : State) (t : Nat) (i : Instr) (opc : Nat) (w : IWord) (x : W64) (body : Tile → Kx → Act) : Res :=
  deviceInstr s t i opc w x fun s tl kx => (s, body tl kx)

/-- A meaning of one FN of an instruction that several rows of the table share. -/
def fnInstr (fn : Nat) (w : IWord) (r : Res) : Res := if w.fn.toNat = fn then r else .refused .undefinedEncoding

end Sys2Proof.Machine
end

