-- ==== Sys2Proof/Machine/Scalar.lean ====
section
/-! DEFINITION. The scalar pipe: arithmetic, control flow, cistern access, descriptors and system registers
(R81, R89, R91, R99 to R106, R111, R112, R126, R750, R752). -/

namespace Sys2Proof.Machine

/-- A scalar register of the running context. -/
def Tile.s (tl : Tile) (kx : Kx) (n : BitVec 6) : W64 := (tl.ctx kx.c).sGet n.toNat
/-- An address register of the running context. -/
def Tile.a (tl : Tile) (kx : Kx) (n : BitVec 6) : W64 := (tl.ctx kx.c).aGet n.toNat
/-- The running context changed. -/
def Tile.upd (tl : Tile) (kx : Kx) (f : Ctx → Ctx) : Tile := tl.setCtx kx.c (f (tl.ctx kx.c))
/-- A scalar register of the running context written. -/
def Tile.putS (tl : Tile) (kx : Kx) (n : BitVec 6) (v : W64) : Tile := tl.upd kx fun x => x.sSet n.toNat v
/-- An address register of the running context written. -/
def Tile.putA (tl : Tile) (kx : Kx) (n : BitVec 6) (v : W64) : Tile := tl.upd kx fun x => x.aSet n.toNat v

/-- The operations of ALU and ALUI (R89, R752). -/
def aluOp (fn : Nat) (a b : W64) : W64 :=
  match fn with
  | 0 => a + b
  | 1 => a - b
  | 2 => a &&& b
  | 3 => a ||| b
  | 4 => a ^^^ b
  | 5 => a <<< (b.toNat % 64)
  | 6 => a >>> (b.toNat % 64)
  | 7 => a.sshiftRight (b.toNat % 64)
  | 8 => a * b
  | 9 => BitVec.ofNat 64 (a.toNat * b.toNat / 2 ^ 64)
  | 10 => if a.slt b then a else b
  | 11 => if a.slt b then b else a
  | 12 => if a.ult b then a else b
  | _ => if a.ult b then b else a

/-- The relations of CMP (R89). -/
def cmpOp (fn : Nat) (a b : W64) : Bool :=
  match fn with
  | 0 => a == b
  | 1 => a != b
  | 2 => a.slt b
  | 3 => a.ult b
  | 4 => a.sle b
  | _ => a.ule b

/-- The functions of POP (R89). -/
def popOp (fn : Nat) (a b : Pred) : Pred :=
  match fn with
  | 0 => a &&& b
  | 1 => a ||| b
  | 2 => a ^^^ b
  | 3 => a &&& ~~~b
  | 4 => ~~~a
  | _ => a

/-- NOP (R89). -/
def execNop (t : Nat) (w : IWord) (s : State) : Res := tileInstr s t (.nop t w) 0x00 w 0 fun tl _ => .done tl

/-- ALU (R89, R752). -/
def execAlu (t : Nat) (w : IWord) (s : State) : Res :=
  tileInstr s t (.alu t w) 0x01 w 0 fun tl kx =>
    .done (tl.putS kx w.dst (aluOp w.fn.toNat (tl.s kx w.sa) (tl.s kx w.sb)))

/-- ALUI (R89, R752). -/
def execAlui (t : Nat) (w : IWord) (s : State) : Res :=
  tileInstr s t (.alui t w) 0x02 w 0 fun tl kx =>
    .done (tl.putS kx w.dst (aluOp w.fn.toNat (tl.s kx w.sa) (imm64 w)))

/-- LI (R89): FN 0 a scalar register, FN 1 an address register. -/
def execLi (t : Nat) (w : IWord) (x : W64) (s : State) : Res :=
  tileInstr s t (.li t w x) 0x03 w x fun tl kx =>
    .done (if w.fn = 0 then tl.putS kx w.dst x else tl.putA kx w.dst x)

/-- CMP (R89). -/
def execCmp (t : Nat) (w : IWord) (s : State) : Res :=
  tileInstr s t (.cmp t w) 0x04 w 0 fun tl kx =>
    .done (tl.upd kx fun c => c.pSet w.dst.toNat
      (if cmpOp w.fn.toNat (tl.s kx w.sa) (tl.s kx w.sb) then BitVec.allOnes 256 else 0))

/-- POP (R89). -/
def execPop (t : Nat) (w : IWord) (s : State) : Res :=
  tileInstr s t (.pop t w) 0x05 w 0 fun tl kx =>
    .done (tl.upd kx fun c => c.pSet w.dst.toNat (popOp w.fn.toNat (c.pGet w.sa.toNat) (c.pGet w.sb.toNat)))

/-- The first word at code offset `off` of a kernel. -/
def codeWord (tl : Tile) (k : LKernel) (off : Nat) : W64 :=
  BitVec.ofNat 64 (leNat (spRead dByte tl.code (k.codeOff + off) 8))

/-- Whether `target` is the first word of an instruction of the kernel's code, walking from instruction start
`pos` (R105). -/
def isStart (tl : Tile) (k : LKernel) (target : Nat) : Nat → Nat → Bool
  | 0, _ => false
  | fuel + 1, pos =>
    if pos = target then decide (pos < k.codeBytes)
    else if target < pos then false
    else isStart tl k target fuel (pos + kzLen (codeWord tl k pos))

/-- The loops that stay active after a branch to `target`: those outside the first whose body does not hold it
(R104). -/
def keepLoops (target : Nat) : List Loop → List Loop
  | [] => []
  | l :: ls => if l.start ≤ target ∧ target ≤ l.stop then l :: keepLoops target ls else []

/-- A taken branch (R104). -/
def Ctx.branch (x : Ctx) (target : Nat) : Ctx := { x with pc := target, loops := keepLoops target x.loops }

/-- BR (R104, R105): the loader has checked the target; one that is no code offset aborts as a fetch outside the
code does. -/
def execBr (t : Nat) (w : IWord) (s : State) : Res :=
  tileInstr s t (.br t w) 0x06 w 0 fun tl kx =>
    let target : Int := ((tl.ctx kx.c).pc : Int) + 8 * w.imm.toInt
    if target < 0 then .abort tl 0x322 0 else .stay (tl.upd kx fun c => c.branch target.toNat)

/-- BRR (R105). -/
def execBrr (t : Nat) (w : IWord) (s : State) : Res :=
  tileInstr s t (.brr t w) 0x07 w 0 fun tl kx =>
    let target := (tl.s kx w.sa).toNat
    if isStart tl kx.k target (kx.k.codeBytes / 8 + 1) 0 then .stay (tl.upd kx fun c => c.branch target)
    else .abort tl 0x322 0

/-- LOOP (R103, R104). -/
def execLoop (t : Nat) (w : IWord) (s : State) : Res :=
  tileInstr s t (.loop t w) 0x08 w 0 fun tl kx =>
    let x := tl.ctx kx.c
    let count := fld (tl.s kx w.sa).toNat 31 0
    let stop := x.pc + 8 * w.imm.toNat
    if 4 ≤ x.loops.length then .abort tl 0x323 0
    else if count = 0 then
      .stay (tl.upd kx fun c => { c with pc := stop + kzLen (codeWord tl kx.k stop) })
    else
      .stay (tl.upd kx fun c =>
        { c with pc := c.pc + 8, loops := c.loops ++ [{ start := c.pc + 8, stop := stop, rem := count }] })

/-- The exhausted innermost loop left: execution goes on after its body, which may also end an iteration of the loop
outside it (R103). -/
def Ctx.leaveLoop (x : Ctx) : Ctx :=
  match x.loops.getLast? with
  | none => x
  | some l =>
    let outer := x.loops.dropLast
    match outer.getLast? with
    | none => { x with loops := outer }
    | some o =>
      if o.stop = l.stop then
        if 1 < o.rem then { x with pc := o.start, loops := outer.dropLast ++ [{ o with rem := o.rem - 1 }] }
        else { x with loops := outer.dropLast ++ [{ o with rem := 0 }] }
      else { x with loops := outer }

/-- LOOP_END (R103): with no exhausted loop on the tile it has no effect. -/
def execLoopEnd (t : Nat) (s : State) : Res :=
  let tl := s.tile t
  .next (match tl.running with
    | none => s
    | some (r, _) =>
      if (tl.ctx r.ctx).loopOver then s.setTile t (tl.setCtx r.ctx (tl.ctx r.ctx).leaveLoop) else s)

/-- A finite value rounded to an integer under a mode (R91, R178). -/
def roundInt (r : Rnd) (D : Nat) (d : Dy) : Int :=
  let m := roundGrid r D d.mant d.exp 0
  if d.neg then -(m : Int) else m

/-- Conversion to a signed integer of `n` bits: out-of-range results and NaN saturate and count (R91, R178). -/
def toIntSat (n : Nat) (r : Rnd) (D : Nat) (e : Ext) : Nat × Exc :=
  let lo : Int := -(2 ^ (n - 1) : Nat)
  let hi : Int := (2 ^ (n - 1) : Nat) - 1
  match e with
  | .nan => (0, { sat := 1 })
  | .inf neg => (wrap n (if neg then lo else hi), { sat := 1 })
  | .fin d =>
    let i := roundInt r D d
    if i < lo then (wrap n lo, { sat := 1 }) else if hi < i then (wrap n hi, { sat := 1 }) else (wrap n i, .zero)

/-- The smaller of two values, −0 below +0, NaN when either is (R176). -/
def Ext.min' (a b : Ext) : Ext :=
  if a.isNan || b.isNan then .nan
  else if a.lt b then a else if b.lt a then b
  else match a with
    | .fin d => if d.neg then a else b
    | _ => a
/-- The larger of two values, −0 below +0, NaN when either is (R176). -/
def Ext.max' (a b : Ext) : Ext :=
  if a.isNan || b.isNan then .nan
  else if a.lt b then b else if b.lt a then a
  else match a with
    | .fin d => if d.neg then b else a
    | _ => a

/-- The result of an FPU instruction and its events (R91). -/
def fpuOp (fn : Nat) (r : Rnd) (sat : Bool) (D : Nat) (a b c : W64) : W64 × Exc :=
  let v (q : W64) : Ext := fp32.dec (q.toNat % 2 ^ 32)
  let nan := (v a).isNan || (v b).isNan
  let out (p : Nat × Exc) : W64 × Exc := (BitVec.ofNat 64 p.1, p.2)
  match fn with
  | 0 => out (deliver fp32 r sat D nan ((v a).add (v b)))
  | 1 => out (deliver fp32 r sat D nan ((v a).sub (v b)))
  | 2 => out (deliver fp32 r sat D nan ((v a).mul (v b)))
  | 3 => out (deliver fp32 r sat D (nan || (v c).isNan) (((v a).mul (v b)).add (v c)))
  | 4 => out (deliver fp32 r sat D nan ((v a).min' (v b)))
  | 5 => out (deliver fp32 r sat D nan ((v a).max' (v b)))
  | 6 => out (deliver fp32 r sat D false (.fin (Dy.ofInt a.toInt)))
  | _ => out (toIntSat 64 r D (v a))

/-- FPU (R91): cvt-to-int and cvt-from-int read one operand, fma three. -/
def execFpu (t : Nat) (w : IWord) (s : State) : Res :=
  tileInstr s t (.fpu t w) 0x09 w 0 fun tl kx =>
    let o := fpuOp w.fn.toNat (rndW w) (satW w) (regDraw kx.samp 0) (tl.s kx w.sa) (tl.s kx w.sb) (tl.s kx w.sc)
    .done ((tl.putS kx w.dst o.1).count kx.c o.2)

/-- WAITQ (R99). -/
def execWaitq (t : Nat) (w : IWord) (s : State) : Res :=
  tileInstr s t (.waitq t w) 0x0A w 0 fun tl _ =>
    if (spGet dQueue tl.queues (fld w.imm.toNat 2 0)).length ≤ fld w.imm.toNat 15 8 then .done tl else .stay tl

/-- FENCE (R99): every scalar-pipe cistern write has completed with its instruction. -/
def execFence (t : Nat) (w : IWord) (s : State) : Res :=
  tileInstr s t (.fence t w) 0x0B w 0 fun tl _ => if tl.outstanding = [] then .done tl else .stay tl

/-- Whether every RUNNING write channel has written every slot handed to it (R266). -/
def Tile.writesDrained (tl : Tile) : Bool :=
  (List.range 32).all fun n =>
    let c := spGet dChan tl.chans n
    !(c.st == 2 && c.isWrite) || (c.ring.countIn 1 == 0 && !(tl.flights.any fun f => f.chan == n))

/-- The kernel ended on its tile with a status and a detail (R126, R266). -/
def Tile.endKernel (tl : Tile) (k : LKernel) (status detail now : Nat) : Tile :=
  let tl := tl.stopChans k now
  { tl with run := tl.run.map fun r => { r with ended := true, status := status, detail := detail } }

/-- KEND (R126, R266). -/
def execKend (t : Nat) (w : IWord) (s : State) : Res :=
  tileInstr s t (.kend t w) 0x0C w 0 fun tl kx =>
    let u := w.imm.toNat
    if tl.outstanding = [] && tl.writesDrained then
      .stay (tl.endKernel kx.k (if u = 0 then 0 else 0x330) u kx.now)
    else .stay tl

/-- OSM_STATUS (R211). -/
def OsmBlk.status (b : OsmBlk) : Nat :=
  b.skipped <<< 32 + b.marked.length <<< 8 + b2n b.rerun * 4 + b2n b.mode * 2 + b2n b.isOpen

/-- What RDSR reads at an index (R81, R201, R202, R210). -/
def sysRead (tl : Tile) (kx : Kx) (i : Nat) : W64 :=
  let x := tl.ctx kx.c
  let n (v : Nat) : W64 := BitVec.ofNat 64 v
  if i = 0 then n kx.t
  else if i = 1 then n kx.c
  else if i = 2 then n (popcount kx.t kx.k.group)
  else if i = 3 then n (popcount 64 kx.k.group)
  else if i = 4 then n kx.k.handle
  else if i = 5 then n kx.now
  else if i = 6 then n ((kx.now - kx.t0) * kx.mhz / 1000)
  else if i = 0x20 then tl.reg (excStatusOff kx.c)
  else if i = 0x38 then 1
  else if i = 0x45 then n x.blk.status
  else if 0x10 ≤ i ∧ i ≤ 0x13 then n ((x.loops.map Loop.rem).getD (i - 0x10) 0)
  else if 0x30 ≤ i ∧ i ≤ 0x37 then tl.reg (0x2000 + 8 * (i - 0x30))
  else spGet dOsm x.osm (i - 0x40)

/-- The bits of a quantisation profile that are kept (R44). -/
def qprofMask : W64 := 0xFFFFCF

/-- The bits of a writable register of R210 that are kept. -/
def osmMask (i : Nat) : W64 :=
  if i < 0x44 then 0xFFFFFFFF else if i = 0x44 then 0x80FFFFFF else 0x800000000000003F

/-- What WRSR does at an index (R73, R81, R202, R210): VU_EXC_STATUS clears by ones, and a KV_BIND beyond the
header's handles is ignored. -/
def sysWrite (tl : Tile) (kx : Kx) (i : Nat) (v : W64) : Tile :=
  if i = 0x20 then tl.setReg (excStatusOff kx.c) (tl.reg (excStatusOff kx.c) &&& ~~~v)
  else if 0x30 ≤ i ∧ i ≤ 0x37 then tl.setReg (0x2000 + 8 * (i - 0x30)) (v &&& qprofMask)
  else if 0x48 ≤ i ∧ kx.k.kvpMap.length ≤ i - 0x48 then tl
  else tl.upd kx fun c => { c with osm := spSet dOsm c.osm (i - 0x40) (v &&& osmMask i) }

/-- RDSR (R81). -/
def execRdsr (t : Nat) (w : IWord) (s : State) : Res :=
  tileInstr s t (.rdsr t w) 0x0D w 0 fun tl kx => .done (tl.putS kx w.dst (sysRead tl kx w.imm.toNat))

/-- WRSR (R81). -/
def execWrsr (t : Nat) (w : IWord) (s : State) : Res :=
  tileInstr s t (.wrsr t w) 0x0E w 0 fun tl kx => .done (sysWrite tl kx w.imm.toNat (tl.s kx w.sa))

/-- The kernel offset a[SA] + IMM24 of a scalar cistern access (R89). -/
def cisAddr (tl : Tile) (kx : Kx) (w : IWord) : Nat := (tl.a kx w.sa + imm64 w).toNat

/-- The access size of LDS and STS (R750). -/
def accessSize (w : IWord) : Nat := 2 ^ fld w.fn.toNat 1 0

/-- A loaded value extended to 64 bits (R750). -/
def extendTo64 (signed : Bool) (n v : Nat) : W64 :=
  if signed then BitVec.ofInt 64 (sgn (8 * n) v) else BitVec.ofNat 64 v

/-- LDS (R100, R102, R308, R750). -/
def execLds (t : Nat) (w : IWord) (s : State) : Res :=
  tileInstr s t (.lds t w) 0x10 w 0 fun tl kx => Act.of tl do
    let bs ← cisRead tl kx.k (cisAddr tl kx w) (accessSize w)
    .ok (tl.putS kx w.dst (extendTo64 (bit w.fn.toNat 2) (accessSize w) (leNat bs)))

/-- STS (R100, R102, R750). -/
def execSts (t : Nat) (w : IWord) (s : State) : Res :=
  tileInstr s t (.sts t w) 0x11 w 0 fun tl kx => Act.of tl
    (cisWrite tl kx.k (cisAddr tl kx w) (leBytes (accessSize w) (tl.s kx w.sb).toNat))

/-- ADDA (R89). -/
def execAdda (t : Nat) (w : IWord) (s : State) : Res :=
  tileInstr s t (.adda t w) 0x12 w 0 fun tl kx => .done (tl.putA kx w.dst (tl.a kx w.sa + tl.s kx w.sb + imm64 w))

/-- MOVA (R89). -/
def execMova (t : Nat) (w : IWord) (s : State) : Res :=
  tileInstr s t (.mova t w) 0x13 w 0 fun tl kx =>
    .done (if w.fn = 0 then tl.putA kx w.dst (tl.s kx w.sa) else tl.putS kx w.dst (tl.a kx w.sa))

/-- TDLD (R102, R106). -/
def execTdld (t : Nat) (w : IWord) (s : State) : Res :=
  tileInstr s t (.tdld t w) 0x14 w 0 fun tl kx => Act.of tl do
    let bs ← cisRead tl kx.k (cisAddr tl kx w) 64
    .ok (tl.upd kx fun c => c.tdSet w.dst.toNat (BitVec.ofNat 512 (leNat bs)))

/-- TDST (R102, R106). -/
def execTdst (t : Nat) (w : IWord) (s : State) : Res :=
  tileInstr s t (.tdst t w) 0x15 w 0 fun tl kx => Act.of tl
    (cisWrite tl kx.k (cisAddr tl kx w) (leBytes 64 ((tl.ctx kx.c).tdGet w.sb.toNat).toNat))

/-- TDSET (R106). -/
def execTdset (t : Nat) (w : IWord) (s : State) : Res :=
  tileInstr s t (.tdset t w) 0x16 w 0 fun tl kx =>
    let q := w.fn.toNat
    .done (tl.upd kx fun c => c.tdSet w.dst.toNat
      (BitVec.ofNat 512 (setFld (c.tdGet w.dst.toNat).toNat (64 * q + 63) (64 * q) (tl.s kx w.sa).toNat)))

/-- TDGET (R106). -/
def execTdget (t : Nat) (w : IWord) (s : State) : Res :=
  tileInstr s t (.tdget t w) 0x17 w 0 fun tl kx =>
    let q := w.fn.toNat
    .done (tl.putS kx w.dst
      (BitVec.ofNat 64 (fld ((tl.ctx kx.c).tdGet w.sa.toNat).toNat (64 * q + 63) (64 * q))))

end Sys2Proof.Machine
end

