-- ==== Sys2Proof/Machine/Bucket.lean ====
section
/-! DEFINITION. Scaled fp16 (R59 to R62): buckets read and encoded, the fp32 arithmetic of a sluice (R61, R402, R406),
and CRC-32C. -/

namespace Sys2Proof.Machine

/-- One step of a reflected CRC-32C over a bit. -/
def crcBit (c : Nat) : Nat := if c % 2 = 1 then Nat.xor (c / 2) 0x82F63B78 else c / 2
/-- A CRC-32C register after one byte. -/
def crcByte (c b : Nat) : Nat := (List.range 8).foldl (fun c _ => crcBit c) (Nat.xor c b)
/-- CRC-32C of bytes. -/
def crc32c (bs : List Byte) : Nat :=
  Nat.xor (bs.foldl (fun c b => crcByte c b.toNat) (2 ^ 32 - 1)) (2 ^ 32 - 1)

/-- Little-endian words of `n` bytes. -/
def wordsOf (n : Nat) : Nat → List Byte → List Nat
  | 0, _ => []
  | k + 1, bs => leNat (bs.take n) :: wordsOf n k (bs.drop n)

/-- The elements of a unit. -/
def unitSize : Nat := 4096

/-- COUNT of a bucket header. -/
def hdrCount (h : Nat) : Nat := fld h 31 16
/-- Whether a received header breaks R62. -/
def hdrBad (h : Nat) : Bool :=
  let e := sgn 16 (fld h 15 0)
  decide (e < -163 ∨ 95 < e) || hdrCount h == 0 || decide (4096 < hdrCount h)

/-- A received bucket as fp32 values (R59, R61, R62): elements at and beyond COUNT are 0. -/
def bucketVals (h : Nat) (data : List Byte) : List Ext :=
  if hdrBad h then List.replicate unitSize .nan
  else
    let e := sgn 16 (fld h 15 0)
    let ws := (wordsOf 2 (hdrCount h) (data ++ List.replicate (2 * hdrCount h - data.length) 0)).map fun w =>
      match fp16.dec w with
      | .fin d => fp32.dec (fp32.round .rne false 0 (d.shift e)).bits
      | x => x
    ws ++ List.replicate (unitSize - ws.length) (.fin Dy.zero)

/-- A bucket encoded from the first `n` of some fp32 values (R60): its header and its `n` elements. `draw i` is the
stochastic draw of element `i`. -/
def bucketEnc (rnd : Nat) (draw : Nat → Nat) (n : Nat) (xs : List Ext) : Nat × List Byte :=
  let r := rndOf rnd
  let vs := xs.take n
  let m := vs.foldl (fun (m : Dy) x => match x with
    | .fin d => if m.lt d.abs then d.abs else m
    | _ => m) Dy.zero
  let want := m.log2 - 14
  let sc : Int := if m.isZero then 0 else min want 95
  let ovr := !m.isZero && decide (95 < want)
  let nonfin := vs.any fun x => !x.isFin
  let codes := vs.mapIdx fun i x => match x with
    | .fin d => if m.isZero then 0 else (fp16.round r true (draw i) (d.shift (-sc))).bits
    | .inf b => if b then fp16.signBit + fp16.infBits else fp16.infBits
    | .nan => fp16.nanBits
  (b2n (rnd == 2) <<< 34 + b2n ovr <<< 33 + b2n nonfin <<< 32 + n <<< 16 + wrap 16 sc, codes.flatMap (leBytes 2))

/-- Whether a header has OVR. -/
def hdrOvr (h : Nat) : Bool := bit h 33
/-- Whether a header has NONFIN. -/
def hdrNonfin (h : Nat) : Bool := bit h 32

/-- A value as fp32 bits. -/
def fp32Bits (x : Ext) : Nat := (fp32.enc .rne false 0 x).bits
/-- fp32 values out of bytes. -/
def fp32Vals (n : Nat) (bs : List Byte) : List Ext := (wordsOf 4 n bs).map fp32.dec
/-- fp32 values as bytes. -/
def fp32Bytes (xs : List Ext) : List Byte := xs.flatMap fun x => leBytes 4 (fp32Bits x)

/-- REDOP on two fp32 values (R393, R402, R406). -/
def redOp (op : Nat) (a b : Ext) : Ext :=
  match op with
  | 0 => fp32.dec (fp32Bits (a.add b))
  | 1 => fp32.dec (fp32Bits (a.max' b))
  | _ => fp32.dec (fp32Bits (a.min' b))

/-- REDOP on two lists of values. -/
def redVec (op : Nat) (a b : List Ext) : List Ext := List.zipWith (redOp op) a b

end Sys2Proof.Machine
end

