-- ==== Sys2Proof/Machine/Device.lean ====
section
/-! DEFINITION. Operations of the device outside the tiles: effects on the whole state, counters, the change log
(R698 to R700), the headgate (R665 to R676) and freezes. -/

namespace Sys2Proof.Machine

/-- A part of a command's effect: it changes the state, and it may end the command with a code, or have it wait. -/
abbrev Dev (α : Type) := ExceptT Stop (StateM State) α

/-- A change of the state. -/
def upd (f : State → State) : Dev Unit := modify f
/-- A value read from the state. -/
def look {α : Type} (f : State → α) : Dev α := do return f (← get)
/-- The command ends with a code. -/
def refuse {α : Type} (code : Nat) (detail : Nat := 0) : Dev α := throw (.abort code detail)
/-- The command ends with a code unless a condition holds. -/
def must (b : Bool) (code : Nat) (detail : Nat := 0) : Dev Unit := if b then pure () else refuse code detail
/-- The command does not take place yet. -/
def stall {α : Type} : Dev α := throw .wait

/-- What a part of an effect leaves: its state and its outcome. -/
def Dev.go {α : Type} (m : Dev α) (s : State) : Except Stop α × State := (m.run).run s
/-- A part that may end with a code, with the code as a value. -/
def attempt {α : Type} (m : Dev α) : Dev (Except (Nat × Nat) α) := fun s =>
  match m.go s with
  | (.ok a, s') => (.ok (.ok a), s')
  | (.error (.abort c d), s') => (.ok (.error (c, d)), s')
  | (.error .wait, _) => (.error .wait, s)

/-- The next state after a command: one that must wait leaves the state as it was, and one that ends with a code keeps
what it did. -/
def Dev.next (m : Dev Unit) (s : State) : State :=
  match m.go s with
  | (.error .wait, _) => s
  | (_, s') => s'

/-- A command whose whole effect is a change of the state. -/
def Dev.run' (m : Dev Unit) (s : State) : Res := .next (m.next s)

/-- An output. -/
def State.emit (s : State) (o : Out) : State := { s with outs := s.outs ++ [o] }
/-- A fresh free value of the device, and the state after taking it. -/
def State.fresh (s : State) : W64 × State := (Config.freeValue 0x1000 s.free, { s with free := s.free + 1 })
/-- A fresh free value below `n`. -/
def freshBelow (n : Nat) : Dev Nat := do
  let (v, s) := (← get).fresh
  set s
  return v.toNat % max 1 n

/-- Memory bytes that the device takes as they come: an access of a list of 256-byte pieces. -/
def forAll {α : Type} (l : List α) (f : α → Dev Unit) : Dev Unit := l.forM f

/-! ### Registers and counters -/

/-- A hub's register. -/
def hubReg (h off : Nat) : Nat := 0x02000000 + h * 0x100000 + off
/-- A leat port's register. -/
def leatReg (n off : Nat) : Nat := 0x03000000 + (n / 4) * 0x100000 + (n % 4) * 0x40000 + off
/-- A register of the HIF region. -/
def hifReg (off : Nat) : Nat := 0x04000000 + off
/-- A register of a media die. -/
def medReg (d off : Nat) : Nat := 0x05000000 + d * 0x10000 + off

/-- A register's value as a number. -/
def State.rn (s : State) (off : Nat) : Nat := (s.reg off).toNat
/-- A field of a register. -/
def State.rf (s : State) (off hi lo : Nat) : Nat := fld (s.rn off) hi lo
/-- One bit of a register. -/
def State.rb (s : State) (off i : Nat) : Bool := bit (s.rn off) i
/-- A field of a register replaced. -/
def State.setF (s : State) (off hi lo v : Nat) : State :=
  s.setReg off (BitVec.ofNat 64 (setFld (s.rn off) hi lo v))
/-- A saturating 64-bit counter advanced (R70, R685). -/
def State.count (s : State) (off n : Nat) : State := s.setReg off (satCount (s.reg off) n)
/-- A performance counter outside the tiles advanced; a wrap raises its block's interrupt (R166, R344). -/
def State.perf (s : State) (off n : Nat) : State :=
  let v := s.reg off
  let s := if perfWraps v n then { s with wraps := spMod dNat s.wraps off (· + 1) } else s
  s.setReg off (perfAdd v n)

/-! ### The change log -/

/-- The ditchrider as the origin of a record. -/
def Origin.drd : Origin := { cls := 0, part := 0xFF, port := 0, id := 0 }
/-- A device engine as the origin of a record. -/
def Origin.engine : Origin := { cls := 2, part := 0xFF, port := 0, id := 0 }

/-- The records the log can hold: the ring and the overflow region (R700). -/
def State.logRoom (s : State) : Nat :=
  65536 + (if s.rb 0x40000 63 then 2048 * s.rf 0x40000 15 0 else 0)

/-- One record at the head of the change log; the oldest leaves when both rings are full (R700). -/
def State.logPut (s : State) (r : LogRec) : State :=
  let head := s.rn 0x40008
  let tail := s.rn 0x40010
  let s := { s with log := spSet dLog s.log head { r with seq := head % 2 ^ 32 } }
  let s := s.setReg 0x40008 (BitVec.ofNat 64 (head + 1))
  let s := if s.rb 0x40000 63 && decide (65536 < head + 1 - tail) then s.setF 0x40020 0 0 1 else s
  if head + 1 - tail ≤ s.logRoom then s
  else
    let s := { s with log := spErase s.log tail }
    let s := s.setReg 0x40010 (BitVec.ofNat 64 (tail + 1))
    if s.rn 0x40018 ≤ tail then s.setF 0x40020 63 32 (min (s.rf 0x40020 63 32 + 1) (2 ^ 32 - 1)) else s

/-- A record of the ditchrider's event log (R701): SEQ is BOOTNO, and a full log gives up its oldest 128 records. -/
def State.event (s : State) (r : LogRec) : State :=
  { s with events := (if s.events.length < 65536 then s.events else s.events.drop 128) ++ [{ r with seq := s.rf 0x18 63 32 }] }

/-- A change-log record (R698, R699); a log-loss record follows each 1,024th record lost (R700). Until the change log opens at
stage 0x0A the record goes to the event log (R701). -/
def State.logRec (s : State) (type : Nat) (o : Origin) (info target value : Nat) : State :=
  let mk (ty v : Nat) : LogRec :=
    { time := s.time, type := ty, origin := o.cls, part := o.part, port := o.port, id := o.id, info := info, seq := 0
      target := target, value := v % 2 ^ 64 }
  if s.rf 0x18 31 24 < 0xA then s.event (mk type value) else
  let lost := s.rf 0x40020 63 32
  let s := s.logPut (mk type value)
  let now := s.rf 0x40020 63 32
  if now ≠ lost ∧ now % 1024 = 0 then
    s.logPut { mk 7 now with origin := 2, part := 0xFF, port := 0, id := 0, info := 0, target := 0 } else s

/-- Whether the part is ready: GLB_STATE.STAGE is 0xFF (R624). -/
def State.ready (s : State) : Bool := s.rf 0x18 31 24 == 0xFF

/-! ### Memory layout -/

/-- The stack sites that the variant fits (R15, R362): NT4-M lacks sites 5, 8 and 11. -/
def State.fittedSites (s : State) : List Nat :=
  ([0, 3, 6, 9, 1, 4, 7, 10, 2, 5, 8, 11].filter fun k => s.variant != 4 || !(k == 5 || k == 8 || k == 11))
/-- The sites in use, in the order of R364, excluded stacks left out (R651). -/
def State.sites (s : State) : List Nat := s.fittedSites.filter fun k => !bit s.excluded k
/-- The number of stacks (N of R362). -/
def State.nStacks (s : State) : Nat := s.sites.length
/-- The bytes of the HBM4 range. -/
def State.hbmEnd (s : State) : Nat := s.nStacks * 2 ^ 36
/-- The board-memory channels in use. -/
def State.nBoards (s : State) : Nat := popcount 16 s.boards
/-- A licensed feature (R636, R637). -/
def State.lic (s : State) (i : Nat) : Bool := bit s.licences i
/-- The board tier's size B, limited without LIC_BOARD (R362, R369). -/
def State.boardBytes (s : State) : Nat :=
  let b := s.nBoards * s.boardGib * 2 ^ 30
  if s.lic 3 then b else min b (2 ^ 39)
/-- The first DPA of the board tier. -/
def boardBase : Nat := 0x10000000000
/-- Whether a DPA lies in a frame that R363 allows. -/
def State.dpaOk (s : State) (a : Nat) : Bool :=
  decide (a < s.hbmEnd - 2 ^ 32) || (decide (boardBase ≤ a) && decide (a < boardBase + s.boardBytes))
/-- The hub that owns a DPA (R364, R365). -/
def State.hubOf (s : State) (a : Nat) : Nat :=
  if boardBase ≤ a then (a - boardBase) / 65536 % 4
  else s.sites.getD (a / 65536 % max 1 s.nStacks) 0 / 3
/-- The stacks that a hub controls. -/
def State.hubStacks (s : State) (h : Nat) : Nat := (s.sites.filter fun k => k / 3 == h).length
/-- The hub-local HBM4 address of a DPA (R364). -/
def State.localHbm (s : State) (a : Nat) : Nat :=
  let f := a / 65536
  let n := max 1 s.nStacks
  let h := s.hubOf a
  let r := ((s.sites.take (f % n)).filter fun k => k / 3 == h).length
  (f / n * s.hubStacks h + r) * 65536 + a % 65536
/-- Where a DPA lies in HBM4 (R327): stack site, pseudo-channel, bank, row and line within the row. -/
def State.hbmLoc (s : State) (a : Nat) : Nat × Nat × Nat × Nat × Nat :=
  let h := s.hubOf a
  let n := s.localHbm a / 256
  let S := max 1 (s.hubStacks h)
  let m := n / S
  let row := fld m 27 14
  ((((List.range 12).filter fun k => k / 3 == h && s.sites.contains k).getD (n % S) 0), fld m 5 0,
    Nat.xor (fld m 11 6) (fld row 5 0), row, fld m 13 12)
/-- The frame of a DPA. -/
def frameOf (a : Nat) : Nat := a / 65536
/-- A frame's page-state entry. -/
def State.frame (s : State) (f : Nat) : Frame := spGet dFrame s.frames f
/-- A page-state entry replaced. -/
def State.setFrame (s : State) (f : Nat) (e : Frame) : State := { s with frames := spSet dFrame s.frames f e }

/-! ### Tile sites -/

/-- A site's STATE in FUS_SITEd (R640): 0 slot holder, 1 spare, 2 retired. -/
def siteState (fuse k : Nat) : Nat := fld fuse (4 * k + 3) (4 * k + 2)
/-- The slot that a fused holder holds (R640). -/
def siteSlot (fuse k : Nat) : Nat := fld fuse (4 * k + 1) (4 * k)
/-- FUS_SITEd. -/
def State.fuse (s : State) (d : Nat) : Nat := s.fuses.getD d 0
/-- The slots of a die. -/
def State.dieSlots (s : State) (d : Nat) : Nat := ((List.range 5).filter fun k => siteState (s.fuse d) k == 0).length
/-- The exposed tiles of the part (R643). -/
def State.nTiles (s : State) : Nat := (List.range 16).foldl (fun n d => n + s.dieSlots d) 0
/-- A tile's die and slot (R643). -/
def State.dieOf (s : State) (t : Nat) : Nat × Nat :=
  (List.range 16).foldl (fun (a : Nat × Nat × Bool) d =>
    if a.2.2 then a
    else if a.2.1 < s.dieSlots d then (d, a.2.1, true) else (d + 1, a.2.1 - s.dieSlots d, false)) (0, t, false) |>
    fun a => (a.1, a.2.1)
/-- The site that the fuses give a tile (R640). -/
def State.fusedSite (s : State) (t : Nat) : Nat :=
  let (d, j) := s.dieOf t
  5 * d + ((List.range 5).find? fun k => siteState (s.fuse d) k == 0 && siteSlot (s.fuse d) k == j).getD 0
/-- The site that holds a tile now (R641, R687). -/
def State.siteOf (s : State) (t : Nat) : Nat :=
  match s.holders.find? fun e => e.1 == t with
  | some e => e.2
  | none => s.fusedSite t
/-- Whether a tile is exposed and not OFFLINE (R18, R642). -/
def State.tileUp (s : State) (t : Nat) : Bool := decide (t < s.nTiles) && !bit s.offline t

/-! ### Partitions and the headgate -/

/-- Partition `p`'s HGT_PARTn_CFG. -/
def partCfg (p : Nat) : Nat := 0x100100 + 0x20 * p
/-- Partition `p`'s HGT_PARTn_TILES. -/
def partTiles (p : Nat) : Nat := 0x100108 + 0x20 * p
/-- Partition `p`'s HGT_PARTn_RAS. -/
def partRas (p : Nat) : Nat := 0x100110 + 0x20 * p
/-- The granule register of a DPA (R668). -/
def granReg (a : Nat) : Nat :=
  if boardBase ≤ a then 0x104000 + 8 * ((a - boardBase) / 2 ^ 32) else 0x102000 + 8 * (a / 2 ^ 30)
/-- The partition that holds a tile (R671). -/
def State.tilePart (s : State) (t : Nat) : Nat :=
  ((List.range 8).find? fun p => s.rb (partTiles p) t).getD 8
/-- A function's HIF_PORTp_FNf_CFG. -/
def fnCfg (p f : Nat) : Nat := hifReg (0x200 * p + 8 * f)
/-- The registers of a queue, by their offsets in R544; numbers from 8,192 on are the media rings, whose registers have the
same layouts without a TMASK (R586). -/
def qReg (n off : Nat) : Nat :=
  if n < 8192 then hifReg (0x100000 + 0x80 * n + off)
  else hifReg (0x4000 + 0x40 * (n - 8192) + (if off = 0 then 0 else off - 8))
/-- The number under which a media ring is handled as a queue. -/
def ringQ (r : Nat) : Nat := 8192 + r
/-- The PCIe port of a queue's bound function, or of a ring's. -/
def State.qPort (s : State) (n : Nat) : Nat := if n < 8192 then s.rf (qReg n 0) 47 46 else s.rf (qReg n 0) 52 51
/-- A queue's bound function, or a ring's. -/
def State.qFn (s : State) (n : Nat) : Nat := if n < 8192 then s.rf (qReg n 0) 45 40 else s.rf (qReg n 0) 50 45
/-- The entries of a queue's rings. -/
def State.qSize (s : State) (n : Nat) : Nat := 2 ^ (if n < 8192 then s.rf (qReg n 0) 39 35 else s.rf (qReg n 0) 44 40)

/-- Whether a DPA lies in the change log's overflow region (R700). -/
def State.inOverflow (s : State) (a : Nat) : Bool :=
  s.rb 0x40000 63 &&
    (let b := s.rf 0x40000 57 32 * 65536
     decide (b ≤ a) && decide (a < b + s.rf 0x40000 15 0 * 65536))

/-- Whether the headgate grants a DPA to a partition. -/
def State.granted (s : State) (p a : Nat) : Bool :=
  s.dpaOk a && !s.inOverflow a && s.rb (granReg a) 31 && s.rf (granReg a) 30 28 == p

/-- The class and identity of a master in the freeze table (R673). -/
def frzKey : Master → Option (Nat × Nat)
  | .flume _ _ => none
  | .tile t => some (1, t)
  | .queue q => some (2, q)
  | .fn p f => some (3, p * 64 + f)
  | .leat p n => some (4, p * 65536 + n)
  | .qp _ => none
  | .media _ => none
  | .snap _ _ => none
  | .device => none

/-- The freeze-table entry that holds a class and identity. -/
def State.frzEntry (s : State) (cls id : Nat) : Option Nat :=
  (List.range 256).find? fun k =>
    let v := s.rn (0x101000 + 8 * k)
    bit v 63 && fld v 59 56 == cls && fld v 55 32 == id
/-- Whether a class and identity is frozen. -/
def State.isFrozen (s : State) (cls id : Nat) : Bool :=
  -- an empty table answers at once
  s.regs.any (fun e => decide (0x101000 ≤ e.1 ∧ e.1 < 0x101800)) && (s.frzEntry cls id).isSome
/-- Whether a tile is frozen. -/
def State.tileFrozen (s : State) (t : Nat) : Bool := s.isFrozen 1 t
/-- Whether a master is frozen. -/
def State.masterFrozen (s : State) (m : Master) : Bool :=
  match m with
  | .flume t _ => s.tileFrozen t
  | m => match frzKey m with
    | none => false
    | some (c, i) => s.isFrozen c i
/-- Whether a partition is frozen. -/
def State.partFrozen (s : State) (p : Nat) : Bool := s.rb (partCfg p) 62

/-- The headgate's check of a request (R670): `none` when it is permitted, otherwise the cause. -/
def State.headgate (s : State) (m : Master) (p : Nat) (write : Bool) (a : Nat) : Option Nat :=
  let g := granReg a
  if s.masterFrozen m || s.partFrozen p then some 1
  else if !s.dpaOk a || s.inOverflow a then some 2
  else if !s.rb g 31 then some 3
  else
    let sh := (s.frame (frameOf a)).shared
    if s.rf g 30 28 = p then (if write && sh then some 4 else none)
    else if bit (s.rf g 15 8) p && sh && !write then none
    else some 3

/-- A bit of HGT_PARTn_RAS set; when it goes from 0 to 1, vector 1 of every enabled function of the partition is sent
(R684). -/
def State.rasBit (s : State) (p i : Nat) : State :=
  if s.rb (partRas p) i then s
  else
    let s := s.setF (partRas p) i i 1
    (List.range 4).foldl (fun s port => (List.range 64).foldl (fun s f =>
      if s.rb (fnCfg port f) 63 && s.rf (fnCfg port f) 62 60 == p then s.emit (.msix port f 1) else s) s) s

/-- A partition frozen (R676): FROZEN, and every running launch of its tiles aborted with HGT_PART_FROZEN. -/
def State.freezePart (s : State) (p cause va : Nat) : State :=
  let s := s.setF (partCfg p) 62 62 1
  let s := s.logRec 4 { Origin.engine with part := p } cause 0 va
  let s := s.rasBit p 1
  (List.range 64).foldl (fun s t =>
    if s.tilePart t = p then s.setTile t ((s.tile t).abortTask 0x0F02 0 s.time) else s) s

/-- A master frozen (R672, R673): it takes a free entry of the freeze table, or its partition is frozen. The
command that met the denial ends a frozen tile's launch with its own code (R674). -/
def State.freeze (s : State) (m : Master) (p cause a va : Nat) : State :=
  match frzKey m with
  | none => s
  | some (cls, id) =>
    if s.isFrozen cls id then s
    else
      match (List.range 256).find? fun k => !s.rb (0x101000 + 8 * k) 63 with
      | none => s.freezePart p cause va
      | some k =>
        let s := s.setReg (0x101000 + 8 * k) (BitVec.ofNat 64
          (2 ^ 63 + p <<< 60 + cls <<< 56 + id <<< 32 + cause <<< 24))
        let s := s.logRec 4 { cls := 2, part := p, port := 0, id := id } cause (frameOf a) va
        s.rasBit p 1

/-- A denial of a request of partition `p` (R672, R676): it counts in DENIALS, freezes the master unless the cause is a
freeze, and freezes the partition at DENY_LIMIT. -/
def State.deny (s : State) (m : Master) (p cause a va : Nat) : State :=
  let n := min (s.rf (partCfg p) 31 0 + 1) (2 ^ 32 - 1)
  let s := s.setF (partCfg p) 31 0 n
  let lim := s.rf (partCfg p) 47 32
  let s := if cause = 1 then s else s.freeze m p cause a va
  if lim ≠ 0 ∧ lim ≤ n ∧ !s.partFrozen p then s.freezePart p cause va else s

end Sys2Proof.Machine
end

