-- ==== Sys2Proof/Machine/Link.lean ====
section
/-! DEFINITION. What leaves the package for host memory and for peers: host reads and writes of a partition's function
(R556 to R560), and memory requests over leat (R494 to R500). -/

namespace Sys2Proof.Machine

/-- A HIF_PORTp_FLUSHn register. -/
def flushReg (port p : Nat) : Nat := hifReg (0x1000 + 0x40 * port + 8 * p)

/-- A write sent to host memory; a port whose link is down discards and counts it (R543). -/
def State.toHost (s : State) (port fn addr : Nat) (data : List Byte) : State :=
  if bit s.pcieDown port then s.count (hifReg (0x2008 + 0x20 * port)) 1 else s.emit (.hostWrite port fn addr data)

/-- A read of host memory sent on a port. -/
def sendHostRead (who : Master) (port fn addr len : Nat) : Dev Unit := upd fun s =>
  let tag := s.nextId
  { s.emit (.hostRead port fn addr len tag) with
    nextId := tag + 1
    hostReqs := s.hostReqs ++ [{ tag := tag, port := port, fn := fn, addr := addr, len := len, who := who, t0 := s.time }] }

/-- A leat port. -/
def State.lport (s : State) (n : Nat) : LPort := spGet dLPort s.lports n
/-- A leat port replaced. -/
def State.setLport (s : State) (n : Nat) (p : LPort) : State := { s with lports := spSet dLPort s.lports n p }
/-- LEA_PORTn_STATUS.STATE. -/
def State.leaState (s : State) (n : Nat) : Nat := (s.lport n).st
/-- Whether a leat port is there and licensed (R16, R18, R648). -/
def State.leatThere (s : State) (n : Nat) : Bool :=
  decide (n < if s.lic 1 then 16 else 8) && !bit s.boot.deadDies (32 + n / 4)
/-- LEA_PORTn_CFG.EN of a port that is there (R16). -/
def State.leaEn (s : State) (n : Nat) : Bool := s.leatThere n && s.rb (leatReg n 0) 63
/-- Whether a port takes new messages (R499, R522, R530). -/
def State.leaOpen (s : State) (n : Nat) : Bool := s.leaEn n && s.leaState n != 0 && s.leaState n != 6
/-- A channel of a port. -/
def LPort.vc (p : LPort) (v : Nat) : LVc := spGet dLVc p.vcs v
/-- A channel of a port replaced. -/
def LPort.setVc (p : LPort) (v : Nat) (c : LVc) : LPort := { p with vcs := spSet dLVc p.vcs v c }

/-- The ports that a request of a partition through a leaf may use (R499). -/
def State.peerPorts (s : State) (part mask : Nat) : List Nat :=
  (List.range 16).filter fun n =>
    bit mask n && s.rf (leatReg n 0) 62 60 == part && s.leaOpen n

/-- The port of a request to a DVA (R499). -/
def State.peerPort (s : State) (part mask va : Nat) : Option Nat :=
  let c := s.peerPorts part mask
  (c.drop (fld va 23 8 % max 1 c.length)).head?

/-- The outbound tags in use on a port (R500, R534). -/
def State.leaTags (s : State) (n : Nat) : List Nat := (s.peerReqs.filter fun r => r.port == n).map PeerReq.tag

/-- The 64-byte header of a memory message (R494). -/
def memHeader (kind hint len dest src tag status addr : Nat) : List Byte :=
  leBytes 1 kind ++ leBytes 1 hint ++ leBytes 2 len ++ leBytes 2 dest ++ leBytes 2 src ++ leBytes 2 tag ++
    leBytes 1 status ++ List.replicate 5 0 ++ leBytes 8 addr ++ List.replicate 40 0

/-- Data padded with zeros to whole slots. -/
def padSlots (bs : List Byte) : List Byte := bs ++ List.replicate (ceilDiv bs.length 64 * 64 - bs.length) 0

/-- The messages waiting at a port on a VC. -/
def dMsgs : Nat → List (List Byte) := fun _ => []
/-- A message put behind those waiting at a port on a VC. A port that takes none ends it: sluice and sprinkle messages
count in LEA_PORTn_ERR_LINKDROP (R522, R530). -/
def State.leaSend (s : State) (port vc : Nat) (msg : List Byte) : State :=
  if s.leaOpen port || (vc == 1 && s.leaState port != 0 && s.leaState port != 6) then
    { s with leaQ := spMod dMsgs s.leaQ (port * 8 + vc) fun q => q ++ [msg] }
  else if vc = 2 ∨ vc = 3 then s.count (leatReg port 0x148) 1
  else s

/-- The message at the head of a channel's receive buffer goes to the device: its slots are free (R503), and they count in
LEA_PERF_RXSLOT. -/
def State.leaPop (s : State) (port v : Nat) : State :=
  let p := s.lport port
  let c := p.vc v
  match c.ready with
  | [] => s
  | m :: rest =>
    let k := m.length / 64
    (s.setLport port (p.setVc v { c with ready := rest, freed := (c.freed + k) % 32768 })).perf (leatReg port 0x208) k

/-- A sluice or sprinkle message taken by its engine: it leaves the receive buffer of the port at whose head it stands, if
it came over leat (R493, R498). -/
def State.leaTake (s : State) (v : Nat) (msg : List Byte) : State :=
  match (List.range 16).find? fun n => ((s.lport n).vc v).ready.head? == some (padSlots msg) with
  | none => s
  | some n => s.leaPop n v

/-- A request sent to a peer (R499, R500): the port's lowest free tag; it waits while none is free. `false` when there is
no candidate port. -/
def sendPeer (who : Master) (part : Nat) (ports dest va hint : Nat) (write : Bool) (len : Nat) (data : List Byte) :
    Dev Bool := do
  let s ← get
  match s.peerPort part ports va with
  | none => return false
  | some n =>
    let used := s.leaTags n
    match (List.range 4096).find? fun k => !used.contains k with
    | none => stall
    | some tag =>
      let src := s.rf 0x70000 15 0
      let msg := memHeader (if write then 0x21 else 0x20) hint len dest src tag 0 va ++ padSlots (if write then data else [])
      upd fun s => { s.leaSend n 0 msg with
        peerReqs := s.peerReqs ++
          [{ port := n, tag := tag, write := write, dest := dest, addr := va, len := len, who := who, t0 := s.time,
             sent := false }] }
      return true

/-! ### Queue pairs -/

/-- A queue pair. -/
def State.qp (s : State) (n : Nat) : Qp := spGet dQp s.qps n
/-- A queue pair replaced. -/
def State.setQp (s : State) (n : Nat) (q : Qp) : State := { s with qps := spSet dQp s.qps n q }

/-- The path MTU that a code names (R569, R570). -/
def mtuBytes (code : Nat) : Nat := if code = 3 then 1024 else if code = 4 then 2048 else 4096

/-- `n` big-endian bytes of a number: network byte order. -/
def beBytes (n v : Nat) : List Byte := (leBytes n v).reverse

/-- The InfiniBand opcode of packet `i` of `n` of a message of TYPE `ty` (R569, R572; the codes are InfiniBand's). -/
def ibOpcode (ty i n : Nat) : Nat :=
  let imm := b2n (ty == 0x61 || ty == 0x63)
  let base := if ty = 0x62 ∨ ty = 0x63 then 6 else 0
  if ty = 0x64 then 0x0C
  else if n = 1 then base + 4 + imm
  else if i = 0 then base
  else if i + 1 = n then base + 2 + imm
  else base + 1

/-- The packets of a message: opcode, PSN and payload with its extended headers. -/
def msgPackets (mtu : Nat) (m : QpMsg) : List (Nat × Nat × List Byte) :=
  if m.type = 0x64 then [(0x0C, m.psn, beBytes 8 m.raddr ++ beBytes 4 m.rkey ++ beBytes 4 m.len)]
  else (List.range m.pkts).map fun i =>
    let head := if i = 0 ∧ (m.type = 0x62 ∨ m.type = 0x63) then beBytes 8 m.raddr ++ beBytes 4 m.rkey ++ beBytes 4 m.len else []
    let imm := if i + 1 = m.pkts ∧ (m.type = 0x61 ∨ m.type = 0x63) then beBytes 4 m.imm else []
    (ibOpcode m.type i m.pkts, (m.psn + i) % 2 ^ 24, head ++ imm ++ (m.data.drop (i * mtu)).take mtu)

/-- A message's packets put on its queue pair's port. -/
def State.sendPackets (s : State) (n : Nat) (m : QpMsg) : State :=
  let q := s.qp n
  (msgPackets (mtuBytes q.mtu) m).foldl (fun s p => s.emit (.roce q.port q.dgid q.dqpn p.1 p.2.1 p.2.2)) s

/-- A message sent on a queue pair in RTS: it takes the next PSNs and waits for its acknowledgement. -/
def State.qpPost (s : State) (n : Nat) (m : QpMsg) : State :=
  let q := s.qp n
  let k := max 1 (ceilDiv (if m.type = 0x64 then m.len else m.data.length) (mtuBytes q.mtu))
  let m := { m with psn := q.psn, pkts := k }
  let s := s.setQp n { q with psn := (q.psn + k) % 2 ^ 24, out := q.out ++ [m]
                              left := if q.out = [] then q.retry else q.left, since := if q.out = [] then s.time else q.since }
  s.sendPackets n m

/-- A SEND of a sluice on a queue pair (R408, R571). -/
def State.qpSluice (s : State) (n : Nat) (data : List Byte) : State :=
  if (s.qp n).state = 3 then
    s.qpPost n { psn := 0, pkts := 0, type := 0x60, data := data, raddr := 0, rkey := 0, len := data.length, imm := 0
                 cmd := none, tag := 0, laddr := 0, got := 0 }
  else s

/-- A sprinkle message, join or decision sent over Ethernet to the member that a queue pair names, and its second copy due
2 µs later (R575): queue pair 2, UD SEND. -/
def State.udSend (s : State) (port n : Nat) (msg : List Byte) : State :=
  let s := s.emit (.roce port (s.qp n).dgid 2 0x64 0 msg)
  { s with udAgain := s.udAgain ++ [(s.time + 2000, port, n, msg)] }

/-- A message with its route word at an offset (R492, R493). -/
def routed (msg : List Byte) (at' dest src : Nat) : List Byte :=
  msg.take at' ++ leBytes 2 dest ++ leBytes 2 src ++ msg.drop (at' + 4)

end Sys2Proof.Machine
end

