-- ==== Sys2Proof/Machine/Mem.lean ====
section
/-! DEFINITION. Memory behind the hubs: 64-byte units and their errors (R333, R368, R681 to R683), weirs (R334 to
R336), the memory-side cache (R313 to R322), page states (R370 to R378), and translation (R346 to R361). -/

namespace Sys2Proof.Machine

/-! ### Soft defects and retired rows -/

/-- The starts of the part (GLB_STATE.BOOTNO). -/
def State.bootNo (s : State) : Nat := s.rf 0x18 63 32

/-- An event of a defect: it counts in its entry, which becomes applied at the threshold (R644 to R646). -/
def State.defect (s : State) (kind unit loc threshold : Nat) : State :=
  let isIt (d : Defect) : Bool := d.kind == kind && d.unit == unit && d.loc == loc
  let s := { s with defPrev := s.defects, defSeq := (s.defSeq + 1) % 2 ^ 32 }
  if s.defects.any isIt then
    { s with defects := s.defects.map fun d =>
        if isIt d then
          let n := if d.st = 2 then 1 else min (d.events + 1) (2 ^ 32 - 1)
          { d with events := n, st := if threshold ≤ n then 1 else 0 }
        else d }
  else if 4032 ≤ s.defects.length then { s with defDropped := min (s.defDropped + 1) 65535 }
  else { s with defects := s.defects ++
    [{ kind := kind, st := if threshold ≤ 1 then 1 else 0, unit := unit, loc := loc, events := 1
       bootno := s.bootNo }] }

/-- A frame becomes POISONED: the record, and the owner and readers of its granule are notified (R682, R684). -/
def State.poisonFrame (s : State) (f : Nat) : State :=
  let s := s.setFrame f { s.frame f with state := 3 }
  let s := s.logRec 6 Origin.engine 4 f 0
  let g := granReg (f * 65536)
  (List.range 8).foldl (fun s p =>
    if s.rb g 31 && (s.rf g 30 28 == p || bit (s.rf g 15 8) p) then (s.setF (partRas p) 57 32 f).rasBit p 0 else s) s

/-- The HBM4 frame at a hub-local frame index (the inverse of R364). -/
def State.frameAt (s : State) (h lf : Nat) : Nat :=
  let S := max 1 (s.hubStacks h)
  let own := (List.range s.nStacks).filter fun i => s.sites.getD i 0 / 3 == h
  lf / S * s.nStacks + own.getD (lf % S) 0

/-- The frames whose lines lie in the DRAM row of a DPA (R327, R650). -/
def State.rowFrames (s : State) (a : Nat) : List Nat :=
  let h := s.hubOf a
  let n := s.localHbm a / 256
  let S := max 1 (s.hubStacks h)
  ((List.range 4).map fun l => s.frameAt h ((setFld (n / S) 13 12 l * S + n % S) * 256 / 65536)).eraseDups

/-- The DRAM row of a DPA retired: a kind 3 entry, a remap entry while the table has room, and otherwise its frames
POISONED (R650, R681). The place a remap entry names is of the hub's choosing. -/
def retireRow (a : Nat) : Dev Unit := do
  let s ← get
  if boardBase ≤ a then pure ()
  else
    let (site, pch, bank, row, _) := s.hbmLoc a
    let h := s.hubOf a
    let s := s.count (hubReg h 0x138) 1
    let s := s.defect 3 site (pch <<< 20 + bank <<< 14 + row) 1
    let s := s.logRec 6 Origin.engine 3 (frameOf a) 0
    if (s.remaps.filter fun r => r.hub == h).length < 1024 then
      let (v, s) := s.fresh
      let e : Remap := { hub := h, stack := site, pch := pch, bank := bank, row := row, target := v.toNat }
      upd fun _ => { s with remaps := s.remaps ++ [e] }
    else upd fun _ => (s.rowFrames a).foldl State.poisonFrame s

/-! ### Units -/

/-- The pseudo-channel of a DPA's unit: stack site × 64 + pseudo-channel. -/
def State.pchOf (s : State) (a : Nat) : Nat :=
  let (site, pch, _) := s.hbmLoc a
  site * 64 + pch

/-- One unit moved at a memory controller (R331, R344): units read and written, and a turn-round pair when a read
follows a write on its pseudo-channel. -/
def State.moved (s : State) (a : Nat) (write : Bool) : State :=
  if boardBase ≤ a then s
  else
    let h := s.hubOf a
    let p := s.pchOf a
    let s := s.perf (hubReg h (if write then 0x10 else 8)) 1
    let s := if !write && spGet dBool s.busDir p then s.perf (hubReg h 0x18) 1 else s
    { s with busDir := spSet dBool s.busDir p write }

/-- The condition of the unit at a DPA: 0 good, 1 a correctable error, 2 an uncorrectable error, 3 poisoned, 4 an
uncorrectable error that a rewrite does not mend. -/
def State.unit (s : State) (a : Nat) : Nat := spGet dNat s.units (a / 64)
/-- A unit's condition replaced. -/
def State.setUnit (s : State) (a v : Nat) : State := { s with units := spSet dNat s.units (a / 64) v }
/-- The bytes of the unit at a DPA. -/
def State.unitBytes (s : State) (a : Nat) : List Byte := spRead dByte s.mem (a / 64 * 64) 64

/-- The mirror's address of a DPA. -/
def State.mirrorOf (s : State) (a : Nat) : Nat := (s.frame (frameOf a)).mframe * 65536 + a % 65536

/-- An uncorrectable unit of a mirrored frame (R681, R682): served from the mirror and repaired; poisoned when the sector
is stale, and the frame POISONED when the mirror fails too. -/
def mirrorRead (a : Nat) : Dev (List Byte × Bool) := do
  let s ← get
  let f := s.frame (frameOf a)
  if bit f.mstale (a % 65536 / 4096) then return (s.unitBytes a, true)
  let ma := s.mirrorOf a
  upd fun s => s.moved ma false
  if 2 ≤ s.unit ma then
    upd fun s => s.poisonFrame (frameOf a)
    return (s.unitBytes a, true)
  let bs := s.unitBytes ma
  let bad := s.unit a
  upd fun s => { s with mem := spWrite dByte s.mem (a / 64 * 64) bs }
  upd fun s => s.setUnit a 0
  if bad = 4 then retireRow a
  upd fun s => (s.count (hubReg (s.hubOf a) 0x130) 1).logRec 6 Origin.engine 2 (frameOf a) 0
  return (bs, false)

/-- A unit read from memory (R333, R368, R681): its bytes, and whether they are poisoned. -/
def unitRead (a : Nat) : Dev (List Byte × Bool) := do
  upd fun s => s.moved a false
  let s ← get
  let h := s.hubOf a
  let brd := if boardBase ≤ a then 0x10 else 0
  match s.unit a with
  | 0 => return (s.unitBytes a, false)
  | 1 =>
    upd fun _ => (s.count (hubReg h (0x100 + brd)) 1).setUnit a 0
    return (s.unitBytes a, false)
  | 3 => return (s.unitBytes a, true)
  | _ =>
    upd fun s => s.count (hubReg h (0x108 + brd)) 1
    if (s.frame (frameOf a)).mirror then mirrorRead a
    else
      upd fun s => s.setUnit a 3
      return (s.unitBytes a, true)

/-- A unit written to memory, poisoned or not. -/
def State.unitWrite (s : State) (a : Nat) (bs : List Byte) (poison : Bool) : State :=
  let s := s.moved a true
  { s with mem := spWrite dByte s.mem (a / 64 * 64) bs }.setUnit a (if poison then 3 else 0)

/-! ### Weirs -/

/-- The weir set of a DPA: 0 HBM4, 1 board memory. -/
def weirSet (a : Nat) : Nat := if boardBase ≤ a then 1 else 0
/-- A weir's WEIR_CFGn. -/
def weirCfg (h set p : Nat) : Nat := hubReg h (0x20000 + 0x1000 * set + 8 * p)
/-- A weir's WEIR_STATn. -/
def weirStat (h set p : Nat) : Nat := hubReg h (0x20100 + 0x1000 * set + 8 * p)
/-- The configuration a weir runs under: the one in force since the last refill (R338). -/
def State.weir (s : State) (h set p : Nat) : Nat := (spGet dW64 s.active (weirCfg h set p)).toNat
/-- A weir's TOKENS, signed. -/
def State.tokens (s : State) (h set p : Nat) : Int := sgn 24 (s.rn (weirStat h set p))

/-- Units of a partition at a controller (R334 to R336): an enabled weir with tokens admits them; without tokens they wait
in CAP mode and are served behind others in SHARE mode. -/
def weirTake (p a units : Nat) : Dev Unit := do
  let s ← get
  let h := s.hubOf a
  let w := weirSet a
  let c := s.weir h w p
  if units = 0 ∨ !bit c 63 then pure ()
  else if 0 < s.tokens h w p then
    let st := weirStat h w p
    let s := s.setF st 47 24 (s.rf st 47 24 + units)
    set (s.setF st 23 0 (wrap 24 (s.tokens h w p - units)))
  else if bit c 62 then pure ()
  else stall

/-! ### The memory-side cache -/

/-- The line of a DPA in the cache; nothing valid when it is absent. -/
def State.line (s : State) (a : Nat) : MscLine := spGet dMsc s.msc (a / 256)
/-- A cache line replaced; a line with no valid sector is not present. -/
def State.setLine (s : State) (a : Nat) (l : MscLine) : State :=
  { s with msc := spSet dMsc s.msc (a / 256) (if l.valid = 0 then .none else l) }
/-- The 64-byte sectors of a line that `n` bytes at a DPA touch. -/
def sectorsOf (a n : Nat) : List Nat :=
  (List.range 4).filter fun i => decide (a % 256 < 64 * i + 64) && decide (64 * i < a % 256 + n)
/-- A sector's bytes in a line. -/
def MscLine.sector (l : MscLine) (i : Nat) : List Byte := (l.data.drop (64 * i)).take 64
/-- A line's bytes with some replaced from an offset on. -/
def putBytes (data : List Byte) (off : Nat) (bs : List Byte) : List Byte :=
  data.take off ++ bs ++ data.drop (off + bs.length)
/-- One sector of a line replaced and made valid. -/
def MscLine.put (l : MscLine) (i : Nat) (bs : List Byte) (dirty poison : Bool) : MscLine :=
  let d := if l.data = [] then List.replicate 256 0 else l.data
  { l with data := putBytes d (64 * i) bs, valid := setFld l.valid i i 1, dirty := setFld l.dirty i i (b2n dirty)
           poison := setFld l.poison i i (b2n poison), ce := setFld l.ce i i 0, ue := setFld l.ue i i 0 }
/-- One sector of a line dropped. -/
def MscLine.drop (l : MscLine) (i : Nat) : MscLine :=
  { l with valid := setFld l.valid i i 0, dirty := setFld l.dirty i i 0, poison := setFld l.poison i i 0
           ce := setFld l.ce i i 0, ue := setFld l.ue i i 0 }

/-- The dirty sectors of a line written back, and charged to the partition that allocated it (R314, R334). -/
def writeBack (a : Nat) : Dev Unit := do
  let s ← get
  let l := s.line a
  let ds := (List.range 4).filter fun i => bit l.dirty i
  if ds = [] then pure ()
  else
    weirTake l.part a ds.length
    let base := a / 256 * 256
    upd fun s => ds.foldl (fun s i => s.unitWrite (base + 64 * i) (l.sector i) (bit l.poison i)) s
    upd fun s => (s.perf (hubReg (s.hubOf a) 0x10118) ds.length).setLine a { l with dirty := 0 }

/-- A partition's MSC_PART_CFGn on the hub of a DPA. -/
def State.mscCfg (s : State) (a p : Nat) : Nat := s.rn (hubReg (s.hubOf a) (0x10000 + 8 * p))

/-- The least recently used of some lines. -/
def lruOf (ls : List (Nat × MscLine)) : Option (Nat × MscLine) :=
  ls.foldl (fun b x => match b with
    | none => some x
    | some y => if x.2.used < y.2.used then some x else some y) none

/-- A way for a new line of a partition (R319, R320): a free one of its ways, else the victim's, which is written back. While
the caches hold fewer lines than the partition has ways, one is free whatever the set. -/
def takeWay (p a : Nat) (keep : Bool) : Dev Nat := do
  let s ← get
  let cfg := s.mscCfg a p
  let ln := a / 256
  let inSet := s.msc.filter fun e =>
    s.hubOf (e.1 * 256) == s.hubOf a && Config.mscSet e.1 % 32768 == Config.mscSet ln % 32768
  let ways := (List.range 16).filter fun w => bit cfg w
  let mine := inSet.filter fun e => ways.contains e.2.way
  let keeps := inSet.filter fun e => e.2.keep && e.2.part == p
  let tooMany := keep && decide (fld cfg 19 16 ≤ s.msc.length) && decide (fld cfg 19 16 ≤ keeps.length)
  let victim : Option (Nat × MscLine) :=
    if tooMany then lruOf keeps
    else if decide (s.msc.length < ways.length) || (ways.find? fun w => !(inSet.any fun e => e.2.way == w)).isSome then none
    else (lruOf (mine.filter fun e => !e.2.keep)).orElse fun _ => lruOf mine
  match victim with
  | none => return (ways.find? fun w => !(inSet.any fun e => e.2.way == w)).getD 0
  | some v =>
    writeBack (v.1 * 256)
    upd fun s => s.setLine (v.1 * 256) .none
    return v.2.way

/-- The effective hint of a request (R316): its own, its page's, the partition's; keep with KEEP_MAX 0 is normal
(R321). -/
def State.hint (s : State) (p a own page : Nat) : Nat :=
  let cfg := s.mscCfg a p
  let h := if own ≠ 0 then own else if page ≠ 0 then page else fld cfg 21 20
  if h = 2 ∧ fld cfg 19 16 = 0 then 0 else h

/-- The line of a DPA touched now: its recency and keep mark under an effective hint other than stream (R317). -/
def touch (a h : Nat) : Dev Unit := upd fun s =>
  let l := s.line a
  if l.valid = 0 ∨ h = 1 then s
  else { s with mclk := s.mclk + 1 }.setLine a { l with used := s.mclk + 1, keep := l.keep || h == 2 }

/-- The errors of a line's sectors as a read meets them (R322). -/
def mscErrors (a : Nat) (secs : List Nat) : Dev Unit := upd fun s =>
  secs.foldl (fun s i =>
    let l := s.line a
    let h := s.hubOf a
    if !bit l.valid i then s
    else if bit l.ue i then
      let s := s.count (hubReg h 0x128) 1
      if bit l.dirty i then s.setLine a { l with poison := setFld l.poison i i 1, ue := setFld l.ue i i 0 }
      else s.setLine a (l.drop i)
    else if bit l.ce i then (s.count (hubReg h 0x120) 1).setLine a { l with ce := setFld l.ce i i 0 }
    else s) s

/-- Where a request to a DPA is served: MOVED frames forward it (R376). -/
def forward : Nat → Nat → Dev Nat
  | 0, a => return a
  | n + 1, a => do
    let s ← get
    let f := s.frame (frameOf a)
    if f.state = 2 then
      upd fun s => s.perf (hubReg (s.hubOf a) 0x30110) 1
      forward n (f.fwd * 65536 + a % 65536)
    else return a

/-- A read of `n` bytes within one line at a DPA for a partition, with its own hint and its page's (R314 to R322): the
bytes, and whether any is poisoned. -/
def hubRead (p own page a n : Nat) : Dev (List Byte × Bool) := do
  let a ← forward 16 a
  let s ← get
  if (s.frame (frameOf a)).state = 3 then return (List.replicate n 0, true)
  let secs := sectorsOf a n
  let h := s.hint p a own page
  let mark := own == 3
  mscErrors a secs
  let l := (← get).line a
  let missing := secs.filter fun i => !bit l.valid i
  let hub := s.hubOf a
  upd fun s => s.perf (hubReg hub (if missing = [] then 0x10100 else 0x10108)) 1
  weirTake p a missing.length
  let base := a / 256 * 256
  let got ← missing.mapM fun i => do
    let (bs, bad) ← unitRead (base + 64 * i)
    return (i, bs, bad)
  let full := got.foldl (fun (l : MscLine) g => l.put g.1 g.2.1 false g.2.2) l
  let out := (full.data.drop (a % 256)).take n
  let bad := secs.any fun i => bit full.poison i
  if missing ≠ [] ∧ h ≠ 1 ∧ !mark ∧ fld (s.mscCfg a p) 15 0 ≠ 0 then
    if l.valid = 0 then
      let w ← takeWay p a (h == 2)
      upd fun s => s.setLine a { full with part := p, way := w, keep := h == 2 }
    else upd fun s => s.setLine a full
  if mark then
    upd fun s =>
      let l := s.line a
      let gone := (secs.filter fun i => bit l.dirty i).length
      (s.perf (hubReg hub 0x10120) gone).setLine a (secs.foldl MscLine.drop l)
  else touch a h
  return (out, bad)

/-- Whether a snapshot still has to read the 4 KiB sector of a DPA (R465). -/
def State.snapHolds (s : State) (a : Nat) : Bool :=
  s.snaps.any fun n => !n.restore && bit (spGet dNat n.todo (frameOf a)) (a % 65536 / 4096)

/-- A write of bytes within one line at a DPA for a partition, as a hub accepts it (R314 to R319, R371, R375, R465,
R682). -/
def hubWrite (p own page a : Nat) (bs : List Byte) : Dev Unit := do
  let a ← forward 16 a
  let s ← get
  let f := s.frame (frameOf a)
  let hub := s.hubOf a
  if f.state = 3 then upd fun s => s.count (hubReg hub 0x140) 1
  else if f.state = 1 ∨ s.snapHolds a then stall
  else
    let k := a % 65536 / 4096
    upd fun s => s.setFrame (frameOf a)
      { f with dirty := setFld f.dirty k k 1, mstale := if f.mirror then setFld f.mstale k k 1 else f.mstale }
    upd fun s => s.perf (hubReg hub 0x10110) 1
    let n := bs.length
    let secs := sectorsOf a n
    let h := s.hint p a own page
    let l := s.line a
    let base := a / 256 * 256
    let whole (i : Nat) : Bool := decide (a % 256 ≤ 64 * i) && decide (64 * i + 64 ≤ a % 256 + n)
    let need' := secs.filter fun i => !bit l.valid i && !whole i
    let cached := l.valid ≠ 0 || (h != 1 && fld (s.mscCfg a p) 15 0 != 0)
    weirTake p a (need'.length + if cached then 0 else secs.length)
    let got ← need'.mapM fun i => do
      let (bs, bad) ← unitRead (base + 64 * i)
      return (i, bs, bad)
    let full := got.foldl (fun (l : MscLine) g => l.put g.1 g.2.1 false g.2.2) l
    let data := putBytes (if full.data = [] then List.replicate 256 0 else full.data) (a % 256) bs
    let merged := secs.foldl (fun (m : MscLine) i =>
      m.put i ((data.drop (64 * i)).take 64) true (!whole i && bit full.poison i)) full
    if cached then
      if l.valid = 0 then
        let w ← takeWay p a (h == 2)
        upd fun s => s.setLine a { merged with part := p, way := w, keep := h == 2 }
      else upd fun s => s.setLine a merged
      touch a h
    else
      upd fun s => secs.foldl (fun s i => s.unitWrite (base + 64 * i) (merged.sector i) (bit merged.poison i)) s

/-- The 256-byte-line pieces of `n` bytes at an address: address and length. -/
def piecesFrom : Nat → Nat → Nat → List (Nat × Nat)
  | 0, _, _ => []
  | fuel + 1, a, n =>
    if n = 0 then []
    else
      let k := min n (256 - a % 256)
      (a, k) :: piecesFrom fuel (a + k) (n - k)

/-- The 256-byte-line pieces of `n` bytes at an address. -/
def pieces (a n : Nat) : List (Nat × Nat) := piecesFrom (n / 256 + 2) a n

/-- Bytes read by DPA, by an engine for a partition. -/
def dpaRead (p own a n : Nat) : Dev (List Byte × Bool) := do
  let rs ← (pieces a n).mapM fun q => hubRead p own 0 q.1 q.2
  return (rs.flatMap Prod.fst, rs.any Prod.snd)

/-- Bytes written by DPA, by an engine for a partition. -/
def dpaWrite (p own a : Nat) (bs : List Byte) : Dev Unit :=
  forAll (pieces a bs.length) fun q => hubWrite p own 0 q.1 ((bs.drop (q.1 - a)).take q.2)

/-! ### Translation -/

/-- An address space's HGT_ASn_CFG; its FAULT, VSEL, INVAL, STATUS, PUBRUN and PUBPEND follow at steps of 8. -/
def asReg (n off : Nat) : Nat := 0x110000 + 0x1000 * n + off
/-- Whether an address space is in service for a partition (R349). -/
def State.asOk (s : State) (n p : Nat) : Bool := s.rb (asReg n 0) 63 && s.rf (asReg n 0) 62 60 == p

/-- The entry's defects that make it BAD_ENTRY at a level (R351 to R354), its KIND not being 0. -/
def State.badEntry (s : State) (lvl q0 q1 : Nat) : Bool :=
  let kind := fld q0 2 0
  fld q0 11 7 != 0 ||
  (match kind with
   | 1 => !(lvl == 1 || lvl == 2) || fld q0 6 3 != 0 || fld q0 63 42 != 0 || q1 != 0
   | 2 => lvl != 2 || fld q0 6 3 != 0 || fld q0 63 42 != 0 || fld q1 63 42 != 0 || fld q1 11 6 != 0
   | 3 =>
     q1 != 0 || fld q0 63 42 != 0 ||
     (if lvl = 3 then fld q0 15 12 != 0 || !s.dpaOk (fld q0 41 16 * 65536)
      else if lvl = 2 then fld q0 26 12 != 0 || !s.dpaOk (fld q0 41 27 * 2 ^ 27) ||
        !s.dpaOk (fld q0 41 27 * 2 ^ 27 + 2 ^ 27 - 1)
      else true)
   | 4 => lvl != 3 || fld q0 15 12 != 0 || fld q1 63 2 != 0
   | 5 => lvl != 3 || fld q0 63 48 != 0 || fld q0 15 12 != 0 || fld q1 63 32 != 0
   | _ => true)

/-- The leaf of an entry for a DVA (R351 to R353). -/
def leafOf (lvl q0 q1 va : Nat) : Leaf :=
  { kind := fld q0 2 0
    addr := if fld q0 2 0 = 3 then (if lvl = 2 then fld q0 41 27 * 2 ^ 27 + fld va 26 0
              else fld q0 41 16 * 65536 + fld va 15 0)
            else if fld q0 2 0 = 4 then fld q0 63 16 * 65536 + fld va 15 0
            else fld q0 47 16 * 65536 + fld va 15 0
    port := if fld q0 2 0 = 4 then fld q1 1 0 else fld q1 15 0
    ports := if fld q0 2 0 = 5 then fld q1 31 16 else 0
    hint := fld q0 6 5, r := bit q0 3, w := bit q0 4 }

/-- A DVA's index at a level (R350). -/
def vaIndex (lvl va : Nat) : Nat := if lvl = 1 then fld va 47 37 else if lvl = 2 then fld va 36 27 else fld va 26 16

/-- A leaf decided for an access (R353, R354). -/
def leafDecide (lf : Leaf) (lvl : Nat) (write inbound : Bool) : Except (Nat × Nat) Leaf :=
  if inbound && (lf.kind == 4 || lf.kind == 5) then .error (7, lvl)
  else if !(if write then lf.w else lf.r) then .error (5, lvl)
  else .ok lf

/-- The walk from the table at a DPA for a level on (R353, R354): the leaf with its level, or the cause and the level of
the entry that failed. -/
def walkFrom (p sel va : Nat) : Nat → Nat → Nat → Dev (Except (Nat × Nat) (Leaf × Nat))
  | 0, lvl, _ => return .error (4, lvl)
  | fuel + 1, lvl, tbl => do
    let at' := tbl + 16 * vaIndex lvl va
    if !(← get).granted p at' then return .error (4, max 1 (lvl - 1))
    let (bs, bad) ← dpaRead p 2 at' 16
    let q0 := leNat (bs.take 8)
    let q1 := leNat (bs.drop 8)
    if bad then return .error (6, lvl)
    if fld q0 2 0 = 0 then return .error (3, lvl)
    if (← get).badEntry lvl q0 q1 then return .error (4, lvl)
    match fld q0 2 0 with
    | 1 => walkFrom p sel va fuel (lvl + 1) (fld q0 41 12 * 4096)
    | 2 => walkFrom p sel va fuel 3 ((if bit sel (fld q1 5 0) then fld q1 41 12 else fld q0 41 12) * 4096)
    | _ => return .ok (leafOf lvl q0 q1 va, lvl)

/-- A translation in an address space (R349, R350, R353): `as` is `none` for a binding with V = 0. -/
def walk (as : Option Nat) (p sel va : Nat) : Dev (Except (Nat × Nat) (Leaf × Nat)) := do
  match as with
  | none => return .error (1, 0)
  | some n =>
    if !(← get).asOk n p then return .error (1, 0)
    if fld va 63 48 ≠ 0 then return .error (2, 0)
    walkFrom p sel va 3 1 ((← get).rf (asReg n 0) 41 12 * 4096)

/-- A failed translation recorded in HGT_ASn_FAULT when it holds none (R355). -/
def xlateFault (as : Option Nat) (cause lvl src va : Nat) : Dev Unit := upd fun s =>
  match as with
  | none => s
  | some n =>
    if s.rb (asReg n 8) 63 then s
    else s.setReg (asReg n 8) (BitVec.ofNat 64
      (2 ^ 63 + cause <<< 60 + lvl <<< 58 + (src % 256) <<< 48 + va % 2 ^ 48))

/-- A translation for an access of a master other than a tile's flume, with its fault recorded: the leaf, or the cause. -/
def translate (as : Option Nat) (p sel src va : Nat) (write inbound : Bool) : Dev (Except Nat Leaf) := do
  match ← walk as p sel va with
  | .error (c, l) => do
    xlateFault as c l src va
    return .error c
  | .ok (lf, l) =>
    match leafDecide lf l write inbound with
    | .error (c, l) => do
      xlateFault as c l src va
      return .error c
    | .ok lf => return .ok lf

/-- How an engine reaches memory: its master, partition, address space, effective selector value and master class. -/
structure View where
  who  : Master
  part : Nat
  as   : Option Nat
  sel  : Nat
  src  : Nat
  fn   : Option Nat
  deriving DecidableEq, Repr

/-- The function that a partition's host requests use on a port (R556). -/
def State.hostFn (s : State) (v : View) (port : Nat) : Option Nat :=
  match v.fn with
  | some f => some f
  | none => if s.rb (flushReg port v.part) 7 then some (s.rf (flushReg port v.part) 5 0) else none

/-- The failure of an access: a cause of R354, 0x10 a denial, 0x11 poisoned data, 0x12 a host or peer that does not
answer (R754). -/
abbrev Acc (α : Type) := Except Nat α

/-- One piece of a read in a view. `ext` is what a host or peer returns for it. -/
def pieceRead (v : View) (hint va n : Nat) (ext : Option (List Byte)) : Dev (Acc (List Byte)) := do
  match ← translate v.as v.part v.sel v.src va false false with
  | .error c => return .error c
  | .ok lf =>
    if lf.kind = 3 then
      match (← get).headgate v.who v.part false lf.addr with
      | some c => do
        upd fun s => s.deny v.who v.part c lf.addr va
        return .error 0x10
      | none => do
        let (bs, bad) ← hubRead v.part hint lf.hint lf.addr n
        return if bad then .error 0x11 else .ok bs
    else if lf.kind = 4 ∧ ((← get).hostFn v lf.port).isNone then return .error 4
    else match ext with
      | none => return .error 0x12
      | some bs => return .ok ((bs ++ List.replicate n 0).take n)

/-- Bytes read in a view; the first failing piece decides. -/
def readAll (v : View) (hint va0 : Nat) (ext : Option (List Byte)) : List (Nat × Nat) → Dev (Acc (List Byte))
  | [] => return .ok []
  | (va, n) :: rest => do
    match ← pieceRead v hint va n (ext.map fun bs => bs.drop (va - va0)) with
    | .error c => return .error c
    | .ok bs =>
      match ← readAll v hint va0 ext rest with
      | .error c => return .error c
      | .ok more => return .ok (bs ++ more)

/-- `n` bytes read at a DVA in a view; what lies behind host and peer leaves is taken from `ext`. -/
def vaRead (v : View) (hint va n : Nat) (ext : Option (List Byte)) : Dev (Acc (List Byte)) :=
  readAll v hint va ext (pieces va n)

/-- One piece of a write in a view. -/
def pieceWrite (v : View) (hint va : Nat) (bs : List Byte) : Dev (Acc Unit) := do
  match ← translate v.as v.part v.sel v.src va true false with
  | .error c => return .error c
  | .ok lf =>
    if lf.kind = 3 then
      match (← get).headgate v.who v.part true lf.addr with
      | some c => do
        upd fun s => s.deny v.who v.part c lf.addr va
        return .error 0x10
      | none => do
        hubWrite v.part hint lf.hint lf.addr bs
        return .ok ()
    else if lf.kind = 4 then
      match (← get).hostFn v lf.port with
      | none => return .error 4
      | some f => do
        upd fun s => s.toHost lf.port f lf.addr bs
        return .ok ()
    else if ← sendPeer v.who v.part lf.ports lf.port lf.addr hint true bs.length bs then return .ok ()
    else return .error 0x12

/-- Pieces written in order up to the first that fails. -/
def writeAll (v : View) (hint va0 : Nat) (bs : List Byte) : List (Nat × Nat) → Dev (Acc Unit)
  | [] => return .ok ()
  | (va, n) :: rest => do
    match ← pieceWrite v hint va ((bs.drop (va - va0)).take n) with
    | .error c => return .error c
    | .ok () => writeAll v hint va0 bs rest

/-- Bytes written at a DVA in a view. -/
def vaWrite (v : View) (hint va : Nat) (bs : List Byte) : Dev (Acc Unit) :=
  writeAll v hint va bs (pieces va bs.length)

/-- The current selector value of an address space. -/
def State.vsel (s : State) (as : Option Nat) : Nat :=
  match as with
  | none => 0
  | some n => s.rn (asReg n 0x10)

/-- The address space that TIL_CTX_AS binds to a context (R348). -/
def State.tileAs (s : State) (t c : Nat) : Option Nat :=
  let v := ((s.tile t).reg 0).toNat
  if bit v (8 * c + 7) then some (fld v (8 * c + 5) (8 * c)) else none

/-- How a unit of a tile reaches memory for an instruction of the running kernel (R346, R357, R671). -/
def State.tileView (s : State) (t c sel src : Nat) : View :=
  { who := .tile t, part := s.tilePart t, as := s.tileAs t c, sel := sel, src := src, fn := none }

/-- A queue's partition. -/
def State.qPart (s : State) (q : Nat) : Nat := s.rf (qReg q 0) 62 60
/-- How an engine that serves a command of a queue reaches memory (R346, R544, R671). -/
def State.queueView (s : State) (q src : Nat) : View :=
  let as := some (s.rf (qReg q 0) 59 54)
  { who := if q < 8192 then .queue q else .media 0, part := s.qPart q, as := as, sel := s.vsel as, src := src
    fn := some (s.qFn q) }

end Sys2Proof.Machine
end

