-- ==== Sys2Proof/Machine/Records.lean ====
section
/-! DEFINITION. What the device writes down: completion records of command queues (R129, R549, R550) and the replay
journal (R472 to R478). -/

namespace Sys2Proof.Machine

/-- A 32-byte completion record (R129). -/
def recordBytes (seqno status type failTile tag exc detail time : Nat) : List Byte :=
  leBytes 4 seqno ++ leBytes 2 status ++ leBytes 1 type ++ leBytes 1 failTile ++ leBytes 8 tag ++ leBytes 4 exc ++
    leBytes 4 detail ++ leBytes 8 time

/-- A queue beyond its registers. -/
def State.cq (s : State) (q : Nat) : CmdQ := spGet dCmdQ s.queues q
/-- A queue's part beyond its registers replaced. -/
def State.setCq (s : State) (q : Nat) (c : CmdQ) : State := { s with queues := spSet dCmdQ s.queues q c }

/-- The interrupt message of a queue (R550). -/
def State.queueIrq (s : State) (q : Nat) : State :=
  let s := s.setCq q { s.cq q with unrep := 0 }
  s.emit (.msix (s.qPort q) (s.qFn q) (s.rf (qReg q 0x30) 58 48))

/-- A record written to a queue's completion ring (R549), and the interrupt it may bring (R550). -/
def ringRecord (q : Nat) (bytes : List Byte) : Dev Unit := do
  let s ← get
  let cprod := s.rf (qReg q 0x28) 63 32
  let slot := cprod % s.qSize q
  let _ ← vaWrite (s.queueView q 4) 0 (s.rf (qReg q 0x18) 47 6 * 64 + 32 * slot) bytes
  upd fun s => s.setF (qReg q 0x28) 63 32 (cprod + 1)
  upd fun s =>
    let c := s.cq q
    let n := c.unrep + 1
    let s := s.setCq q { c with unrep := n, since := if c.unrep = 0 then s.time else c.since }
    let irq := s.rn (qReg q 0x30)
    if bit irq 63 && (decide (max 1 (fld irq 31 16) ≤ n) || fld irq 15 0 == 0) then s.queueIrq q else s

/-- The records that are there at the front of those owed, in command order. -/
def readyRecords : List (Nat × Option (List Byte)) → List (List Byte) × List (Nat × Option (List Byte))
  | (_, some r) :: rest => let (a, b) := readyRecords rest; (r :: a, b)
  | l => ([], l)

/-- A command of a queue completes with a record: targets 4 and 5 and media rings write it at once, the
others in command order (R549, R588). -/
def complete (q seqno : Nat) (bytes : List Byte) : Dev Unit := do
  let s ← get
  let c := s.cq q
  let tgt := s.rf (qReg q 0) 53 50
  if tgt = 4 ∨ tgt = 5 ∨ 8192 ≤ q then
    upd fun _ => s.setCq q { c with owed := c.owed.filter fun e => e.1 != seqno }
    ringRecord q bytes
  else
    let owed := c.owed.map fun e => if e.1 = seqno then (e.1, some bytes) else e
    let (now, later) := readyRecords owed
    upd fun _ => s.setCq q { c with owed := later }
    forAll now (ringRecord q)

/-- A command of a queue completes with a status and a detail, and nothing of a launch. -/
def completeWith (q seqno type status detail : Nat) : Dev Unit := do
  complete q seqno (recordBytes seqno status type 0xFF 0 0 detail (← get).time)

/-- The oldest accepted command of a queue taken, when its TYPE is the one asked for; a queue that is frozen, or whose
oldest command is another, has none to give. -/
def takeCmd (q type : Nat) : Dev QCmd := do
  let c := (← get).cq q
  match c.cmds with
  | [] => stall
  | e :: rest =>
    if (e.bytes.headD 0).toNat = type then
      upd fun s => s.setCq q { c with cmds := rest }
      return e
    else stall

/-- A field of a command's bytes. -/
def QCmd.f (c : QCmd) (off n : Nat) : Nat := leNat ((c.bytes.drop off).take n)
/-- Whether some bytes of a command are all 0. -/
def QCmd.zero (c : QCmd) (off n : Nat) : Bool := ((c.bytes.drop off).take n).all (· == 0)

/-! ### The journal -/

/-- Partition `p`'s LOG_JRN_CFGn; BASE, STEP and STATUS follow. -/
def jrnReg (p off : Nat) : Nat := 0x40100 + 0x20 * p + off
/-- The journal mode in force for a partition: off without LIC_REPLAY. -/
def State.jrnMode (s : State) (p : Nat) : Nat := if s.lic 5 then s.rf (jrnReg p 0) 63 62 else 0
/-- The bytes of a step region. -/
def State.jrnSize (s : State) (p : Nat) : Nat := s.rf (jrnReg p 0) 31 0 * 65536
/-- The address of the region of a step (R472). -/
def State.jrnBase (s : State) (p step : Nat) : Nat :=
  s.rf (jrnReg p 8) 47 16 * 65536 + step % (s.rf (jrnReg p 0) 47 40 + 1) * s.jrnSize p
/-- How the journal's area is reached on behalf of a master. -/
def State.jrnView (s : State) (who : Master) (p : Nat) : View :=
  let as := some (s.rf (jrnReg p 0) 53 48)
  { who := who, part := p, as := as, sel := s.vsel as, src := 1, fn := none }

/-- The bytes of a step header (R474). -/
def jrnHeader (step st used first last : Nat) : List Byte :=
  leBytes 4 0x4C4E524A ++ leBytes 4 step ++ leBytes 1 st ++ List.replicate 7 0 ++ leBytes 8 used ++ leBytes 8 first ++
    leBytes 8 last ++ List.replicate 24 0

/-- The next SEQ of a TYPE, SRC and UNIT of a partition's step (R474). -/
def nextJseq (p type src unit : Nat) : Dev Nat := do
  let key := ((p * 256 + type) * 8 + src) * 65536 + unit
  let n := spGet dNat (← get).jseq key
  upd fun s => { s with jseq := spSet dNat s.jseq key (n + 1) }
  return n

/-- One entry recorded in a step's region, or the region's overflow (R474, R476). -/
def jrnRecord (who : Master) (p step type src unit key : Nat) (payload : List Byte) : Dev Unit := do
  let seq ← nextJseq p type src unit
  let s ← get
  let v := s.jrnView who p
  let base := s.jrnBase p step
  match ← vaRead v 0 base 64 none with
  | .error _ => pure ()
  | .ok h =>
    let used := leNat ((h.drop 0x10).take 8)
    let st := leNat ((h.drop 8).take 1)
    let first := leNat ((h.drop 0x18).take 8)
    let size := 16 + ceilDiv payload.length 16 * 16
    if st = 2 then pure ()
    else if s.jrnSize p < 64 + used + size then do
      upd fun s => s.setF (jrnReg p 0x18) 63 63 1
      let _ ← vaWrite v 0 base (jrnHeader step 2 used first (leNat ((h.drop 0x20).take 8)))
      pure ()
    else do
      let entry := leBytes 1 type ++ leBytes 1 src ++ leBytes 2 unit ++ leBytes 4 seq ++ leBytes 4 key ++
        leBytes 2 payload.length ++ leBytes 2 0 ++ payload ++
        List.replicate (size - 16 - payload.length) 0
      let _ ← vaWrite v 0 (base + 64 + used) entry
      let _ ← vaWrite v 0 base (jrnHeader step 1 (used + size) (if used = 0 then s.time else first) s.time)
      upd fun s => s.setF (jrnReg p 0x18) 31 0 (min ((used + size) / 16) (2 ^ 32 - 1))

/-- The payload of the entry of a TYPE, SRC, UNIT and SEQ in a step's region, searched from an offset (R477). -/
def jrnFind (v : View) (base type src unit seq used : Nat) : Nat → Nat → Dev (Option (List Byte))
  | 0, _ => return none
  | fuel + 1, off => do
    if used ≤ off then return none
    match ← vaRead v 0 (base + 64 + off) 16 none with
    | .error _ => return none
    | .ok h =>
      let len := leNat ((h.drop 12).take 2)
      if leNat (h.take 1) = type ∧ leNat ((h.drop 1).take 1) = src ∧ leNat ((h.drop 2).take 2) = unit ∧
          leNat ((h.drop 4).take 4) = seq then
        match ← vaRead v 0 (base + 64 + off + 16) len none with
        | .error _ => return none
        | .ok bs => return some bs
      else jrnFind v base type src unit seq used fuel (off + 16 + ceilDiv len 16 * 16)

/-- The recorded payload of the next entry of a TYPE, SRC and UNIT (R477). -/
def jrnLookup (who : Master) (p step type src unit : Nat) : Dev (Option (List Byte)) := do
  let seq ← nextJseq p type src unit
  let s ← get
  let v := s.jrnView who p
  let base := s.jrnBase p step
  match ← vaRead v 0 base 64 none with
  | .error _ => return none
  | .ok h =>
    let used := leNat ((h.drop 0x10).take 8)
    jrnFind v base type src unit seq used (used / 16 + 1) 0

/-- A value passes through the journal in a mode (R473, R477): recorded, or replaced by its record; a live value that
differs sets DIVERGE, and a value without a record ends the task with JRN_DIVERGED. -/
def jrnPass (who : Master) (p mode step type src unit key : Nat) (live : List Byte) : Dev (List Byte) := do
  if mode = 1 then do
    jrnRecord who p step type src unit key live
    return live
  else if mode = 2 then do
    match ← jrnLookup who p step type src unit with
    | none => refuse 0x0B0B
    | some v => do
      if v ≠ live then upd fun s => s.setF (jrnReg p 0x18) 62 62 1
      return v
  else return live

/-- A value of an instruction of tile `t`'s running kernel passes through the journal. -/
def tileJournal (t type key : Nat) (live : List Byte) : Dev (List Byte) := do
  let s ← get
  match (s.tile t).run with
  | none => return live
  | some r => jrnPass (.tile t) (s.tilePart t) r.jmode r.jstep type 1 t key live

/-- An instruction's effect that reaches beyond its tile: it reads the tile from the state, and what it answers is taken
with the state it leaves. -/
def inDev (t : Nat) (m : Dev Act) (s : State) (tl : Tile) : State × Act :=
  let s := s.setTile t tl
  match m.go s with
  | (.ok a, s') => (s', a)
  | (.error (.abort c d), s') => (s', .abort (s'.tile t) c d)
  | (.error .wait, _) => (s, .wait tl [])

/-- A tile-level computation inside an effect that reaches beyond the tile. -/
def liftEx {α : Type} (r : Ex α) : Dev α :=
  match r with
  | .ok a => pure a
  | .error e => throw e

end Sys2Proof.Machine
end

