-- ==== Sys2Proof/Machine/Matrix.lean ====
section
/-! DEFINITION. The matrix engine: MMAC, MZERO, MDRAIN, MPAD and MLEN (R54 to R56, R138 to R168, R753). -/

namespace Sys2Proof.Machine

/-- Whether a format may be an MMAC operand (R139). -/
def meFmtOk (f : Nat) : Bool := isBlockFmt f || f == 9 || f == 10

/-- A specifier as an operand before any slot is read: its shape and format, and the checks that belong to it. -/
def meOpnd (tl : Tile) (kx : Kx) (sp n : Nat) : Opnd :=
  if specKind sp = 3 then opndOfTd (specTd (tl.ctx kx.c) sp)
  else opndOfRing (tl.ring kx.k (fld sp 29 24)) n []

/-- R108 for a descriptor operand, R280 for a ring. -/
def meTdCheck (tl : Tile) (kx : Kx) (sp : Nat) : Ex Unit :=
  if specKind sp = 3 then (specTd (tl.ctx kx.c) sp).check
  else
    let r := fld sp 29 24
    let c := spGet dChan tl.chans r
    need (!(decide (r < 32) && (c.st == 0 || c.isWrite))) 0x703

/-- The space rule of R141 for an operand. -/
def meSpaceCheck (tl : Tile) (kx : Kx) (sp : Nat) : Ex Unit :=
  if specKind sp = 3 then need (specTd (tl.ctx kx.c) sp).inCistern 0x401 else .ok ()

/-- The alignment rule of R141 for an operand: every plane base it has, and ROW_PITCH of a scalar format. -/
def meAlignCheck (tl : Tile) (kx : Kx) (sp : Nat) : Ex Unit :=
  if specKind sp = 3 then
    let d := specTd (tl.ctx kx.c) sp
    need (d.elem % 64 == 0 && (!isBlockFmt d.fmt || d.scale % 64 == 0) && (!d.outl || d.outlB % 64 == 0) &&
      (d.escC == 0 || d.escB % 64 == 0) && (isBlockFmt d.fmt || d.rowPitch % 64 == 0)) 0x404
  else .ok ()

/-- The checks of R753 on an MMAC, in their order. -/
def mmacChecks (tl : Tile) (kx : Kx) (shape n sa sb : Nat) : Ex Unit := do
  let (M, N, _) := shapeOf shape
  meTdCheck tl kx sa
  meTdCheck tl kx sb
  let a := meOpnd tl kx sa n
  let b := meOpnd tl kx sb n
  need (meFmtOk a.fmt) 0x403
  need (meFmtOk b.fmt) 0x403
  meSpaceCheck tl kx sa
  meSpaceCheck tl kx sb
  meAlignCheck tl kx sa
  meAlignCheck tl kx sb
  need (decide (a.rows ≤ M)) 0x402
  need (decide (b.rows ≤ N)) 0x402
  need (a.cols == b.cols) 0x402

/-- The slots of a list of ring specifiers read in order (R87, R148), from the images already read; a wait or an abort
leaves what was read before it. -/
def takeSlots (kx : Kx) : List Nat → Tile → List Image → Tile × List Image × Option Stop
  | [], tl, got => (tl, got, none)
  | sp :: sps, tl, got =>
    match ringTake tl kx sp with
    | .ok (tl', im) => takeSlots kx sps tl' (got ++ [im])
    | .error e => (tl, got, some e)

/-- The ring specifiers an MMAC reads, slot by slot. -/
def slotSpecs (n sa sb : Nat) : List Nat :=
  (List.range n).flatMap fun _ => (if specKind sa = 2 then [sa] else []) ++ (if specKind sb = 2 then [sb] else [])

/-- Every second image, of one of two rings read together. -/
def alternate : Bool → List Image → List Image
  | _, [] => []
  | keep, im :: ims => if keep then im :: alternate false ims else alternate true ims

/-- The images of an operand out of those read. -/
def opndImages (sp other : Nat) (first : Bool) (got : List Image) : List Image :=
  if specKind sp ≠ 2 then [] else if specKind other ≠ 2 then got else alternate first got

/-- The product of two values as one term of a group's exact sum (R54). -/
def dotGroup (a b : List Ext) : Ext :=
  (List.zipWith Ext.mul a b).foldl Ext.add (.fin Dy.zero)

/-- One group added into an accumulator element: the exact contribution, +0.0 when it is zero, with one RNE rounding
(R54), and the events of R56. -/
def accGroup (acc : Nat) (g : Ext) : Nat × Exc :=
  let g := if g.isZero then .fin Dy.zero else g
  let a := fp32.dec acc
  let r := fp32.enc .rne false 0 (a.add g)
  let out := fp32.dec r.bits
  (r.bits, { meOvf := b2n (a.isFin && g.isFin && !out.isFin), meNan := b2n (out.isNan && !a.isNan) })

/-- An element accumulated over its groups in ascending order (R54, R140). -/
def accElem (a0 : Nat) (as bs : List Grp) : Nat × Exc :=
  (List.zip as bs).foldl (fun st p =>
    let o := accGroup st.1 (dotGroup p.1.vals p.2.vals)
    (o.1, st.2.plus o.2)) (a0, .zero)

/-- Group `g`'s values with those at K indices of LEN_K or more replaced by the pad (R157). -/
def padGroup (len pad g : Nat) (gr : Grp) : Grp :=
  { gr with vals := gr.vals.mapIdx fun j v => if len ≤ 32 * g + j then bf16.dec pad else v }

/-- The ECLK cycles of a format's group step (R159). -/
def tMac (f : Nat) : Nat := if 8 ≤ f then 32 else if f = 4 then 8 else if f = 6 then 4 else 16

/-- The element bytes of one group. -/
def grpElemBytes (f : Nat) (g : Grp) : Nat := if isBlockFmt f then blockBytes f else g.vals.length * scalarBytes f
/-- The side bytes of one group (R159). -/
def grpSideBytes (f : Nat) (outl : Bool) (g : Grp) : Nat :=
  if isBlockFmt f then 1 + (if outl then 6 else 0) + 64 * g.esc else 0

/-- The cycle counts of one group step over the groups it reads (R159): the excess of the port terms over T_mac, and
of the outlier term over the other three. -/
def stepCycles (tm : Nat) (a b : Opnd) (ga gb : List Grp) : Nat × Nat :=
  let e := (ga.map (grpElemBytes a.fmt)).sum + (gb.map (grpElemBytes b.fmt)).sum
  let sd := (ga.map (grpSideBytes a.fmt a.outl)).sum + (gb.map (grpSideBytes b.fmt b.outl)).sum
  let v := ((ga ++ gb).map Grp.ents).sum
  let x := ((ga ++ gb).map Grp.esc).sum
  let port := max tm (max (ceilDiv e 2048) (ceilDiv sd 768))
  (port - tm, ceilDiv (v + 32 * x) 32 - port)

/-- Every position of a region given its element by a function of the region row and column, the events summed. -/
def mapRegion (tl : Tile) (b r0 c0 m n : Nat) (f : Nat → Nat → Nat → Nat × Exc) : Tile × Exc :=
  (List.range m).foldl (fun st i => (List.range n).foldl (fun st j =>
    let o := f i j (st.1.accGet b (r0 + i) (c0 + j))
    (st.1.accSet b (r0 + i) (c0 + j) o.1, st.2.plus o.2)) st) (tl, Exc.zero)

/-- A region whose contents the spec leaves unspecified: every element takes a free value (R165). -/
def freeRegion (t : Nat) (tl : Tile) (b r0 c0 m n : Nat) : Tile :=
  let tl' := (mapRegion tl b r0 c0 m n fun i j _ =>
    ((Config.freeValue t (tl.free + n * i + j)).toNat % 2 ^ 32, Exc.zero)).1
  { tl' with free := tl.free + m * n }

/-- The arithmetic of an MMAC whose slots have all been read (R54, R138, R149, R157, R158, R159). -/
def mmacCompute (tl : Tile) (kx : Kx) (w : IWord) (x : W64) (got : List Image) : Ex Tile := do
  let imm := w.imm.toNat
  let n := fld imm 7 0 + 1
  let (sa, sb) := (specA x, specB x)
  let (r0, c0, M, N) := regionOf w.fn.toNat imm
  let f := (shapeOf w.fn.toNat).2.2
  let ctx := tl.ctx kx.c
  let a := { meOpnd tl kx sa n with images := opndImages sa sb true got }
  let b := { meOpnd tl kx sb n with images := opndImages sb sa false got }
  let rm := min a.rows ctx.lenM
  let rn := min b.rows ctx.lenN
  let K := a.cols
  let skip := ctx.lenM = 0 || ctx.lenN = 0 || ctx.lenK = 0
  let gs := if skip then 0 else ceilDiv (min ctx.lenK K) 32
  let pad := ctx.mePad.toNat
  let fix (p : Nat) (row : List Grp) : List Grp :=
    if ctx.lenK < K then row.mapIdx fun g gr => padGroup ctx.lenK p g gr else row
  let as ← a.read tl kx.k (if skip then 0 else rm) gs
  let bs ← b.read tl kx.k (if skip then 0 else rn) gs
  let as := as.map (fix (fld pad 15 0))
  let bs := bs.map (fix (fld pad 31 16))
  let (bank, fill, zero) := (w.dst.toNat, bit imm 20, bit imm 19)
  let (tl', ev) := mapRegion tl bank r0 c0 M N fun i j old =>
    if i < rm ∧ j < rn then accElem (if zero then 0 else old) (as.getD i []) (bs.getD j [])
    else (if fill then fld pad 63 32 else old, Exc.zero)
  let steps := ceilDiv gs f
  let tm := max (tMac a.fmt) (tMac b.fmt)
  let cyc := (List.range steps).map fun st =>
    stepCycles tm a b (as.flatMap fun r => (r.drop (st * f)).take f) (bs.flatMap fun r => (r.drop (st * f)).take f)
  .ok ((tl'.count kx.c ev).perfs
    [(0x4000, steps * tm), (0x4008, steps), (0x4010, ceilDiv (ceilDiv K 32) f - steps),
     (0x4018, (cyc.map Prod.fst).sum), (0x4020, (cyc.map Prod.snd).sum)])

/-- The whole of an MMAC on its tile. -/
def mmacBody (tl : Tile) (kx : Kx) (w : IWord) (x : W64) : Act :=
  let imm := w.imm.toNat
  let n := fld imm 7 0 + 1
  let (r0, c0, M, N) := regionOf w.fn.toNat imm
  let lost (tl : Tile) : Tile := freeRegion kx.t tl w.dst.toNat r0 c0 M N
  let first : Ex Unit := if kx.got = [] then mmacChecks tl kx w.fn.toNat n (specA x) (specB x) else .ok ()
  match first with
  | .error (.abort c d) => .abort (lost tl) c d
  | .error .wait => .wait tl kx.got
  | .ok () =>
    match takeSlots kx ((slotSpecs n (specA x) (specB x)).drop kx.got.length) tl kx.got with
    | (tl', _, some (.abort c d)) => .abort (lost tl') c d
    | (tl', got, some .wait) => .wait tl' got
    | (tl', got, none) =>
      match mmacCompute tl' kx w x got with
      | .ok r => .done r
      | .error (.abort c d) => .abort (lost tl') c d
      | .error .wait => .wait tl' got

/-- MMAC (R138 to R149, R157, R158). -/
def execMmac (t : Nat) (w : IWord) (x : W64) (s : State) : Res :=
  tileInstr s t (.mmac t w x) 0x20 w x fun tl kx => mmacBody tl kx w x

/-- MZERO (R150). -/
def execMzero (t : Nat) (w : IWord) (s : State) : Res :=
  tileInstr s t (.mzero t w) 0x21 w 0 fun tl kx =>
    let imm := w.imm.toNat
    let (r0, c0, M, N) := regionOf w.fn.toNat imm
    let v := if bit imm 20 then fld (tl.ctx kx.c).mePad.toNat 63 32 else 0
    .done (mapRegion tl w.dst.toNat r0 c0 M N fun _ _ _ => (v, Exc.zero)).1

/-- The checks of R753 on an MDRAIN's destination, in their order. -/
def mdrainChecks (d : TD) (shape : Nat) : Ex Unit := do
  let (M, N, _) := shapeOf shape
  d.check
  need (d.fmt == 8 || d.fmt == 9 || d.fmt == 10) 0x403
  need (bit d.sp 0) 0x401
  need (d.elem % 64 == 0 && d.rowPitch % 64 == 0) 0x404
  need (decide (d.rows ≤ M ∧ d.cols ≤ N)) 0x402

/-- Rows of bytes written at kernel offsets, up to the first that leaves the allocation (R102). -/
def writeRows (k : LKernel) : List (Nat × List Byte) → Tile → Tile × Option Stop
  | [], tl => (tl, none)
  | (off, bs) :: rest, tl =>
    match cisWrite tl k off bs with
    | .ok tl' => writeRows k rest tl'
    | .error e => (tl, some e)

/-- A tile after its rows are written, or the abort. -/
def Act.ofRows (r : Tile × Option Stop) (after : Tile → Tile) : Act :=
  match r with
  | (tl, none) => .done (after tl)
  | (tl, some (.abort c d)) => .abort tl c d
  | (tl, some .wait) => .wait tl []

/-- MDRAIN (R151, R152): region rows to descriptor rows, scaled by α when SCALE is 1, rounded once. -/
def execMdrain (t : Nat) (w : IWord) (x : W64) (s : State) : Res :=
  tileInstr s t (.mdrain t w x) 0x22 w x fun tl kx =>
    let imm := w.imm.toNat
    let d := specTd (tl.ctx kx.c) (specA x)
    let (r0, c0, M, N) := regionOf w.fn.toNat imm
    let bank := w.sa.toNat
    match mdrainChecks d w.fn.toNat with
    | .error (.abort c e) => .abort tl c e
    | .error .wait => .wait tl []
    | .ok () =>
      let alpha := fp32.dec ((tl.s kx w.sb).toNat % 2 ^ 32)
      let f := scalarFmt d.fmt
      let out (i j : Nat) : Nat × Exc :=
        let v := tl.accVal bank (r0 + i) (c0 + j)
        let (v', nan) := if bit imm 20 then (alpha.mul v, alpha.isNan || v.isNan) else (v, v.isNan)
        deliver f (rndW w) (satW w) (tdDraw kx.samp d.tid (i * d.cols + j)) nan v'
      let cells := (List.range d.rows).map fun i => (List.range d.cols).map fun j => out i j
      let rows := cells.mapIdx fun i row =>
        (d.elem + i * d.rowPitch, row.flatMap fun c => leBytes (scalarBytes d.fmt) c.1)
      let ev := Exc.sum (cells.flatMap fun row => row.map Prod.snd)
      let clear (tl : Tile) : Tile :=
        if bit imm 19 then (mapRegion tl bank r0 c0 M N fun _ _ _ => (0, Exc.zero)).1 else tl
      Act.ofRows (writeRows kx.k rows tl) fun tl => (clear tl).count kx.c ev

/-- The presets of MPAD FN 1 (R154). -/
def mpadPreset (n : Nat) : Nat :=
  if n = 0 then 0 else if n = 1 then 0xFF7FFFFF else if n = 2 then 0xFF800000 else 0x7F7FFFFF

/-- MPAD (R153, R154). -/
def execMpad (t : Nat) (w : IWord) (s : State) : Res :=
  tileInstr s t (.mpad t w) 0x23 w 0 fun tl kx =>
    let v (old : W64) : W64 := if w.fn = 0 then tl.s kx w.sa
      else BitVec.ofNat 64 (setFld old.toNat 63 32 (mpadPreset (fld w.imm.toNat 1 0)))
    .done (tl.upd kx fun c => { c with mePad := v c.mePad })

/-- The value MLEN writes from a scalar register (R156). -/
def mlenVal (v : W64) : Nat := (max 0 (sgn 32 v.toNat)).toNat

/-- MLEN (R155, R156). -/
def execMlen (t : Nat) (w : IWord) (s : State) : Res :=
  tileInstr s t (.mlen t w) 0x24 w 0 fun tl kx =>
    let v := mlenVal (tl.s kx w.sa)
    .done (tl.upd kx fun c =>
      if w.fn = 0 then { c with lenM := v } else if w.fn = 1 then { c with lenN := v }
      else if w.fn = 2 then { c with lenK := v }
      else { c with lenM := 0x7FFFFFFF, lenN := 0x7FFFFFFF, lenK := 0x7FFFFFFF })

end Sys2Proof.Machine
end

