-- ==== Sys2Proof/Machine/Vector.lean ====
section
/-! DEFINITION. The vector unit: lane arithmetic, comparison, conversion, loads and stores, reductions, block
encoding and widening, permutes and bank moves (R169 to R188, R48 to R53). -/

namespace Sys2Proof.Machine

/-- Lanes 0 to 255. -/
def lanes : List Nat := List.range 256

/-- A bit of a VU instruction's predicate. -/
def laneOn (tl : Tile) (kx : Kx) (w : IWord) (l : Nat) : Bool := ((tl.ctx kx.c).predOf w).getLsbD l

/-- Every enabled lane of v[r] takes the value of a function of its lane, from a tile's state before; the events are
counted. -/
def mapLanes (tl : Tile) (kx : Kx) (w : IWord) (r : Nat) (f : Nat → Nat × Exc) : Tile :=
  let o := lanes.foldl (fun st l =>
    if laneOn tl kx w l then (let p := f l; (st.1.vSet r l p.1, st.2.plus p.2)) else st) (tl, Exc.zero)
  o.1.count kx.c o.2

/-- A VU performance entry: busy cycles (R199, R203). -/
def Tile.vuBusy (tl : Tile) (n : Nat) : Tile := tl.perf 0x2040 n

/-- The integer operations of VOP on 32 bits (R174, R176): `sgnd` for the i32 form. -/
def vopInt (fn : Nat) (sgnd : Bool) (a b c : W32) : W32 :=
  match fn with
  | 0 => a + b
  | 1 => a - b
  | 2 => a * b
  | 3 => a * b + c
  | 4 => c - a * b
  | 5 => if (if sgnd then a.slt b else a.ult b) then a else b
  | 6 => if (if sgnd then a.slt b else a.ult b) then b else a
  | 7 => if sgnd && a.msb then -a else a
  | 8 => -a
  | 9 => a &&& b
  | 10 => a ||| b
  | 11 => a ^^^ b
  | 12 => a <<< (b.toNat % 32)
  | 13 => if sgnd then a.sshiftRight (b.toNat % 32) else a >>> (b.toNat % 32)
  | _ => a

/-- The bits of an exact result in a format: nothing to round. -/
def exactBits (f : FFmt) (e : Ext) : Nat := (f.enc .rne false 0 e).bits

/-- The floating operations of VOP on one element of a format, and its events (R171, R174 to R176). -/
def vopFp (f : FFmt) (fn : Nat) (r : Rnd) (sat : Bool) (D a b c : Nat) : Nat × Exc :=
  let va := f.dec a
  let vb := f.dec b
  let vc := f.dec c
  let nan2 := va.isNan || vb.isNan
  match fn with
  | 0 => deliver f r sat D nan2 (va.add vb)
  | 1 => deliver f r sat D nan2 (va.sub vb)
  | 2 => deliver f r sat D nan2 (va.mul vb)
  | 3 => deliver f r sat D (nan2 || vc.isNan) ((va.mul vb).add vc)
  | 4 => deliver f r sat D (nan2 || vc.isNan) ((va.mul vb).neg.add vc)
  | 5 => (exactBits f (va.min' vb), .zero)
  | 6 => (exactBits f (va.max' vb), .zero)
  | 7 => (exactBits f va.abs, .zero)
  | _ => (exactBits f va.neg, .zero)

/-- getexp of R174: the unbiased exponent as i32. -/
def getExp (a : Nat) : Nat :=
  match fp32.dec a with
  | .fin d => if d.isZero then 0x80000000 else wrap 32 d.log2
  | _ => 0x7FFFFFFF

/-- getmant of R174: the significand in [1, 2), with the sign. -/
def getMant (a : Nat) : Nat :=
  match fp32.dec a with
  | .fin d => if d.isZero then a else (fp32.round .rne false 0 (d.shift (-d.log2))).bits
  | _ => fp32.nanBits

/-- One lane of VOP or VOPB in form TY (R169, R170, R174). `draw i` is the draw of lane index `i`. -/
def vopLane (ty fn : Nat) (r : Rnd) (sat : Bool) (draw : Nat → Nat) (l a b c : Nat) : Nat × Exc :=
  if 9 ≤ fn ∧ fn ≤ 11 then ((vopInt fn false (BitVec.ofNat 32 a) (BitVec.ofNat 32 b) 0).toNat, .zero)
  else if 2 ≤ ty then
    ((vopInt fn (ty == 2) (BitVec.ofNat 32 a) (BitVec.ofNat 32 b) (BitVec.ofNat 32 c)).toNat, .zero)
  else if fn = 14 then (getExp a, .zero)
  else if fn = 15 then (getMant a, .zero)
  else if ty = 0 then vopFp fp32 fn r sat (draw l) a b c
  else
    let h (i : Nat) : Nat × Exc := vopFp bf16 fn r sat (draw (2 * l + i)) (fld a (16 * i + 15) (16 * i))
      (fld b (16 * i + 15) (16 * i)) (fld c (16 * i + 15) (16 * i))
    ((h 0).1 + (h 1).1 * 65536, (h 0).2.plus (h 1).2)

/-- VOP (R174 to R176). -/
def execVop (t : Nat) (w : IWord) (s : State) : Res :=
  tileInstr s t (.vop t w) 0x30 w 0 fun tl kx =>
    .done ((mapLanes tl kx w w.dst.toNat fun l =>
      vopLane (fld w.imm.toNat 20 19) w.fn.toNat (rndW w) (satW w) (regDraw kx.samp) l (tl.vGet w.sa.toNat l)
        (tl.vGet w.sb.toNat l) (tl.vGet w.sc.toNat l)).vuBusy 1)

/-- VOPB (R174 to R176): the second operand of every lane is s[SB][31:0]. -/
def execVopb (t : Nat) (w : IWord) (s : State) : Res :=
  tileInstr s t (.vopb t w) 0x31 w 0 fun tl kx =>
    let b := (tl.s kx w.sb).toNat % 2 ^ 32
    .done ((mapLanes tl kx w w.dst.toNat fun l =>
      vopLane (fld w.imm.toNat 20 19) w.fn.toNat (rndW w) (satW w) (regDraw kx.samp) l (tl.vGet w.sa.toNat l)
        b (tl.vGet w.sc.toNat l)).vuBusy 1)

/-- The relations of VCMP (R177) in form TY. -/
def vcmpLane (ty fn a b : Nat) : Bool :=
  let va := fp32.dec a
  let vb := fp32.dec b
  let lt : Bool := if ty = 0 then va.lt vb else if ty = 2 then decide (sgn 32 a < sgn 32 b) else decide (a < b)
  let eq : Bool := if ty = 0 then va.eqv vb else a == b
  let un : Bool := ty == 0 && (va.isNan || vb.isNan)
  match fn with
  | 0 => eq
  | 1 => !eq
  | 2 => lt
  | 3 => lt || eq
  | 4 => !lt && !eq && !un
  | 5 => !lt && !un
  | _ => un

/-- VCMP (R177): a lane that is not enabled keeps its bit. -/
def execVcmp (t : Nat) (w : IWord) (s : State) : Res :=
  tileInstr s t (.vcmp t w) 0x32 w 0 fun tl kx =>
    let old := (tl.ctx kx.c).pGet w.dst.toNat
    let new := lanes.foldl (fun (p : Nat) l =>
      let b := if laneOn tl kx w l then
        vcmpLane (fld w.imm.toNat 20 19) w.fn.toNat (tl.vGet w.sa.toNat l) (tl.vGet w.sb.toNat l)
        else old.getLsbD l
      if b then p + 2 ^ l else p) 0
    .done ((tl.upd kx fun c => c.pSet w.dst.toNat (BitVec.ofNat 256 new)).vuBusy 1)

/-- A conversion of one element between scalar formats (R68). -/
def convElem (src dst : FFmt) (r : Rnd) (sat : Bool) (D v : Nat) : Nat × Exc :=
  deliver dst r sat D true (src.dec v)

/-- One lane of VCVT (R178). A destination of two 16-bit elements takes its draws as R170 gives them for bf16x2. -/
def vcvtLane (fn : Nat) (r : Rnd) (sat : Bool) (draw : Nat → Nat) (l a b : Nat) : Nat × Exc :=
  let lo := fld a 15 0
  let hi := fld a 31 16
  let pair (x y : Nat × Exc) : Nat × Exc := (x.1 + y.1 * 65536, x.2.plus y.2)
  match fn with
  | 0 => pair (convElem fp32 bf16 r sat (draw (2 * l)) a) (convElem fp32 bf16 r sat (draw (2 * l + 1)) b)
  | 1 => pair (convElem fp32 fp16 r sat (draw (2 * l)) a) (convElem fp32 fp16 r sat (draw (2 * l + 1)) b)
  | 2 => convElem bf16 fp32 .rne false 0 lo
  | 3 => convElem bf16 fp32 .rne false 0 hi
  | 4 => convElem fp16 fp32 .rne false 0 lo
  | 5 => convElem fp16 fp32 .rne false 0 hi
  | 6 => toIntSat 32 r (draw l) (fp32.dec a)
  | 7 => deliver fp32 r sat (draw l) false (.fin (Dy.ofInt (sgn 32 a)))
  | 8 => pair (convElem bf16 fp16 r sat (draw (2 * l)) lo) (convElem bf16 fp16 r sat (draw (2 * l + 1)) hi)
  | _ => pair (convElem fp16 bf16 r sat (draw (2 * l)) lo) (convElem fp16 bf16 r sat (draw (2 * l + 1)) hi)

/-- VCVT (R178). -/
def execVcvt (t : Nat) (w : IWord) (s : State) : Res :=
  tileInstr s t (.vcvt t w) 0x33 w 0 fun tl kx =>
    .done ((mapLanes tl kx w w.dst.toNat fun l =>
      vcvtLane w.fn.toNat (rndW w) (satW w) (regDraw kx.samp) l (tl.vGet w.sa.toNat l)
        (tl.vGet w.sb.toNat l)).vuBusy 1)

/-- The base address a[SA] + IMM24[19:0] of VLD, VST and STAB. -/
def vAddr (tl : Tile) (kx : Kx) (w : IWord) : Nat := ((tl.a kx w.sa).toNat + fld w.imm.toNat 19 0) % 2 ^ 64

/-- The kernel offset of lane `l` of a VLD or VST (R179). -/
def laneAddr (tl : Tile) (kx : Kx) (w : IWord) (l : Nat) : Nat :=
  let base := vAddr tl kx w
  if w.fn = 0 then (base + 4 * l) % 2 ^ 64
  else if w.fn = 1 then wrap 64 ((base : Int) + l * (tl.s kx w.sb).toInt)
  else (base + tl.vGet w.sb.toNat l) % 2 ^ 64

/-- The enabled lanes of an instruction. -/
def onLanes (tl : Tile) (kx : Kx) (w : IWord) : List Nat := lanes.filter fun l => laneOn tl kx w l

/-- The alignment rule of R179. -/
def vMoveCheck (tl : Tile) (kx : Kx) (w : IWord) : Ex Unit :=
  if w.fn = 0 then need (vAddr tl kx w % 64 == 0) 0x502
  else need ((onLanes tl kx w).all fun l => laneAddr tl kx w l % 4 == 0) 0x502

/-- VLD (R179). -/
def execVld (t : Nat) (w : IWord) (s : State) : Res :=
  tileInstr s t (.vld t w) 0x34 w 0 fun tl kx => Act.of tl do
    vMoveCheck tl kx w
    let vs ← (onLanes tl kx w).mapM fun l => do
      let bs ← cisRead tl kx.k (laneAddr tl kx w l) 4
      .ok (l, leNat bs)
    .ok ((vs.foldl (fun tl p => tl.vSet w.dst.toNat p.1 p.2) tl).vuBusy (if w.fn = 0 then 1 else 4))

/-- VST (R179, R180): lanes store in ascending order, so that the higher-numbered lane's value stands. -/
def execVst (t : Nat) (w : IWord) (s : State) : Res :=
  tileInstr s t (.vst t w) 0x35 w 0 fun tl kx =>
    match vMoveCheck tl kx w with
    | .error (.abort c d) => .abort tl c d
    | .error .wait => .wait tl []
    | .ok () =>
      Act.ofRows (writeRows kx.k ((onLanes tl kx w).map fun l =>
        (laneAddr tl kx w l, leBytes 4 (tl.vGet w.sc.toNat l))) tl) fun tl =>
          tl.vuBusy (if w.fn = 0 then 1 else 4)

/-! ### Reductions -/

/-- One level of a pairwise tree. -/
def treeLevel {α : Type} (f : α → α → α) : List α → List α
  | a :: b :: rest => f a b :: treeLevel f rest
  | l => l

/-- A pairwise tree of `n` levels (R183). -/
def tree {α : Type} (f : α → α → α) : Nat → List α → List α
  | 0, l => l
  | n + 1, l => tree f n (treeLevel f l)

/-- An fp32 RNE addition on bit patterns. -/
def addRne (a b : Nat) : Nat := exactBits fp32 ((fp32.dec a).add (fp32.dec b))

/-- The events of a reduction, counted once per result (R183). -/
def redEvents (ins : List Nat) (out : Nat) : Exc :=
  let vs := ins.map fp32.dec
  match fp32.dec out with
  | .nan => { nan := b2n (vs.all fun v => !v.isNan) }
  | .inf _ => { ovf := b2n (vs.all Ext.isFin) }
  | _ => .zero

/-- +infinity in fp32. -/
def posInf : Nat := 0x7F800000
/-- −infinity in fp32. -/
def negInf : Nat := 0xFF800000

/-- The sum (0), max (1) or min (2) of fp32 values by the pairwise tree of `lv` levels (R183). -/
def redTree (op lv : Nat) (vs : List Nat) : Nat :=
  if op = 0 then (tree addRne lv vs).headD 0
  else
    let f (a b : Ext) : Ext := if op = 1 then a.max' b else a.min' b
    exactBits fp32 ((tree f lv (vs.map fp32.dec)).headD .nan)

/-- VRED over lanes (R183, FN 0 to 2). -/
def vredLanes (tl : Tile) (kx : Kx) (w : IWord) : Tile :=
  let op := w.fn.toNat
  let fill := if op = 0 then 0 else if op = 1 then negInf else posInf
  let vs := lanes.map fun l => if laneOn tl kx w l then tl.vGet w.sa.toNat l else fill
  let ins := (onLanes tl kx w).map fun l => tl.vGet w.sa.toNat l
  let out := redTree op 8 vs
  (tl.putS kx w.dst (BitVec.ofNat 64 out)).count kx.c (if op = 0 then redEvents ins out else .zero)

/-- The squares of pairs added with one rounding at level 1 (R183). -/
def sqLevel (vs : List Nat) : List Nat :=
  let sq (v : Nat) : Ext := (fp32.dec v).mul (fp32.dec v)
  (treeLevel (fun a b => a ++ b) (vs.map fun v => [v])).map fun p =>
    exactBits fp32 ((p.map sq).foldl Ext.add (.fin Dy.zero))

/-- VRED over bank columns (R183, FN 3 to 5). -/
def vredBank (tl : Tile) (kx : Kx) (w : IWord) : Tile :=
  let op := w.fn.toNat - 3
  let cols := fld w.imm.toNat 7 0 + 1
  mapLanes tl kx w w.dst.toNat fun l =>
    let ins := (List.range cols).map fun c => tl.accGet w.sa.toNat l c
    let vs := ins ++ List.replicate (128 - cols) (if op = 1 then negInf else 0)
    let out := if op = 2 then redTree 0 6 (sqLevel vs) else redTree op 7 vs
    (out, if op = 1 then .zero else redEvents ins out)

/-- A running reduction of exact values with one rounding per element (R184): 6 sum, 7 sum of squares, 8 max,
9 largest magnitude. -/
def redStep (fn : Nat) (acc v : Ext) : Ext :=
  let rd (e : Ext) : Ext := fp32.dec (exactBits fp32 e)
  if fn = 6 then rd (acc.add v) else if fn = 7 then rd (acc.add (v.mul v))
  else if fn = 8 then acc.max' v else acc.max' v.abs

/-- The running reduction over a list: a sum starts from element 0, a sum of squares from +0.0. -/
def redRun (fn : Nat) (vs : List Ext) : Option Ext :=
  match vs with
  | [] => none
  | v :: rest =>
    some (rest.foldl (redStep fn)
      (if fn = 7 then redStep 7 (.fin Dy.zero) v else if fn = 9 then v.abs else v))

/-- The reduction of one row (R184): a bf16 row of a sum keeps an even and an odd accumulator. -/
def redRow (fn : Nat) (isBf : Bool) (vs : List Ext) : Ext :=
  let empty : Ext := if fn = 8 then .inf true else .fin Dy.zero
  if isBf && decide (fn ≤ 7) then
    let ix := vs.mapIdx fun i v => (i, v)
    let ev := redRun fn ((ix.filter fun p => p.1 % 2 == 0).map Prod.snd)
    let od := redRun fn ((ix.filter fun p => p.1 % 2 == 1).map Prod.snd)
    match ev, od with
    | some a, some b => fp32.dec (exactBits fp32 (a.add b))
    | some a, none => a
    | _, _ => empty
  else (redRun fn vs).getD empty

/-- VRED over a descriptor's rows (R184, FN 6 to 9). -/
def vredTd (tl : Tile) (kx : Kx) (w : IWord) : Ex Tile := do
  let d := tdOf ((tl.ctx kx.c).tdGet w.sa.toNat)
  let fn := w.fn.toNat
  d.check
  need (bit d.sp 0) 0x501
  need (d.fmt == 8 || d.fmt == 9) 0x504
  need (d.elem % 4 == 0 && d.rowPitch % 4 == 0) 0x502
  let n := min (tl.s kx w.sb).toNat d.cols
  let eb := scalarBytes d.fmt
  let rows ← ((onLanes tl kx w).filter (· < d.rows)).mapM fun l => do
    let bs ← cisRead tl kx.k (d.elem + l * d.rowPitch) (n * eb)
    .ok (l, (List.range n).map fun i => scalarDec d.fmt ((bs.drop (i * eb)).take eb))
  let res := rows.map fun p =>
    let out := exactBits fp32 (redRow fn (d.fmt == 9) p.2)
    (p.1, out, if fn ≤ 7 then redEvents (p.2.map (exactBits fp32)) out else .zero)
  let tl := res.foldl (fun tl p => tl.vSet w.dst.toNat p.1 p.2.1) tl
  .ok ((tl.count kx.c (Exc.sum (res.map fun p => p.2.2))).vuBusy
    ((if d.fmt = 9 then ceilDiv n 2 else n) + 1))

/-- VRED (R183, R184). -/
def execVred (t : Nat) (w : IWord) (s : State) : Res :=
  tileInstr s t (.vred t w) 0x36 w 0 fun tl kx =>
    if w.fn.toNat ≤ 2 then .done ((vredLanes tl kx w).vuBusy 1)
    else if w.fn.toNat ≤ 5 then .done ((vredBank tl kx w).vuBusy 128)
    else Act.of tl (vredTd tl kx w)

/-! ### Block encoding and widening -/

/-- The checks of R186, in their order. -/
def qblkChecks (p : QProf) (d : TD) (b0 n src : Nat) : Ex Unit := do
  d.check
  need p.valid 0x202
  need (b0 % 64 == 0) 0x201
  need d.inCistern 0x501
  need (d.fmt == p.fmt && d.outl == p.outlEn && d.escC == p.escSlots) 0x503
  need (decide (b0 + n ≤ d.elems / 32)) 0x505
  need (src % 64 == 0) 0x502

/-- The input values of a QBLK block (R185). -/
def qblkIn (tl : Tile) (k : LKernel) (isBf : Bool) (src i : Nat) : Ex (List Ext) :=
  if isBf then do
    let bs ← cisRead tl k (src + 64 * i) 64
    .ok (bf16Vals 32 bs)
  else do
    let bs ← cisRead tl k (src + 128 * i) 128
    .ok ((List.range 32).map fun j => fp32.dec (leNat ((bs.drop (4 * j)).take 4)))

/-- Block `b` encoded and written to the planes (R48 to R52): the tile, the events, and the escalation slots of its
segment that are taken. -/
def qblkBlock (kx : Kx) (p : QProf) (d : TD) (tl : Tile) (b used : Nat) (xs : List Ext) : Ex (Tile × Exc × Nat) := do
  let draw (i : Nat) : Nat := tdDraw kx.samp d.tid (32 * b + i)
  let e := encodeBlock p draw xs
  let slots := escSlotCount d.escC
  let esc := e.trigger && p.escEn && decide (used < slots)
  let record := if esc then e.record + 2 ^ 47 + used <<< 45 else e.record
  let tl ← cisWrite tl kx.k (d.elem + b * blockBytes p.fmt) (packBlock p.fmt e.codes)
  let tl ← cisWrite tl kx.k (d.scale + b) [BitVec.ofNat 8 e.scale]
  let tl ← if d.outl then cisWrite tl kx.k (d.outlB + 6 * b) (leBytes 6 record) else .ok tl
  let vals := xs.mapIdx fun i v => bf16.enc (rndOf p.rnd) false (draw i) v
  let tl ← if esc then
      cisWrite tl kx.k (d.escB + ((b / 64) * slots + used) * 64) (vals.flatMap fun v => leBytes 2 v.bits) else .ok tl
  -- the bf16 values of an escalated block are results of a conversion (R51, R69)
  let wide (g : Rounded → Bool) : Nat := if esc then (vals.filter g).length else 0
  let ev : Exc := { blk := 1, outl := e.outl, ufl := e.ufl, sat := e.sat + wide Rounded.sat, nan := b2n e.nan
                    ovf := e.ovf + wide Rounded.ovf, esc := b2n esc, escmiss := b2n (e.trigger && !esc) }
  .ok (tl, ev, if esc then used + 1 else used)

/-- Blocks encoded in ascending order; every slot of a segment is free when the range starts on it (R51, R187). -/
def qblkLoop (kx : Kx) (p : QProf) (d : TD) (isBf : Bool) (src b0 : Nat) :
    List Nat → Tile → Exc → Nat → Tile × Exc × Option Stop
  | [], tl, ev, _ => (tl, ev, none)
  | i :: is, tl, ev, used =>
    let b := b0 + i
    let used := if b % 64 = 0 then 0 else used
    match (do let xs ← qblkIn tl kx.k isBf src i; qblkBlock kx p d tl b used xs) with
    | .ok (tl', e, u) => qblkLoop kx p d isBf src b0 is tl' (ev.plus e) u
    | .error st => (tl, ev, some st)

/-- QBLK (R44 to R53, R185 to R187). -/
def execQblk (t : Nat) (w : IWord) (x : W64) (s : State) : Res :=
  tileInstr s t (.qblk t w x) 0x37 w x fun tl kx =>
    let ctx := tl.ctx kx.c
    let p := qprofOf kx.samp.prof.toNat
    let d := specTd ctx (specB x)
    let src := specCis ctx (specA x)
    let b0 := (tl.s kx w.sa).toNat
    let n := (tl.s kx w.sb).toNat
    match qblkChecks p d b0 n src with
    | .error (.abort c e) => .abort tl c e
    | .error .wait => .wait tl []
    | .ok () =>
      match qblkLoop kx p d (bit w.imm.toNat 20) src b0 (List.range n) tl .zero 0 with
      | (tl', ev, some (.abort c e)) => .abort (tl'.count kx.c ev) c e
      | (tl', ev, _) =>
        .done ((tl'.count kx.c ev).vuBusy (max 1 (ceilDiv n (if p.errBits = 0 then 8 else 4)) + ev.esc))

/-- A value widened to fp32 or bf16 (R58): infinity from an in-range block value counts in VU_EXC_OVF. -/
def widenTo (f : FFmt) (e : Ext) : Nat × Exc :=
  let o := f.enc .rne false 0 e
  (o.bits, { ovf := b2n o.ovf })

/-- The checks of R188, in their order. -/
def vwidChecks (d : TD) (b0 n dst : Nat) : Ex Unit := do
  d.check
  need d.inCistern 0x501
  need (isBlockFmt d.fmt) 0x504
  need (decide (b0 + n ≤ d.elems / 32)) 0x505
  need (dst % 64 == 0) 0x502

/-- Blocks widened in ascending order: the tile, the events, the escalated blocks, and why it stopped early. -/
def vwidLoop (kx : Kx) (d : TD) (f : FFmt) (sz dst b0 : Nat) :
    List Nat → Tile → Exc → Nat → Tile × Exc × Nat × Option Stop
  | [], tl, ev, esc => (tl, ev, esc, none)
  | i :: is, tl, ev, esc =>
    match (do
      let g ← (opndOfTd d).block tl kx.k 0 (b0 + i)
      let ws := g.vals.map (widenTo f)
      let tl' ← cisWrite tl kx.k (dst + 32 * sz * i) (ws.flatMap fun (p : Nat × Exc) => leBytes sz p.1)
      return (tl', Exc.sum (ws.map Prod.snd), g.esc)) with
    | .ok (tl', e, k) => vwidLoop kx d f sz dst b0 is tl' (ev.plus e) (esc + k)
    | .error e => (tl, ev, esc, some e)

/-- VWID (R58, R188). -/
def execVwid (t : Nat) (w : IWord) (x : W64) (s : State) : Res :=
  tileInstr s t (.vwid t w x) 0x38 w x fun tl kx =>
    let ctx := tl.ctx kx.c
    let d := specTd ctx (specA x)
    let dst := specCis ctx (specB x)
    let b0 := (tl.s kx w.sa).toNat
    let n := (tl.s kx w.sb).toNat
    match vwidChecks d b0 n dst with
    | .error (.abort c e) => .abort tl c e
    | .error .wait => .wait tl []
    | .ok () =>
      match vwidLoop kx d (if w.fn = 0 then fp32 else bf16) (if w.fn = 0 then 4 else 2) dst b0 (List.range n) tl
        .zero 0 with
      | (tl', ev, _, some (.abort c e)) => .abort (tl'.count kx.c ev) c e
      | (tl', ev, esc, _) => .done ((tl'.count kx.c ev).vuBusy (max 1 (ceilDiv n 8) + esc))

/-! ### Moves -/

/-- VPERM (R181). -/
def execVperm (t : Nat) (w : IWord) (s : State) : Res :=
  tileInstr s t (.vperm t w) 0x39 w 0 fun tl kx =>
    .done ((mapLanes tl kx w w.dst.toNat fun l =>
      (if w.fn = 0 then tl.vGet w.sa.toNat (tl.vGet w.sb.toNat l % 256)
       else if w.fn = 1 then tl.vGet w.sa.toNat ((l + fld w.imm.toNat 7 0) % 256)
       else (let v := tl.vGet w.sa.toNat l; fld v 31 16 + fld v 15 0 * 65536), Exc.zero)).vuBusy 1)

/-- VBCAST (R181). -/
def execVbcast (t : Nat) (w : IWord) (s : State) : Res :=
  tileInstr s t (.vbcast t w) 0x3A w 0 fun tl kx =>
    let v := if w.fn = 0 then (tl.s kx w.sa).toNat % 2 ^ 32 else tl.vGet w.sa.toNat (fld w.imm.toNat 7 0)
    .done ((mapLanes tl kx w w.dst.toNat fun _ => (v, Exc.zero)).vuBusy 1)

/-- An fp32 product rounded under an instruction's RND and SAT. -/
def mulFp32 (w : IWord) (a b : Nat) : Nat × Exc :=
  let va := fp32.dec a
  let vb := fp32.dec b
  deliver fp32 (rndW w) (satW w) 0 (va.isNan || vb.isNan) (va.mul vb)

/-- VACC (R182): FN 2 and 3 scale the whole bank by rows or by columns. -/
def execVacc (t : Nat) (w : IWord) (s : State) : Res :=
  tileInstr s t (.vacc t w) 0x3B w 0 fun tl kx =>
    let col := fld w.imm.toNat 6 0
    let lh := if bit w.imm.toNat 8 then 128 else 0
    if w.fn = 0 then
      .done ((mapLanes tl kx w w.dst.toNat fun l => (tl.accGet w.sa.toNat l col, Exc.zero)).vuBusy 1)
    else if w.fn = 1 then
      .done (((onLanes tl kx w).foldl (fun (u : Tile) l => u.accSet w.dst.toNat l col (tl.vGet w.sa.toNat l)) tl).vuBusy 1)
    else
      let scale (i j old : Nat) : Nat × Exc :=
        let ln := if w.fn = 2 then i else j + lh
        if laneOn tl kx w ln then mulFp32 w old (tl.vGet w.sb.toNat ln) else (old, Exc.zero)
      let o := mapRegion tl w.dst.toNat 0 0 256 128 scale
      .done ((o.1.count kx.c o.2).vuBusy 128)

end Sys2Proof.Machine
end

