-- ==== Sys2Proof/Machine/Sfu.lean ====
section
/-! DEFINITION. The special-function unit: the built-in tables, their evaluation, kernel tables, SFN and STAB
(R189 to R201). -/

namespace Sys2Proof.Machine

/-- The exp2 knots of R193: the fp32 values nearest 2^(i/16). -/
def exp2Knots : List Nat :=
  [0x3f800000, 0x3f85aac3, 0x3f8b95c2, 0x3f91c3d3, 0x3f9837f0, 0x3f9ef532, 0x3fa5fed7, 0x3fad583f, 0x3fb504f3,
   0x3fbd08a4, 0x3fc5672a, 0x3fce248c, 0x3fd744fd, 0x3fe0ccdf, 0x3feac0c7, 0x3ff5257d, 0x40000000]
/-- The reciprocal knots of R193: the fp32 values nearest 16/(16 + i). -/
def recipKnots : List Nat :=
  [0x3f800000, 0x3f70f0f1, 0x3f638e39, 0x3f579436, 0x3f4ccccd, 0x3f430c31, 0x3f3a2e8c, 0x3f321643, 0x3f2aaaab,
   0x3f23d70a, 0x3f1d89d9, 0x3f17b426, 0x3f124925, 0x3f0d3dcb, 0x3f088889, 0x3f042108, 0x3f000000]
/-- The reciprocal square root knots of R193. -/
def rsqrtKnots : List Nat :=
  [0x3f800000, 0x3f715bef, 0x3f64f92e, 0x3f5a514a, 0x3f5105ec, 0x3f48d2ab, 0x3f41848f, 0x3f3af4ba, 0x3f3504f3,
   0x3f2aaaab, 0x3f21e89b, 0x3f1a5fb2, 0x3f13cd3a, 0x3f0e00d5, 0x3f08d677, 0x3f0432a5, 0x3f000000]

/-- The built-in table of SFN FN 0, 1 or 2 (R191). -/
def builtinTable (fn : Nat) : SfuTable :=
  { loaded := true, mode := fn + 1, oor := 0, lo := 0, w := 0
    knots := if fn = 0 then exp2Knots else if fn = 1 then recipKnots else rsqrtKnots }

/-- Knot `i` of a table, as an exact value. -/
def SfuTable.knot (tb : SfuTable) (i : Nat) : Dy := (fp32.dec (tb.knots.getD i 0)).toDy

/-- RNE to fp32 of an exact value. -/
def rne32 (d : Dy) : Ext := fp32.dec (fp32.round .rne false 0 d).bits

/-- Steps 3 and 4 of R192 inside the table: y at segment `i` and finite offset `t`. -/
def SfuTable.line (tb : SfuTable) (i : Nat) (t : Dy) : Ext :=
  rne32 ((tb.knot i).add (t.mul ((tb.knot (i + 1)).sub (tb.knot i))))

/-- The linear value at a reduced input `u` in [0, 16). -/
def SfuTable.at (tb : SfuTable) (u : Dy) : Ext :=
  tb.line u.floorAbs (u.sub (Dy.ofNat u.floorAbs))

/-- The linear value of an end segment extended to an infinite offset (R192 step 4). -/
def SfuTable.infLine (tb : SfuTable) (i : Nat) (neg : Bool) : Ext :=
  let d := (tb.knot (i + 1)).sub (tb.knot i)
  if d.isZero then .fin (tb.knot i) else .inf (d.neg != neg)

/-- A value beyond every output range, standing for an infinite intermediate of a finite input (R192). -/
def beyondRange (neg : Bool) : Ext := .fin ⟨neg, 1, 1000⟩

/-- Mode 0 of R192 on a non-NaN input, before the final rounding. -/
def SfuTable.range (tb : SfuTable) (x : Ext) : Ext :=
  let d := (x.sub (fp32.dec tb.lo))
  let d := match d with
    | .fin v => rne32 v
    | e => e
  let u := match d.mul (fp32.dec tb.w) with
    | .fin v => rne32 v
    | e => e
  let y : Ext := match u with
    | .fin v =>
      if v.lt Dy.zero then (if tb.oor = 0 then .fin (tb.knot 0) else tb.line 0 v)
      else if (Dy.ofNat 16).le v then
        (if tb.oor = 0 then .fin (tb.knot 16) else tb.line 15 (v.sub (Dy.ofNat 15)))
      else tb.at v
    | .inf neg =>
      if tb.oor = 0 then .fin (tb.knot (if neg then 0 else 16)) else tb.infLine (if neg then 0 else 15) neg
    | .nan => .nan
  match x, y with
  | .fin _, .inf neg => beyondRange neg
  | _, y => y

/-- A finite value of the linear part times a power of two and a sign; an infinite one of a finite input lies beyond
every range. -/
def scaleY (y : Ext) (neg : Bool) (k : Int) : Ext :=
  match y with
  | .fin d => .fin { d with neg := d.neg != neg, exp := d.exp + k }
  | .inf s => beyondRange (s != neg)
  | .nan => .nan

/-- The exponent of a scaling factor, cut to a range beyond which every result overflows or underflows alike. -/
def cutExp (n : Int) : Int := max (-2000) (min 2000 n)

/-- Evaluation of a table on an input (R192, R195), exact up to the final rounding. -/
def SfuTable.eval (tb : SfuTable) (x : Ext) : Ext :=
  match x with
  | .nan => .nan
  | _ =>
    match tb.mode with
    | 0 => tb.range x
    | 1 =>
      match x with
      | .inf neg => if neg then .fin Dy.zero else .inf false
      | .fin d =>
        let n := d.floor
        let f := d.sub (Dy.ofInt n)
        scaleY (tb.at (f.shift 4).abs) false (cutExp n)
      | .nan => .nan
    | 2 =>
      match x with
      | .inf neg => .fin ⟨neg, 0, 0⟩
      | .fin d =>
        if d.isZero then .inf d.neg
        else
          let e := d.log2
          let m := (d.abs).shift (-e)
          scaleY (tb.at ((m.sub (Dy.ofNat 1)).shift 4)) d.neg (-e)
      | .nan => .nan
    | _ =>
      match x with
      | .inf neg => if neg then .nan else .fin Dy.zero
      | .fin d =>
        if d.isZero then .inf d.neg
        else if d.neg then .nan
        else
          let e := d.log2
          let m := d.shift (-e)
          let odd := e % 2 != 0
          let wv := if odd then m.shift 1 else m
          let g := if odd then e - 1 else e
          let u := if wv.lt (Dy.ofNat 2) then (wv.sub (Dy.ofNat 1)).shift 3
            else (Dy.ofNat 8).add ((wv.sub (Dy.ofNat 2)).shift 2)
          scaleY (tb.at u) false (-(g / 2))
      | .nan => .nan

/-- One element of an SFN: the input in a format, the result in the same format, with its events (R195). -/
def sfnElem (tb : SfuTable) (f : FFmt) (r : Rnd) (sat : Bool) (D v : Nat) : Nat × Exc :=
  let x := f.dec v
  deliver f r sat D x.isNan (tb.eval x)

/-- The cycles for which an SFN occupies the pipes (R189). -/
def sfnCycles (tl : Tile) (kx : Kx) (w : IWord) : Nat :=
  if (List.range 128).any fun p => laneOn tl kx w p && laneOn tl kx w (p + 128) then 2 else 1

/-- SFN (R189 to R195, R197). -/
def execSfn (t : Nat) (w : IWord) (s : State) : Res :=
  tileInstr s t (.sfn t w) 0x40 w 0 fun tl kx =>
    let tb := if w.fn.toNat ≤ 2 then builtinTable w.fn.toNat
      else spGet dSfu tl.sfu (kx.k.sfuMap.getD (fld w.imm.toNat 3 0) 0)
    if !tb.loaded then .abort tl 0x507 0
    else
      let draw := regDraw kx.samp
      let el (f : FFmt) (i v : Nat) : Nat × Exc := sfnElem tb f (rndW w) (satW w) (draw i) v
      let u := mapLanes tl kx w w.dst.toNat fun l =>
        let v := tl.vGet w.sa.toNat l
        if fld w.imm.toNat 20 19 = 0 then el fp32 l v
        else
          let lo := el bf16 (2 * l) (fld v 15 0)
          let hi := el bf16 (2 * l + 1) (fld v 31 16)
          (lo.1 + hi.1 * 65536, lo.2.plus hi.2)
      let c := sfnCycles tl kx w
      .done (u.perfs [(0x3000, c), (0x3008, c - 1)])

/-- Whether a 128-byte table record obeys the rules of R196. -/
def tableOk (b : List Byte) : Bool :=
  let u (off n : Nat) : Nat := leNat ((b.drop off).take n)
  let mode := u 0 1
  decide (mode ≤ 3) && decide (u 1 1 ≤ 1) && (mode == 0 || u 1 1 == 0) && u 2 2 == 0 &&
  (if mode = 0 then (fp32.dec (u 4 4)).isFin else u 4 4 == 0) &&
  (if mode = 0 then (fp32.dec (u 8 4)).isFin && (Ext.fin Dy.zero).lt (fp32.dec (u 8 4)) else u 8 4 == 0) &&
  u 0xC 4 == 0 && ((List.range 17).all fun i => (fp32.dec (u (0x10 + 4 * i) 4)).isFin) && u 0x54 44 == 0

/-- A table record's fields (R196). -/
def tableOf (b : List Byte) : SfuTable :=
  let u (off n : Nat) : Nat := leNat ((b.drop off).take n)
  { loaded := true, mode := u 0 1, oor := u 1 1, lo := u 4 4, w := u 8 4
    knots := (List.range 17).map fun i => u (0x10 + 4 * i) 4 }

/-- STAB (R196, R197). -/
def execStab (t : Nat) (w : IWord) (s : State) : Res :=
  tileInstr s t (.stab t w) 0x41 w 0 fun tl kx => Act.of tl do
    let b ← cisRead tl kx.k (vAddr tl kx w) 128
    need (tableOk b) 0x506
    .ok { tl with sfu := spSet dSfu tl.sfu (kx.k.sfuMap.getD w.fn.toNat 0) (tableOf b) }

/-- SFN FN 0 in the fp32 form, RNE (R190). -/
def exp2f (x : Nat) : Nat := (sfnElem (builtinTable 0) fp32 .rne false 0 x).1
/-- An fp32 RNE subtraction on bit patterns. -/
def subRne (a b : Nat) : Nat := exactBits fp32 ((fp32.dec a).sub (fp32.dec b))
/-- An fp32 RNE multiplication on bit patterns. -/
def mulRne (a b : Nat) : Nat := exactBits fp32 ((fp32.dec a).mul (fp32.dec b))
/-- An fp32 RNE fused multiply-add a × b + c on bit patterns. -/
def fmaRne (a b c : Nat) : Nat := exactBits fp32 (((fp32.dec a).mul (fp32.dec b)).add (fp32.dec c))
/-- An fp32 RNE fused −(a × b) + c on bit patterns. -/
def fnmaRne (a b c : Nat) : Nat := exactBits fp32 (((fp32.dec a).mul (fp32.dec b)).neg.add (fp32.dec c))
/-- The refined reciprocal of R198. -/
def recipRefined (x : Nat) : Nat :=
  let y0 := (sfnElem (builtinTable 1) fp32 .rne false 0 x).1
  let step (y : Nat) : Nat := fmaRne y (fnmaRne x y 0x3F800000) y
  step (step y0)

end Sys2Proof.Machine
end

