-- ==== Sys2Proof/Machine/Osm.lean ====
section
/-! DEFINITION. The online-softmax instructions: query blocks, row statistics, skipping, verification and the backward
pass (R205 to R229, R250, R253, R255). -/

namespace Sys2Proof.Machine

/-- A sampled system register of R210, by index from 0x040. -/
def osmReg (kx : Kx) (i : Nat) : Nat := (spGet dOsm kx.samp.osm i).toNat
/-- τ. -/
def osmTau (kx : Kx) : Ext := fp32.dec (fld (osmReg kx 0) 31 0)
/-- ε. -/
def osmEps (kx : Kx) : Ext := fp32.dec (fld (osmReg kx 1) 31 0)
/-- OSM_OFFSET, as bits. -/
def osmOffset (kx : Kx) : Nat := fld (osmReg kx 2) 31 0
/-- OSM_DSCALE, as bits. -/
def osmDscale (kx : Kx) : Nat := fld (osmReg kx 3) 31 0

/-- Whether a value is below zero. -/
def Ext.below0 (e : Ext) : Bool := e.lt (.fin Dy.zero)

/-- The region of an OSM instruction (R206, R209): first bank row and column, rows and columns. -/
def osmRegion (w : IWord) : Nat × Nat × Nat × Nat := regionOf (fld w.imm.toNat 18 16) w.imm.toNat

/-- The enabled bank rows of a region of `m` rows from `r0` (R206). -/
def osmRows (tl : Tile) (kx : Kx) (w : IWord) (r0 m : Nat) : List Nat :=
  ((List.range m).map fun i => r0 + i).filter fun l => laneOn tl kx w l

/-- Whether a bank position is masked by OSM_DIAG (R213). -/
def osmMasked (kx : Kx) (m n : Nat) : Bool :=
  bit (osmReg kx 4) 31 && decide ((m : Int) + sgn 24 (osmReg kx 4) < (n : Int))

/-- The score at a bank position, −infinity when it is masked (R213). -/
def osmScore (tl : Tile) (kx : Kx) (b m n : Nat) : Nat := if osmMasked kx m n then negInf else tl.accGet b m n

/-- MAX or BMAX of a row. -/
def Tile.stLo (tl : Tile) (r l : Nat) : Nat := fld (tl.stGet r l) 31 0
/-- SUM or TSUM of a row. -/
def Tile.stHi (tl : Tile) (r l : Nat) : Nat := fld (tl.stGet r l) 63 32

/-- The open block is in no-subtract mode (R211). -/
def OsmBlk.noSub (b : OsmBlk) : Bool := b.isOpen && b.mode

/-- The open block of the running context changed. -/
def Tile.updBlk (tl : Tile) (kx : Kx) (f : OsmBlk → OsmBlk) : Tile := tl.upd kx fun x => { x with blk := f x.blk }

/-- exp2(a − b) of two fp32 values, the difference rounded RNE, before its own rounding (R190, R215, R216). -/
def exp2Diff (a b : Nat) : Ext := (builtinTable 0).eval (fp32.dec (subRne a b))

/-- A row's statistics at the start of a block (R214). -/
def Tile.stInit (tl : Tile) (r : Nat) (max : Nat) (rows : List Nat) : Tile :=
  rows.foldl (fun tl l => tl.stSet r l 0 max) tl

/-- OSMN (R214): the restart point is the one sampled at issue. -/
def execOsmn (t : Nat) (w : IWord) (s : State) : Res :=
  tileInstr s t (.osmn t w) 0x54 w 0 fun tl kx =>
    let (r0, _, m, _) := osmRegion w
    let rows := osmRows tl kx w r0 m
    let mode := bit w.imm.toNat 1
    if mode && !(fp32.dec (osmOffset kx)).isFin then .abort tl 0x604 0
    else
      let tl := tl.stInit w.dst.toNat (if mode then osmOffset kx else negInf) rows
      let tl := if bit w.imm.toNat 0 then tl.stInit w.sa.toNat negInf rows else tl
      .done ((tl.updBlk kx fun _ =>
        { kx.samp.blk with isOpen := true, mode := mode, stReg := w.dst.toNat, rows := rows }).vuBusy 2)

/-- Rows of the open block marked, each counted once (R219, R255). -/
def Tile.markRows (tl : Tile) (kx : Kx) (rows : List Nat) : Tile :=
  let old := (tl.ctx kx.c).blk.marked
  let new := rows.filter fun l => !old.contains l
  (tl.updBlk kx fun b => { b with marked := b.marked ++ new }).perf 0x2080 new.length

/-- OSMX on one row (R215): the row's correction factor, and the tile after. -/
def osmxRow (kx : Kx) (w : IWord) (c0 n : Nat) (tl : Tile) (l : Nat) : Tile :=
  let sb := w.sb.toNat
  let xs := (List.range n).map fun j => fp32.dec (osmScore tl kx w.sa.toNat l (c0 + j))
  let x := (xs.foldl Ext.max' (.inf true))
  let mx := tl.stLo sb l
  let mn := exactBits fp32 ((fp32.dec mx).max' x)
  let c := if mn = negInf then 0x3F800000 else exactBits fp32 (exp2Diff mx mn)
  (tl.vSet w.dst.toNat l c).stSet sb l (mulRne (tl.stHi sb l) c) mn

/-- The largest score of a row of the region. -/
def osmMaxScore (tl : Tile) (kx : Kx) (b l c0 n : Nat) : Ext :=
  ((List.range n).map fun j => fp32.dec (osmScore tl kx b l (c0 + j))).foldl Ext.max' (.inf true)

/-- 80 in fp32. -/
def fp80 : Nat := 0x42A00000

/-- OSMX (R215, R219, R253). -/
def execOsmx (t : Nat) (w : IWord) (s : State) : Res :=
  tileInstr s t (.osmx t w) 0x50 w 0 fun tl kx =>
    let (r0, c0, m, n) := osmRegion w
    let rows := osmRows tl kx w r0 m
    let busy (tl : Tile) : Act :=
      .done (tl.vuBusy (5 + ceilDiv (rows.length * n) 1024 + ceilDiv rows.length 128))
    if (tl.ctx kx.c).blk.noSub then
      if !(fp32.dec (osmOffset kx)).isFin then .abort tl 0x604 0
      else
        let hot := rows.filter fun l =>
          (fp32.dec fp80).lt (fp32.dec (subRne (exactBits fp32 (osmMaxScore tl kx w.sa.toNat l c0 n)) (osmOffset kx)))
        busy ((rows.foldl (fun tl l => tl.vSet w.dst.toNat l 0x3F800000) tl).markRows kx hot)
    else busy (rows.foldl (osmxRow kx w c0 n) tl)

/-- The destination rule of R216: bf16, in the cistern, 64-byte aligned. -/
def osmDest (d : TD) : Ex Unit := do
  d.check
  need (d.fmt == 9 && bit d.sp 0 && d.elem % 64 == 0 && d.rowPitch % 64 == 0) 0x601

/-- The destination row and column of a region position, transposed under TRANS (R209). -/
def osmPos (w : IWord) (i j : Nat) : Nat × Nat := if bit w.imm.toNat 20 then (j, i) else (i, j)

/-- The bf16 stores of a list of region positions and values into a descriptor; those beyond ROWS or COLS are not
written (R216). -/
def osmStores (w : IWord) (d : TD) (cells : List (Nat × Nat × Nat)) : List (Nat × List Byte) :=
  cells.filterMap fun c =>
    let (r, q) := osmPos w c.1 c.2.1
    if r < d.rows ∧ q < d.cols then some (d.elem + r * d.rowPitch + 2 * q, leBytes 2 c.2.2) else none

/-- The draw of the bf16 destination element of a region position (R109). -/
def osmDraw (kx : Kx) (w : IWord) (d : TD) (i j : Nat) : Nat :=
  let (r, q) := osmPos w i j
  tdDraw kx.samp d.tid (r * d.cols + q)

/-- The levels of a pairwise tree over `n` columns. -/
def treeLevels (n : Nat) : Nat := Nat.log2 n

/-- OSME's probabilities of one row (R216): region position and bf16 bits. -/
def osmeRow (tl : Tile) (kx : Kx) (w : IWord) (d : TD) (r0 c0 n l : Nat) : List (Nat × Nat × Nat) :=
  let ref := if (tl.ctx kx.c).blk.noSub then osmOffset kx else tl.stLo w.sb.toNat l
  (List.range n).map fun j =>
    (l - r0, j,
      if osmMasked kx l (c0 + j) then 0
      else (bf16.enc (rndW w) false (osmDraw kx w d (l - r0) j)
        (exp2Diff (tl.accGet w.sa.toNat l (c0 + j)) ref)).bits)

/-- OSME (R216, R253). -/
def execOsme (t : Nat) (w : IWord) (x : W64) (s : State) : Res :=
  tileInstr s t (.osme t w x) 0x51 w x fun tl kx =>
    let (r0, c0, m, n) := osmRegion w
    let rows := osmRows tl kx w r0 m
    let d := specTd (tl.ctx kx.c) (specA x)
    let sb := w.sb.toNat
    let noSub := (tl.ctx kx.c).blk.noSub
    match (do need (!noSub || (fp32.dec (osmOffset kx)).isFin) 0x604; osmDest d : Ex Unit) with
    | .error (.abort c e) => .abort tl c e
    | .error .wait => .wait tl []
    | .ok () =>
      let cells := rows.map fun l => (l, osmeRow tl kx w d r0 c0 n l)
      let sums (tl : Tile) : Tile := cells.foldl (fun tl c =>
        let T := redTree 0 (treeLevels n) (c.2.map fun p => exactBits fp32 (bf16.dec p.2.2))
        tl.stSet sb c.1 (addRne (tl.stHi sb c.1) T) (tl.stLo sb c.1)) tl
      Act.ofRows (writeRows kx.k (osmStores w d (cells.flatMap Prod.snd)) tl) fun tl =>
        (sums tl).vuBusy (4 + ceilDiv (rows.length * n) 128)

/-- Where bound items lie: a cistern offset of the tile, after a ring slot is taken (R87, R208). -/
def osmItems (tl : Tile) (kx : Kx) (sp : Nat) : Ex (Tile × Nat) := do
  if specKind sp = 2 then
    let (tl, im) ← ringTake tl kx sp
    return (tl, im.base)
  else return (tl, kx.k.cisOff + specCis (tl.ctx kx.c) sp)

/-- A bound item (R221, R233): RADIUS and KNORM as bits, VALID and FLAGS. -/
structure BItem where
  radius : Nat
  knorm  : Nat
  valid  : Nat
  flags  : Nat
  deriving DecidableEq, Repr

/-- Bound item `j` at a base in the tile's cistern. -/
def readItem (tl : Tile) (kx : Kx) (base j : Nat) : Ex BItem := do
  let bs ← cisRead tl kx.k (base - kx.k.cisOff + 16 * j) 16
  return { radius := leNat (bs.take 4), knorm := leNat ((bs.drop 4).take 4), valid := leNat ((bs.drop 8).take 1)
           flags := leNat ((bs.drop 9).take 1) }

/-- A mask of 128 columns as bits. -/
def maskOf (js : List Nat) : Nat := js.foldl (fun v j => setFld v j j 1) 0

/-- Whether OSMS skips column `j` (R222). -/
def osmsSkip (tl : Tile) (kx : Kx) (w : IWord) (b c0 : Nat) (rows : List Nat) (j : Nat) (it : BItem) : Bool :=
  decide (1 ≤ it.valid) && !bit it.flags 0 && rows != [] && rows.all fun l =>
    let e := addRne (tl.accGet b l (c0 + j)) (mulRne (tl.vGet w.sa.toNat l) it.radius)
    (fp32.dec e).lt (fp32.dec (subRne (tl.stLo w.sb.toNat l) (fld (osmReg kx 0) 31 0)))

/-- The stores of a decision record (R223). -/
def decisionRecord (at' list : Nat) (tl : Tile) (k : LKernel) (keep skip : List Nat) :
    Ex (List (Nat × List Byte)) := do
  let entry (j : Nat) : Ex (List Byte) := cisRead tl k (list + 16 * j) 16
  let ks ← keep.mapM entry
  let ss ← skip.mapM entry
  return [(at', leBytes 16 (maskOf keep) ++ leBytes 16 (maskOf skip) ++ leBytes 4 keep.length ++
      leBytes 4 skip.length ++ List.replicate 24 0),
    (at' + 0x40, ks.flatten), (at' + 0x840, ss.flatten)]

/-- The set columns of a mask. -/
def maskCols (v : Nat) : List Nat := (List.range 128).filter fun j => v.testBit j

/-- OSMS up to its decisions (R212, R222): the tile after the ring slot, the columns with VALID ≥ 1, and those
skipped. -/
def osmsDecide (tl : Tile) (kx : Kx) (w : IWord) (x : W64) : Ex (Tile × List Nat × List Nat) := do
  let (r0, c0, m, n) := osmRegion w
  let cols := (tl.s kx (BitVec.ofNat 6 (fld (specB x) 5 0))).toNat
  let at' := (tl.a kx w.dst).toNat
  need (tl.ctx kx.c).blk.isOpen 0x603
  need (!(osmTau kx).isNan && !(osmTau kx).below0 && decide (cols ≤ n)) 0x604
  need (at' % 64 == 0) 0x601
  let rows := osmRows tl kx w r0 m
  let (tl', base) ← osmItems tl kx (specA x)
  let its ← (List.range cols).mapM fun j => do
    let it ← readItem tl kx base j
    return (j, it)
  let valid := its.filter fun p => decide (1 ≤ p.2.valid)
  let skip := valid.filter fun p => osmsSkip tl kx w (Config.osmsBank % 4) c0 rows p.1 p.2
  return (tl', valid.map Prod.fst, skip.map Prod.fst)

/-- A 32-bit count advanced, saturating. -/
def sat32 (a n : Nat) : Nat := min (a + n) (2 ^ 32 - 1)

/-- OSMS (R222, R223, R229): under replay the recorded masks stand in for the decisions. -/
def execOsms (t : Nat) (w : IWord) (x : W64) (s : State) : Res :=
  deviceInstr s t (.osms t w x) 0x52 w x fun s tl kx => inDev t (do
    let (tl', valid, skip) ← liftEx (osmsDecide tl kx w x)
    let at' := (tl.a kx w.dst).toNat
    let keep := valid.filter fun j => !skip.contains j
    let masks ← tileJournal t 6 (at' % 2 ^ 32) (leBytes 16 (maskOf keep) ++ leBytes 16 (maskOf skip))
    let keep := maskCols (leNat (masks.take 16))
    let skip := maskCols (leNat (masks.drop 16))
    let sts ← liftEx (decisionRecord at' (tl.a kx w.sc).toNat tl kx.k keep skip)
    let (_, _, m, n) := osmRegion w
    let rows := osmRows tl kx w (osmRegion w).1 m
    return Act.ofRows (writeRows kx.k sts tl') fun tl =>
      ((tl.updBlk kx fun b => { b with skipped := sat32 b.skipped skip.length }).perfs
        [(0x2060, valid.length), (0x2068, skip.length)]).vuBusy (4 + ceilDiv (rows.length * n) 1024)) s tl

/-! ### OSMC -/

/-- The columns of one bank row of a region each given a value. -/
def Tile.accRow (tl : Tile) (b l c0 n : Nat) (f : Nat → Nat → Nat) : Tile :=
  (List.range n).foldl (fun tl j => tl.accSet b l (c0 + j) (f j (tl.accGet b l (c0 + j)))) tl

/-- The busy cycles of OSMC CORR and FIN (R253). -/
def osmcBusy (rows n : Nat) : Nat := 4 + ceilDiv (rows * n) 1024

/-- OSMC CORR (R217). -/
def execOsmcCorr (t : Nat) (w : IWord) (s : State) : Res :=
  fnInstr 0 w <| tileInstr s t (.osmcCorr t w) 0x53 w 0 fun tl kx =>
    let (r0, c0, m, n) := osmRegion w
    let rows := osmRows tl kx w r0 m
    .done ((rows.foldl (fun tl l => tl.accRow w.dst.toNat l c0 n fun _ v => mulRne v (tl.vGet w.sa.toNat l)) tl).vuBusy
      (osmcBusy rows.length n))

/-- Whether FIN marks a row of a no-subtract block: its SUM is below 2^−60 or NaN (R219). -/
def finMarks (sum : Nat) : Bool := (fp32.dec sum).isNan || (fp32.dec sum).lt (.fin ⟨false, 1, -60⟩)

/-- A row's normalising factor at FIN, or none when the row becomes +0.0 (R217). -/
def finFactor (max sum : Nat) : Option Nat :=
  if !((Ext.fin ⟨true, 1, 127⟩).lt (fp32.dec max)) && !(fp32.dec max).isNan || (fp32.dec sum).isZero then none
  else some (recipRefined sum)

/-- OSMC FIN (R217, R219, R220): a block with a marked row calls for its rerun, which an unsafe action forbids. -/
def execOsmcFin (t : Nat) (w : IWord) (s : State) : Res :=
  fnInstr 1 w <| tileInstr s t (.osmcFin t w) 0x53 w 0 fun tl kx =>
    let (r0, c0, m, n) := osmRegion w
    let rows := osmRows tl kx w r0 m
    let sb := w.sb.toNat
    let blk := (tl.ctx kx.c).blk
    if !blk.isOpen then .abort tl 0x603 0
    else
      let tl := if blk.noSub then tl.markRows kx (rows.filter fun l => finMarks (tl.stHi sb l)) else tl
      let blk := (tl.ctx kx.c).blk
      let busy (tl : Tile) : Act := .done (tl.vuBusy (osmcBusy rows.length n))
      if blk.marked ≠ [] then
        if blk.dirty then .abort tl 0x602 0 else busy (tl.updBlk kx fun b => { b with due := true })
      else
        busy ((rows.foldl (fun tl l =>
          let f := finFactor (tl.stLo sb l) (tl.stHi sb l)
          tl.accRow w.dst.toNat l c0 n fun _ v => (f.map (mulRne v)).getD 0) tl).updBlk kx
            fun b => { b with isOpen := false })

/-- The factor of an operand of a merge: 0 when its maximum is −infinity (R218). -/
def mergeFactor (max m : Nat) : Nat := if max = negInf then 0 else exactBits fp32 (exp2Diff max m)

/-- The sum of two scaled operands, exact before its one rounding (R218). -/
def mergeSum (v a u b : Nat) : Nat :=
  exactBits fp32 (((fp32.dec v).mul (fp32.dec a)).add ((fp32.dec u).mul (fp32.dec b)))

/-- One row merged with its partial record: its statistics and its N values (R218). -/
def mergeRow (sb b c0 n : Nat) (l : Nat) (st : List Byte) (vals : List Byte) (tl : Tile) : Tile :=
  let m2 := leNat (st.take 4)
  let s2 := leNat (st.drop 4)
  let mx := tl.stLo sb l
  let m := exactBits fp32 ((fp32.dec mx).max' (fp32.dec m2))
  let a1 := mergeFactor mx m
  let a2 := mergeFactor m2 m
  (tl.accRow b l c0 n fun j v => mergeSum v a1 (leNat ((vals.drop (4 * j)).take 4)) a2).stSet sb l
    (mergeSum (tl.stHi sb l) a1 s2 a2) m

/-- A task's abort or wait as what an instruction does. -/
def Act.ofStop (tl : Tile) : Stop → Act
  | .abort c d => .abort tl c d
  | .wait => .wait tl []

/-- OSMC MERGE (R217, R218). -/
def execOsmcMerge (t : Nat) (w : IWord) (s : State) : Res :=
  fnInstr 2 w <| tileInstr s t (.osmcMerge t w) 0x53 w 0 fun tl kx =>
    let (r0, c0, m, n) := osmRegion w
    let rows := osmRows tl kx w r0 m
    let at' := (tl.a kx w.sc).toNat
    let part : Ex (List (Nat × List Byte × List Byte)) := do
      need (at' % 64 == 0) 0x601
      rows.mapM fun l => do
        let st ← cisRead tl kx.k (at' + 8 * (l - r0)) 8
        let vs ← cisRead tl kx.k (at' + up64 (8 * m) + 4 * n * (l - r0)) (4 * n)
        return (l, st, vs)
    match part with
    | .error e => .ofStop tl e
    | .ok ps =>
      .done ((ps.foldl (fun tl p => mergeRow w.sb.toNat w.dst.toNat c0 n p.1 p.2.1 p.2.2 tl) tl).vuBusy
        (4 + ceilDiv (rows.length * n) 256))

/-- OSMC SAVE (R217). -/
def execOsmcSave (t : Nat) (w : IWord) (s : State) : Res :=
  fnInstr 3 w <| tileInstr s t (.osmcSave t w) 0x53 w 0 fun tl kx =>
    let (r0, _, m, _) := osmRegion w
    let rows := osmRows tl kx w r0 m
    let at' := (tl.a kx w.sc).toNat
    if at' % 64 ≠ 0 then .abort tl 0x601 0
    else
      let sts := rows.map fun l => (at' + 8 * (l - r0), leBytes 8 (tl.stGet w.sb.toNat l))
      Act.ofRows (writeRows kx.k sts tl) fun tl => tl.vuBusy (2 + ceilDiv rows.length 64)

/-- OSMC LOAD (R217). -/
def execOsmcLoad (t : Nat) (w : IWord) (s : State) : Res :=
  fnInstr 4 w <| tileInstr s t (.osmcLoad t w) 0x53 w 0 fun tl kx =>
    let (r0, _, m, _) := osmRegion w
    let rows := osmRows tl kx w r0 m
    let at' := (tl.a kx w.sc).toNat
    let part : Ex (List (Nat × List Byte)) := do
      need (at' % 64 == 0) 0x601
      rows.mapM fun l => do
        let st ← cisRead tl kx.k (at' + 8 * (l - r0)) 8
        return (l, st)
    match part with
    | .error e => .ofStop tl e
    | .ok ps =>
      .done ((ps.foldl (fun tl p => tl.stSet w.sb.toNat p.1 (leNat (p.2.drop 4)) (leNat (p.2.take 4))) tl).vuBusy
        (2 + ceilDiv rows.length 64))

/-! ### OSMV -/

/-- An exact value rounded upward to fp32 (R224). -/
def roundUp32 (e : Ext) : Nat :=
  match e with
  | .fin d =>
    let b := (fp32.round .rtz false 0 d).bits
    match fp32.dec b with
    | .fin r => if r.lt d then b + 1 else b
    | _ => b
  | e => exactBits fp32 e

/-- A sum rounded upward. -/
def addUp (a b : Nat) : Nat := roundUp32 ((fp32.dec a).add (fp32.dec b))
/-- A product rounded upward. -/
def mulUp (a b : Nat) : Nat := roundUp32 ((fp32.dec a).mul (fp32.dec b))
/-- X(y) of R224: the SFU's exp2 times 1 + 2^−10, rounded upward. -/
def xUp (y : Nat) : Nat := roundUp32 ((fp32.dec (exp2f y)).mul (.fin ⟨false, 1025, -10⟩))
/-- X(a − b), the difference rounded upward. -/
def xDiff (a b : Nat) : Nat := xUp (roundUp32 ((fp32.dec a).sub (fp32.dec b)))

/-- The bound B̂ of a column for a row, exact before its one rounding upward (R224). -/
def boundOf (d q : Nat) (it : BItem) : Nat :=
  let Q := fp32.dec q
  roundUp32 (((fp32.dec d).add (Q.mul (fp32.dec it.radius))).add
    ((Q.mul (fp32.dec it.knorm)).mul (.fin ⟨false, 1, -20⟩)))

/-- A row's bound pair after its skipped columns (R224). -/
def boundRow (tl : Tile) (sb sa dst l c0 : Nat) (its : List (Nat × BItem)) : Tile :=
  let bs := its.map fun p => (boundOf (tl.accGet sb l (c0 + p.1)) (tl.vGet sa l) p.2, p.2.valid)
  let b0 := tl.stLo dst l
  let b := exactBits fp32 ((bs.map fun p => fp32.dec p.1).foldl Ext.max' (fp32.dec b0))
  if b = negInf then tl
  else
    let t0 := mulUp (tl.stHi dst l) (xDiff b0 b)
    let sum := bs.foldl (fun s p =>
      addUp s (roundUp32 ((Ext.fin (Dy.ofNat p.2)).mul (fp32.dec (xDiff p.1 b))))) t0
    tl.stSet dst l sum b

/-- OSMV FN 0 (R224). -/
def execOsmvAccum (t : Nat) (w : IWord) (x : W64) (s : State) : Res :=
  fnInstr 0 w <| tileInstr s t (.osmvAccum t w x) 0x56 w x fun tl kx =>
    let (r0, c0, m, n) := osmRegion w
    let rows := osmRows tl kx w r0 m
    let at' := (tl.a kx w.sc).toNat
    let part : Ex (Tile × List (Nat × BItem)) := do
      need (at' % 64 == 0) 0x601
      let skip ← cisRead tl kx.k (at' + 16) 16
      let (tl', base) ← osmItems tl kx (specA x)
      let its ← ((maskCols (leNat skip)).filter fun j => decide (j < n)).mapM fun j => do
        let it ← readItem tl kx base j
        return (j, it)
      return (tl', its)
    match part with
    | .error e => .ofStop tl e
    | .ok (tl', its) =>
      .done ((rows.foldl (fun tl l => boundRow tl w.sb.toNat w.sa.toNat w.dst.toNat l c0 its) tl').vuBusy
        (4 + ceilDiv (rows.length * its.length) 128))

/-- Whether a row fails OSMV FN 1: the skipped mass exceeds ε × SUM (R226). -/
def rowFails (eps : Ext) (bound stats : Nat × Nat) : Bool :=
  let s := if bound.2 = negInf then 0 else mulUp bound.1 (xDiff bound.2 stats.2)
  (eps.mul (fp32.dec stats.1)).lt (fp32.dec s)

/-- OSMV FN 1 (R212, R226, R229): under replay the recorded outcome stands in for the test's. -/
def execOsmvDecide (t : Nat) (w : IWord) (x : W64) (s : State) : Res :=
  fnInstr 1 w <| deviceInstr s t (.osmvDecide t w x) 0x56 w x fun s tl kx => inDev t (do
    let (r0, _, m, _) := osmRegion w
    let rows := osmRows tl kx w r0 m
    let eps := osmEps kx
    liftEx (need (tl.ctx kx.c).blk.isOpen 0x603)
    liftEx (need (eps.isFin && !eps.below0) 0x604)
    let pair (r l : Nat) : Nat × Nat := (tl.stHi r l, tl.stLo r l)
    let bad := rows.any fun l => rowFails eps (pair w.sa.toNat l) (pair w.sb.toNat l)
    let out ← tileJournal t 7 0 [if bad then 1 else 0]
    let bad := out.headD 0 != 0
    let tl := tl.upd kx fun c => c.pSet w.dst.toNat (if bad then BitVec.allOnes 256 else 0)
    let tl := if bad then tl.perf 0x2070 (tl.ctx kx.c).blk.skipped else tl
    return .done (tl.vuBusy (2 + ceilDiv rows.length 128))) s tl

/-! ### OSMB -/

/-- An OSMB on its tile: per enabled row and column its fp32 value in place in bank SA, and bf16 in the destination
(R216, R250). -/
def osmbBody (tl : Tile) (kx : Kx) (w : IWord) (x : W64) (per : Nat) (f : Nat → Nat → Nat) : Act :=
  let (r0, c0, m, n) := osmRegion w
  let rows := osmRows tl kx w r0 m
  let d := specTd (tl.ctx kx.c) (specA x)
  match osmDest d with
  | .error e => .ofStop tl e
  | .ok () =>
    let vals := rows.flatMap fun l => (List.range n).map fun j =>
      (l, j, if osmMasked kx l (c0 + j) then 0 else f l (c0 + j))
    let cells := vals.map fun v => (v.1 - r0, v.2.1,
      (bf16.enc (rndW w) false (osmDraw kx w d (v.1 - r0) v.2.1) (fp32.dec v.2.2)).bits)
    Act.ofRows (writeRows kx.k (osmStores w d cells) tl) fun tl =>
      (vals.foldl (fun tl v => tl.accSet w.sa.toNat v.1 (c0 + v.2.1) v.2.2) tl).vuBusy (4 + ceilDiv (rows.length * n) per)

/-- OSMB FN 0 (R250): normalised probabilities. -/
def execOsmbProb (t : Nat) (w : IWord) (x : W64) (s : State) : Res :=
  fnInstr 0 w <| tileInstr s t (.osmbProb t w x) 0x55 w x fun tl kx =>
    osmbBody tl kx w x 128 fun l n =>
      mulRne (exactBits fp32 (exp2Diff (tl.accGet w.sa.toNat l n) (tl.stLo w.sb.toNat l)))
        (recipRefined (tl.stHi w.sb.toNat l))

/-- OSMB FN 1 (R250): score gradients. -/
def execOsmbDscore (t : Nat) (w : IWord) (x : W64) (s : State) : Res :=
  fnInstr 1 w <| tileInstr s t (.osmbDscore t w x) 0x55 w x fun tl kx =>
    if !(fp32.dec (osmDscale kx)).isFin then .abort tl 0x604 0
    else osmbBody tl kx w x 512 fun l n =>
      exactBits fp32 (((fp32.dec (osmDscale kx)).mul (tl.accVal w.sb.toNat l n)).mul
        ((tl.accVal w.sa.toNat l n).sub (fp32.dec (tl.vGet w.sc.toNat l))))

end Sys2Proof.Machine
end

