-- ==== Sys2Proof/Machine/Stream.lean ====
section
/-! DEFINITION. The streams of a flume channel: its descriptor (R267, R273 to R275), the device bytes of each unit (R268,
R269, R275), the requests it forms (R283), and the delivery of read data into its ring (R271, R272, R277). -/

namespace Sys2Proof.Machine

/-! ### Descriptors -/

/-- A field of a descriptor. -/
def dfld (d : List Byte) (off n : Nat) : Nat := leNat ((d.drop off).take n)

/-- The fields of a descriptor outside the dimensions (R267). -/
structure FDesc where
  mode  : Nat
  dir   : Nat
  dims  : Nat
  hint  : Nat
  src   : Nat
  dst   : Nat
  flags : Nat
  slots : Nat
  rows  : Nat
  cols  : Nat
  ringBase : Nat
  pitch : Nat
  rate  : Nat
  pad   : Nat
  winLo : Nat
  winHi : Nat
  listOff : Nat
  listCount : Nat
  kind  : Nat
  item  : Nat
  head  : Nat
  headsM1 : Nat
  doneOff : Nat
  deriving DecidableEq, Repr

/-- Reading a descriptor (R267). -/
def fdescOf (d : List Byte) : FDesc :=
  { mode := dfld d 0 1, dir := dfld d 1 1, dims := dfld d 2 1, hint := dfld d 3 1, src := dfld d 4 1, dst := dfld d 5 1
    flags := dfld d 6 1, slots := dfld d 7 1, rows := dfld d 8 4, cols := dfld d 0xC 4, ringBase := dfld d 0x10 4
    pitch := dfld d 0x14 4, rate := dfld d 0x18 4, pad := dfld d 0x1C 4, winLo := dfld d 0x48 8, winHi := dfld d 0x50 8
    listOff := dfld d 0xD8 4, listCount := dfld d 0xDC 4, kind := dfld d 0xE0 1, item := dfld d 0xE1 1
    head := dfld d 0xE2 1, headsM1 := dfld d 0xE3 1, doneOff := dfld d 0xE4 4 }

/-- OUTL of a descriptor. -/
def FDesc.outl (f : FDesc) : Bool := bit f.flags 0
/-- ESC_SLOTS, as coded. -/
def FDesc.esc (f : FDesc) : Nat := fld f.flags 2 1
/-- TILE_ESC, as coded. -/
def FDesc.tileEsc (f : FDesc) : Nat := fld f.flags 4 3
/-- TRANS. -/
def FDesc.trans (f : FDesc) : Bool := bit f.flags 5
/-- Whether the source is a block format. -/
def FDesc.blkSrc (f : FDesc) : Bool := isBlockFmt f.src
/-- Whether the slots hold a block format. -/
def FDesc.blkDst (f : FDesc) : Bool := isBlockFmt f.dst
/-- COUNT, STRIDE and BOUND of dimension `k`. -/
def dimOf (d : List Byte) (k : Nat) : Nat × Int × Nat :=
  (dfld d (0x60 + 24 * k) 4 + 1, sgn 64 (dfld d (0x68 + 24 * k) 8), dfld d (0x70 + 24 * k) 8)
/-- The dimensions of a MODE 0 stream. -/
def dimsOf (d : List Byte) : List (Nat × Int × Nat) := (List.range (min 5 (dfld d 2 1))).map (dimOf d)
/-- The ring that a descriptor gives (R271). -/
def FDesc.ring (f : FDesc) : Ring :=
  { base := f.ringBase, pitch := f.pitch, sl := List.replicate f.slots 0, kslot := 0, pslot := 0, fmt := f.dst
    outl := f.blkDst && f.outl, esc := f.tileEsc, rows := f.rows, cols := f.cols }

/-- Whether the source format is accepted (R270, R275). -/
def FDesc.srcOk (f : FDesc) : Bool :=
  if f.mode = 1 then f.src == (if f.item ≤ 1 then 0 else if f.item = 2 then 4 else 12)
  else if f.dir = 1 then f.src == 8 || f.src == 9 || f.src == 10 || f.src == 12
  else isBlockFmt f.src || f.src == 8 || f.src == 9 || f.src == 10 || f.src == 12
/-- Whether the pair of formats is accepted (R270, R275). -/
def FDesc.pairOk (f : FDesc) : Bool :=
  f.src == f.dst ||
    (f.dir == 0 &&
      (if f.mode = 1 then decide (f.item ≤ 1) && (f.dst == 8 || f.dst == 9)
       else (f.blkSrc && (f.dst == 8 || f.dst == 9)) || ((f.src == 9 || f.src == 10) && f.dst == 8)))

/-- The fields of a list that are not 0, by offset. -/
def zeroAt (d : List Byte) (l : List (Nat × Nat)) : List Nat :=
  l.filterMap fun p => if dfld d p.1 p.2 = 0 then none else some p.1
/-- An offset that fails when a condition holds. -/
def failIf (b : Bool) (off : Nat) : List Nat := if b then [off] else []

/-- The fields of dimension `k`. -/
def dimFields (k : Nat) : List (Nat × Nat) :=
  [(0x60 + 24 * k, 4), (0x68 + 24 * k, 8), (0x70 + 24 * k, 8)]

/-- R273's first item: reserved and unused fields, and PAD. -/
def fcfgZero (d : List Byte) (f : FDesc) : List Nat :=
  zeroAt d ([(0x58, 8), (0xE8, 24)] ++ (List.range 5).map fun k => (0x64 + 24 * k, 4)) ++
  failIf (fld f.flags 7 6 != 0) 6 ++
  failIf ((f.blkDst && f.pad != 0) || (f.dir == 1 && f.pad != 0) || (f.mode == 1 && f.item == 3 && f.pad != 0) ||
    ((f.dst == 9 || f.dst == 10) && f.pad / 65536 != 0) || (f.dst == 12 && f.pad / 256 != 0)) 0x1C ++
  (if f.mode = 1 then
    zeroAt d ((List.range 5).map (fun k => (0x20 + 8 * k, 8)) ++ [(0x48, 8), (0x50, 8)] ++ (List.range 5).flatMap dimFields) ++
    failIf (fld f.flags 4 0 != 0) 6 ++ failIf (f.kind != 0 && f.listCount != 0) 0xDC
  else if f.mode = 0 then
    zeroAt d ([(0xD8, 4), (0xDC, 4), (0xE0, 1), (0xE1, 1), (0xE2, 1), (0xE3, 1)] ++
      ((List.range 5).filter fun k => decide (f.dims ≤ k)).flatMap dimFields ++
      (if f.blkSrc then (if f.outl then [] else [(0x38, 8)]) ++ (if f.esc = 0 then [(0x40, 8)] else [])
       else (List.range 4).map fun k => (0x28 + 8 * k, 8))) ++
    failIf ((!f.blkSrc && fld f.flags 2 0 != 0) || (!f.blkDst && f.tileEsc != 0)) 6
  else [])

/-- R273's fourth item: ROWS, COLS and TRANS. -/
def fcfgShape (f : FDesc) : List Nat :=
  failIf (f.rows == 0) 8 ++ failIf (f.cols == 0) 0xC ++
  (if f.mode = 1 then
    (if f.item ≤ 1 then
      (if f.trans then failIf f.blkDst 6 ++ failIf (f.rows != 128) 8 ++ failIf (f.cols % 16 != 0) 0xC
       else failIf (f.rows % 16 != 0) 8 ++ failIf (f.cols != 128) 0xC)
     else if f.item = 2 then failIf f.trans 6 ++ failIf (f.cols != 128) 0xC
     else failIf f.trans 6 ++ failIf (f.rows != 1) 8 ++ failIf (f.cols % 16 != 0) 0xC)
   else if f.blkDst then failIf f.trans 6 ++ failIf (f.cols % 32 != 0) 0xC else [])

/-- The items of R273 in order, each as the offsets of its failing fields. -/
def fcfgItems (d : List Byte) (f : FDesc) : List (List Nat) :=
  let dims := (List.range (min 5 f.dims)).map fun k => (k, dimOf d k)
  [ fcfgZero d f,
    failIf (decide (1 < f.mode)) 0 ++ failIf (decide (1 < f.dir) || (f.mode == 1 && f.dir == 1)) 1 ++
      failIf (if f.mode = 1 then f.dims != 0 else f.mode == 0 && (f.dims == 0 || decide (5 < f.dims))) 2 ++
      failIf (decide (3 < f.hint)) 3 ++ failIf (decide (f.slots < 2 ∨ 8 < f.slots)) 7 ++
      failIf (decide (1048576 < f.listCount)) 0xDC ++ failIf (decide (2 < f.kind)) 0xE0 ++ failIf (decide (3 < f.item)) 0xE1,
    failIf (!f.srcOk) 4 ++ failIf (!f.pairOk) 5,
    fcfgShape f,
    failIf (f.ringBase % 64 != 0) 0x10 ++ failIf (f.pitch % 64 != 0 || decide (f.pitch < f.ring.tileSize)) 0x14 ++
      failIf (f.mode == 1 && f.listOff % (if f.kind = 0 then 16 else 64) != 0) 0xD8,
    failIf (f.rate == 0) 0x18,
    dims.flatMap fun p => failIf (decide (p.2.2.1 < -(2 ^ 39) ∨ (2 ^ 39 : Int) ≤ p.2.2.1)) (0x68 + 24 * p.1),
    dims.flatMap fun p => failIf (decide (2 ^ 32 < p.2.2.2)) (0x70 + 24 * p.1),
    failIf (decide (2 ^ 56 < (dims.map fun p => p.2.1).foldl (· * ·) 1)) 0x60,
    failIf ((f.esc != 0 || f.tileEsc != 0) && !f.outl) 6,
    failIf (decide (f.winHi < f.winLo)) 0x48,
    failIf (decide (f.headsM1 < f.head)) 0xE2,
    failIf (f.doneOff != 0xFFFFFFFF && f.doneOff % 32 != 0) 0xE4 ]

/-- The first check of R273 that a descriptor fails: the code and FAULT_ADDR. -/
def fcfgFail (k : LKernel) (d : List Byte) : Option (Nat × Nat) :=
  let f := fdescOf d
  match (fcfgItems d f).find? (· ≠ []) with
  | some offs => some (0x701, offs.foldl min (offs.headD 0))
  | none =>
    if k.cisBytes < f.ringBase + (f.slots - 1) * f.pitch + f.ring.tileSize then some (0x321, 0x10)
    else if f.mode = 1 ∧ k.cisBytes < f.listOff + (if f.kind = 0 then 16 * f.listCount else 4160) then some (0x321, 0xD8)
    else if f.doneOff ≠ 0xFFFFFFFF ∧ k.cisBytes < f.doneOff + 32 then some (0x321, 0xE4)
    else none

/-! ### Units -/

/-- A channel's descriptor. -/
def Chan.fd (c : Chan) : FDesc := fdescOf c.desc

/-- The offset of a unit, and whether it is padded (R268, R269). -/
def dimWalk : List (Nat × Int × Nat) → Nat → Int × Bool
  | [], _ => (0, false)
  | (n, st, b) :: ds, u =>
    let i := u % n
    let (o, p) := dimWalk ds (u / n)
    (o + i * st, p || decide (b ≤ i))

/-- The dimensions of a stream, BOUND of dimension 0 as the stream has it (R260). -/
def Chan.dims (c : Chan) : List (Nat × Int × Nat) :=
  match dimsOf c.desc with
  | [] => []
  | (n, st, _) :: ds => (n, st, c.bound0) :: ds

/-- A unit's address, or block index, and whether it is padded. -/
def Chan.unitAt (c : Chan) (u : Nat) : Nat × Bool :=
  if c.listMode then (u, false)
  else
    let (o, p) := dimWalk c.dims u
    (wrap 64 ((c.base : Int) + o), p)

/-- Whether a unit that is not padded lies in the window (R269). -/
def Chan.inWindow (c : Chan) (pos : Nat) : Bool :=
  let f := c.fd
  c.listMode || (decide (f.winLo ≤ pos) && decide (pos + (if f.blkSrc then 1 else scalarBytes f.src) ≤ f.winHi))

/-- The bytes of one unit in each plane, 0 for a plane that the source lacks: the elements, scales, outlier records and
escalation slots of a block; in list mode the page's two items (R268, R275). -/
def Chan.planes (c : Chan) : List Nat :=
  let f := c.fd
  if f.mode = 1 then
    (if f.item ≤ 1 then [2048, 64, 0, 0] else if f.item = 2 then [68, 0, 0, 0] else [16, 0, 0, 0])
  else if f.blkSrc then [blockBytes f.src, 1, if f.outl then 6 else 0, if f.esc = 0 then 0 else 64]
  else [scalarBytes f.src, 0, 0, 0]

/-- The bytes of one unit in a plane. -/
def Chan.bpu (c : Chan) (p : Nat) : Nat := c.planes.getD p 0
/-- A plane's cursor: how many bytes of it have been requested or passed over. -/
def Chan.at (c : Chan) (p : Nat) : Nat := c.cur.getD p 0
/-- A plane's cursor replaced. -/
def Chan.setAt (c : Chan) (p v : Nat) : Chan := { c with cur := c.cur.set p v }

/-- The stream's elements, or list positions (R268, R274). -/
def Chan.total (c : Chan) : Nat := c.count * c.unitElems
/-- The stream elements, or list positions, of one slot (R271, R275). -/
def Chan.perSlot (c : Chan) : Nat :=
  let f := c.fd
  if f.mode = 1 then
    (if f.item ≤ 1 then (if f.trans then f.cols else f.rows) / 16 else if f.item = 2 then f.rows else f.cols / 16)
  else f.rows * f.cols

/-- The cistern offset of the first entry of a channel's list (R274). -/
def FDesc.listAt (f : FDesc) : Nat := f.listOff + (if f.kind = 1 then 0x40 else if f.kind = 2 then 0x840 else 0)

/-- Why a stream cannot go on: a code, and its FAULT_ADDR. -/
abbrev Flt := Nat × Nat

/-- Body and side-record address of a list entry (R274, R276). -/
def Chan.entry (c : Chan) (tl : Tile) (k : LKernel) (i : Nat) : Except Flt (Nat × Nat) :=
  match cisRead tl k (c.fd.listAt + 16 * i) 16 with
  | .error (.abort code d) => .error (code, d)
  | .error .wait => .error (0x321, 0)
  | .ok bs =>
    let body := leNat (bs.take 8)
    let side := leNat (bs.drop 8)
    if body % 64 = 0 ∧ side % 64 = 0 then .ok (body, side) else .error (0x709, if body % 64 = 0 then side else body)

/-- A byte of a plane among those that wait. -/
def stagedByte (st : List Staged) (plane pos : Nat) : Option Byte :=
  (st.find? fun g => g.plane == plane && decide (g.pos ≤ pos) && decide (pos < g.pos + g.data.length)).map fun g =>
    g.data.getD (pos - g.pos) 0

/-- `n` bytes of a plane that wait, when all are there. -/
def staged (st : List Staged) (plane pos n : Nat) : Option (List Byte) :=
  (List.range n).mapM fun i => stagedByte st plane (pos + i)

/-- The device address of a unit's first byte in a plane; `slot` is a block's ESC_SLOT. -/
def Chan.planeAddr (c : Chan) (tl : Tile) (k : LKernel) (p u slot : Nat) : Except Flt Nat :=
  let f := c.fd
  if f.mode = 1 then do
    let (body, side) ← c.entry tl k u
    let H := f.headsM1 + 1
    return (if f.item ≤ 1 then
        (if p = 0 then body + 4096 * f.head + 2048 * f.item else side + 0x40 + (128 + 64 * f.item) * H + 64 * f.head)
      else side + 0x40 + 128 * f.head + (if f.item = 3 then 0x50 else 0)) % 2 ^ 64
  else
    let x := (c.unitAt u).1
    .ok ((if !f.blkSrc then x
      else if p = 0 then dfld c.desc 0x28 8 + x * blockBytes f.src
      else if p = 1 then dfld c.desc 0x30 8 + x
      else if p = 2 then dfld c.desc 0x38 8 + 6 * x
      else dfld c.desc 0x40 8 + ((x / 64) * escSlotCount f.esc + slot) * 64) % 2 ^ 64)

/-- The ESC_SLOT of an escalated unit (R751), `none` for one that is not; the outer `none` while its record is not
known. -/
def Chan.escOf (c : Chan) (u : Nat) : Option (Option Nat) :=
  (staged c.stage 2 (6 * u) 6).map fun r =>
    if isEscalated (escSlotCount c.fd.esc) (leNat r) then some (fld (leNat r) 46 45) else Option.none

/-! ### Requests -/

/-- A request that a channel forms: plane, plane position, device address and length. -/
structure Req where
  plane : Nat
  pos   : Nat
  addr  : Nat
  len   : Nat
  deriving DecidableEq, Repr

/-- A plane's cursor moved over units that have nothing to request: padded ones, and in the escalation plane blocks that
are not escalated. `lim` is the first unit out of reach. -/
def Chan.skip (c : Chan) (p lim : Nat) : Nat → Nat → Nat
  | 0, pos => pos
  | fuel + 1, pos =>
    let b := max 1 (c.bpu p)
    let u := pos / b
    if lim ≤ u ∨ pos % b ≠ 0 then pos
    else if (c.unitAt u).2 then c.skip p lim fuel (pos + b)
    else if p = 3 then (match c.escOf u with
      | some Option.none => c.skip p lim fuel (pos + b)
      | _ => pos)
    else pos

/-- The length of the run of consecutive bytes from a plane position at a device address, `left` bytes of its window
being free (R283). -/
def Chan.run (c : Chan) (tl : Tile) (k : LKernel) (p lim : Nat) : Nat → Nat → Nat → Nat → Nat
  | 0, _, _, _ => 0
  | fuel + 1, pos, addr, left =>
    let b := max 1 (c.bpu p)
    let u := pos / b
    let n := min (b - pos % b) left
    let v := u + 1
    if n = left ∨ n < b - pos % b ∨ lim ≤ v ∨ c.listMode ∨ p = 3 then n
    else
      let (x, pad) := c.unitAt v
      if pad ∨ !c.inWindow x then n
      else match c.planeAddr tl k p v 0 with
        | .ok a => if a = addr + n then n + c.run tl k p lim fuel (pos + n) a (left - n) else n
        | .error _ => n

/-- What a plane or a channel can request now. -/
inductive Next where
  | none
  | req (r : Req)
  | fault (f : Flt)
  deriving DecidableEq, Repr

/-- The next request of a plane, from its cursor after skipping. -/
def Chan.nextOf (c : Chan) (tl : Tile) (k : LKernel) (p lim pos : Nat) : Next :=
  let b := max 1 (c.bpu p)
  let u := pos / b
  if c.bpu p = 0 ∨ lim ≤ u then .none
  else
    let (x, _) := c.unitAt u
    if !c.inWindow x then .fault (0x707, x)
    else
      let slot : Option Nat := if p = 3 then (match c.escOf u with
        | some (some n) => some n
        | _ => Option.none) else some 0
      match slot with
      | Option.none => .none
      | some n =>
        match c.planeAddr tl k p u n with
        | .error f => .fault f
        | .ok a =>
          let addr := a + pos % b
          .req { plane := p, pos := pos, addr := addr, len := c.run tl k p lim 256 pos addr (256 - addr % 256) }

/-- How many slots from the flume's current one on are in a state. -/
def Ring.run (g : Ring) (v : Nat) : Nat :=
  let l := (List.range g.sl.length).map fun i => g.sl.getD ((g.pslot + i) % max 1 g.sl.length) 9
  (l.takeWhile (· == v)).length

/-- The first unit that a RUNNING channel may not request yet: a read channel fills the slots the flume owns, a write
channel drains its current slot once it is handed over. -/
def Chan.limit (c : Chan) : Nat :=
  let P := max 1 c.perSlot
  let e := c.unitElems
  if c.isWrite then
    (if c.ring.run 1 = 0 then 0 else min c.count ((c.at 0 / max 1 (c.bpu 0) / P + 1) * P))
  else min c.count (ceilDiv ((c.commit / P + c.ring.run 0) * P) e)

/-- A channel's planes moved to their next requests. -/
def Chan.skipped (c : Chan) : Chan :=
  let lim := c.limit
  { c with cur := (List.range 4).map fun p =>
      if c.bpu p = 0 then c.at p else c.skip p lim (lim + 1 - c.at p / c.bpu p) (c.at p) }

/-- The next request of a channel in stream order: of its planes the one whose unit comes first. -/
def Chan.next (c : Chan) (tl : Tile) (k : LKernel) : Next :=
  let lim := c.limit
  let cand := (List.range 4).filterMap fun p =>
    match c.nextOf tl k p lim (c.at p) with
    | .none => Option.none
    | n => some (c.at p / max 1 (c.bpu p), n)
  match cand.foldl (fun (b : Option (Nat × Next)) x => match b with
      | Option.none => some x
      | some y => if x.1 < y.1 then some x else some y) Option.none with
  | Option.none => .none
  | some x => x.2

/-! ### Delivery -/

/-- The bytes of PAD for one element (R269). -/
def FDesc.padBytes (f : FDesc) : List Byte := leBytes (scalarBytes f.dst) f.pad

/-- Where element `q` of a scalar slot lies within it (R164, R271). -/
def FDesc.elemAt (f : FDesc) (q : Nat) : Nat :=
  let (r, c) := if f.trans then (q % f.rows, q / f.rows) else (q / f.cols, q % f.cols)
  r * packedRow f.dst f.cols + c * scalarBytes f.dst

/-- Where element `d` of token `tok` of a list-mode slot lies within it (R275). -/
def FDesc.tokAt (f : FDesc) (tok d : Nat) : Nat :=
  let (r, c) := if f.trans then (d, tok) else (tok, d)
  r * packedRow f.dst f.cols + c * scalarBytes f.dst

/-- The kernel offset of the slot that the flume fills or drains. -/
def Chan.slotOff (c : Chan) : Nat := c.ring.base + c.ring.pslot * c.ring.pitch

/-- Bytes put into the channel's current slot, counted in FLM_PERF_BYTES. -/
def Tile.slotPut (tl : Tile) (k : LKernel) (c : Chan) (off : Nat) (bs : List Byte) : Tile :=
  (tl.cisPut (k.cisOff + c.slotOff + off) bs).perf 0x8018 bs.length

/-- One block put at tile block `b` of the current slot: element bytes, scale and outlier record (R164, R271). -/
def Tile.blockPut (tl : Tile) (k : LKernel) (c : Chan) (b : Nat) (elems : List Byte) (scale record : Nat) : Tile :=
  let g := c.ring
  let pk := packedOf g.fmt g.rows g.cols g.outl (escSlotCount g.esc)
  let tl := tl.slotPut k c (b * blockBytes g.fmt) elems
  let tl := tl.slotPut k c (pk.scale + b) (leBytes 1 scale)
  if g.outl then tl.slotPut k c (pk.outl + 6 * b) (leBytes 6 record) else tl

/-- `n` blocks of zeros from tile block `b` on (R269). -/
def Tile.zeroBlocks (tl : Tile) (k : LKernel) (c : Chan) (b n : Nat) : Tile :=
  (List.range n).foldl (fun tl i => tl.blockPut k c (b + i) (List.replicate (blockBytes c.ring.fmt) 0) 0 0) tl

/-- Elements, or places with no page, `q` to `q + n − 1` of the current slot padded (R269, R275). -/
def Tile.padSlot (tl : Tile) (k : LKernel) (c : Chan) (q n : Nat) : Tile :=
  let f := c.fd
  if f.mode = 1 then
    if f.item = 3 then tl.slotPut k c (16 * q) (List.replicate (16 * n) 0)
    else if f.item = 2 then tl.zeroBlocks k c (4 * q) (4 * n)
    else if f.blkDst then tl.zeroBlocks k c (64 * q) (64 * n)
    else (List.range (2048 * n)).foldl (fun tl i => tl.slotPut k c (f.tokAt (16 * q + i / 128) (i % 128)) f.padBytes) tl
  else if f.blkDst then tl.zeroBlocks k c (q / 32) (n / 32)
  else (List.range n).foldl (fun tl i => tl.slotPut k c (f.elemAt (q + i)) f.padBytes) tl

/-- A value delivered in the slot's scalar format: its bytes and events (R57, R58, R68). -/
def FDesc.widen (f : FDesc) (e : Ext) : List Byte × Exc :=
  let o := widenTo (scalarFmt f.dst) e
  (leBytes (scalarBytes f.dst) o.1, o.2)

/-- The values of a source block that waits, its escalation read when it has one (R57, R751). -/
def Chan.blockVals (c : Chan) (u : Nat) : Option (List Ext) := do
  let f := c.fd
  let E := blockBytes f.src
  let es ← staged c.stage 0 (E * u) E
  let sc ← staged c.stage 1 u 1
  let r ← if f.outl then staged c.stage 2 (6 * u) 6 else some []
  if f.outl && isEscalated (escSlotCount f.esc) (leNat r) then
    let xs ← staged c.stage 3 (64 * u) 64
    return bf16Vals 32 xs
  else return (if f.outl then withOutliers (leNat r) else id) (narrowVals f.src es (leNat sc))

/-- A source block that waits delivered unchanged into a block slot, its escalation moved to the lowest free slot of the
receiving tile segment or dropped (R272). -/
def Tile.blockCopy (tl : Tile) (k : LKernel) (ctx : Nat) (c : Chan) (u b : Nat) : Option (Tile × Chan) := do
  let f := c.fd
  let E := blockBytes f.src
  let es ← staged c.stage 0 (E * u) E
  let sc ← staged c.stage 1 u 1
  let r0 ← if f.outl then staged c.stage 2 (6 * u) 6 else some []
  let r := leNat r0
  let plain := setFld (setFld r 47 47 0) 46 45 0
  if f.outl && isEscalated (escSlotCount f.esc) r then
    let xs ← staged c.stage 3 (64 * u) 64
    let seg := b / 64
    let used := c.escUsed.getD seg 0
    let slots := escSlotCount f.tileEsc
    if used < slots then
      let g := c.ring
      let pk := packedOf g.fmt g.rows g.cols g.outl slots
      let grown := c.escUsed ++ List.replicate (seg + 1 - c.escUsed.length) 0
      let tl := tl.blockPut k c b es (leNat sc) (setFld (setFld r 47 47 1) 46 45 used)
      return (tl.slotPut k c (pk.esc + (seg * slots + used) * 64) xs, { c with escUsed := grown.set seg (used + 1) })
    else
      let tl := tl.blockPut k c b es (leNat sc) plain
      let off := 0x2458 + 0x100 * ctx
      return (tl.setReg off (satCount (tl.reg off) 1), { c with drops := true })
  else return (tl.blockPut k c b es (leNat sc) plain, c)

/-- One page that waits delivered at place `g` of the current slot (R275). -/
def Tile.pagePut (tl : Tile) (k : LKernel) (ctx : Nat) (c : Chan) (u g : Nat) : Option Tile := do
  let f := c.fd
  if f.item = 3 then
    let bs ← staged c.stage 0 (16 * u) 16
    return tl.slotPut k c (16 * g) bs
  else if f.item = 2 then
    let bs ← staged c.stage 0 (68 * u) 68
    return (List.range 4).foldl (fun tl i =>
      tl.blockPut k c (4 * g + i) ((bs.drop (16 * i)).take 16) (bs.getD (64 + i) 0).toNat 0) tl
  else
    let es ← staged c.stage 0 (2048 * u) 2048
    let sc ← staged c.stage 1 (64 * u) 64
    let blk (i : Nat) : List Byte := (es.drop (32 * i)).take 32
    if f.blkDst then
      return (List.range 64).foldl (fun tl i => tl.blockPut k c (64 * g + i) (blk i) (sc.getD i 0).toNat 0) tl
    else
      return (List.range 64).foldl (fun tl i =>
        (narrowVals 0 (blk i) (sc.getD i 0).toNat).zipIdx.foldl (fun tl p =>
          let (bs, ev) := f.widen p.1
          (tl.slotPut k c (f.tokAt (16 * g + i / 4) (32 * (i % 4) + p.2)) bs).count ctx ev) tl) tl

/-- One element, block or page of a read stream delivered: the tile, the channel, and how far the stream advanced;
`none` while its bytes are not there. -/
def Tile.deliverOne (tl : Tile) (k : LKernel) (ctx : Nat) (c : Chan) : Option (Tile × Chan × Nat) := do
  let f := c.fd
  let q := c.commit % max 1 c.perSlot
  if f.mode = 1 then
    let tl ← tl.pagePut k ctx c c.commit q
    return (tl, c, 1)
  else
    let u := c.commit / c.unitElems
    let pad := (c.unitAt u).2
    if f.blkDst then
      if pad then return (tl.padSlot k c q 32, c, 32)
      else
        let (tl, c) ← tl.blockCopy k ctx c u (q / 32)
        return (tl, c, 32)
    else if pad then return (tl.padSlot k c q 1, c, 1)
    else if f.blkSrc then
      let vs ← c.blockVals u
      let (bs, ev) := f.widen (vs.getD (c.commit % 32) .nan)
      return ((tl.slotPut k c (f.elemAt q) bs).count ctx ev, c, 1)
    else
      let n := scalarBytes f.src
      let bs ← staged c.stage 0 (n * u) n
      let (out, ev) := if f.src = f.dst then (bs, Exc.zero) else f.widen (scalarDec f.src bs)
      return ((tl.slotPut k c (f.elemAt q) out).count ctx ev, c, 1)

/-- The bytes that wait for units already delivered dropped. -/
def Chan.prune (c : Chan) : Chan :=
  let u := c.commit / c.unitElems
  { c with stage := c.stage.filter fun g => decide (u * c.bpu g.plane < g.pos + g.data.length) }

/-- A channel replaced. -/
def Tile.setChan (tl : Tile) (n : Nat) (c : Chan) : Tile := { tl with chans := spSet dChan tl.chans n c }
/-- A channel. -/
def Tile.chan (tl : Tile) (n : Nat) : Chan := spGet dChan tl.chans n

/-- Delivery as far as the bytes and the slots allow (R271, R277): a slot that is complete, its tail padded at the end of
the stream, is flagged, and the stream's last slot makes the channel DONE (R265). While the task is being aborted no flag
is set (R290). -/
def Tile.deliver (tl : Tile) (k : LKernel) (ctx n time : Nat) : Nat → Tile
  | 0 => tl
  | fuel + 1 =>
    let c := tl.chan n
    if c.total ≤ c.commit ∨ c.ring.sl.getD c.ring.pslot 9 ≠ 0 then tl
    else
      match tl.deliverOne k ctx c with
      | none => tl
      | some (tl, c, step) =>
        let at' := c.commit + step
        let P := max 1 c.perSlot
        let last := decide (c.total ≤ at')
        if at' % P = 0 ∨ last then
          let tl := if at' % P = 0 then tl else tl.padSlot k c (at' % P) (P - at' % P)
          let c := { c with commit := at', escUsed := [] }.prune
          if tl.aborting ∨ c.st ≠ 2 then tl.setChan n c
          else
            let g := { c.ring.setSlot c.ring.pslot 1 with pslot := (c.ring.pslot + 1) % max 1 c.ring.sl.length }
            let tl := tl.setChan n { c with ring := g }
            if last then tl.chanEnd k n 3 0 0 c.total 0 time else tl.deliver k ctx n time fuel
        else (tl.setChan n { c with commit := at' }.prune).deliver k ctx n time fuel

/-- How many steps a delivery can take: the elements of the ring. -/
def Chan.fuel (c : Chan) : Nat := c.ring.sl.length * max 1 c.perSlot + 1

/-- Delivery on a channel of the running kernel. -/
def Tile.pump (tl : Tile) (k : LKernel) (ctx n time : Nat) : Tile := tl.deliver k ctx n time (tl.chan n).fuel

end Sys2Proof.Machine
end

