-- ==== Sys2Proof/Machine/Flume.lean ====
section
/-! DEFINITION. The flume: its instructions (R257 to R266, R287), the grant of requests by deadline (R281, R282),
translation on behalf of a tile (R353, R359), answers, faults (R290 to R294) and the crumb path. -/

namespace Sys2Proof.Machine

/-! ### Records and faults -/

/-- A tile's last kernel, running or draining. -/
def Tile.kernel (tl : Tile) : Option (Run × LKernel) :=
  tl.run.bind fun r => (findKernel (tl.ctx r.ctx) r.handle).map fun k => (r, k)

/-- SEQ_LAST_DETAIL takes a completion record (R293). -/
def Tile.lastDetail (tl : Tile) (record : List Byte) : Tile :=
  (List.range 4).foldl (fun tl i =>
    tl.setReg (0x1040 + 8 * i) (BitVec.ofNat 64 (leNat ((record.drop (8 * i)).take 8)))) tl

/-- DETAIL of a launch that a flume fault ended (R293). -/
def flmDetail (chan elem : Nat) : Nat := chan * 2 ^ 24 + min elem 0xFFFFFF

/-- A channel of tile `t` faults: its record, and the task aborted (R290 to R294). -/
def chanFault (s : State) (t n st code listPos addr : Nat) : State :=
  let tl := s.tile t
  match tl.running with
  | none => s
  | some (_, k) =>
    let elem := (tl.chan n).commit
    let tl := tl.chanEnd k n st code listPos elem addr s.time
    abortTile s t (tl.lastDetail (tl.chan n).done) code (flmDetail n elem)

/-- A crumb of tile `t` faults (R290, R291). -/
def crumbFault (s : State) (t e : Nat) (write : Bool) (code addr : Nat) : State :=
  let tl := s.tile t
  abortTile s t (tl.lastDetail (flmRecord code (0x80 + e) (b2n write) 0 0 addr s.time)) code (flmDetail (0x80 + e) 0)

/-! ### Requests of either path by tag -/

/-- A crumb entry. -/
def Tile.crumb (tl : Tile) (e : Nat) : Crumb := spGet dCrumb tl.crumbs e
/-- A crumb entry replaced. -/
def Tile.setCrumb (tl : Tile) (e : Nat) (c : Crumb) : Tile := { tl with crumbs := spSet dCrumb tl.crumbs e c }

/-- An issued crumb as a request: tag 1,024 plus its entry. -/
def Crumb.flight (c : Crumb) (e : Nat) : Flight :=
  { tag := 1024 + e, chan := 0x80 + e, plane := 0, pos := 0, len := c.len, write := c.write, addr := c.addr
    leaf := c.leaf, hint := c.hint, data := c.data, t0 := c.t0, ans := c.ans }

/-- The request in flight on a tag. -/
def Tile.flight (tl : Tile) (tag : Nat) : Option Flight :=
  if tag < 1024 then tl.flights.find? fun f => f.tag == tag
  else
    let c := tl.crumb (tag - 1024)
    if c.st = 2 then some (c.flight (tag - 1024)) else none

/-- A request in flight with its translation and answer replaced. -/
def Tile.putFlight (tl : Tile) (f : Flight) : Tile :=
  if f.tag < 1024 then { tl with flights := tl.flights.map fun g => if g.tag = f.tag then f else g }
  else tl.setCrumb (f.tag - 1024) { tl.crumb (f.tag - 1024) with leaf := f.leaf, ans := f.ans }

/-- A request no longer in flight: its tag or entry is free. -/
def Tile.dropFlight (tl : Tile) (tag : Nat) : Tile :=
  if tag < 1024 then { tl with flights := tl.flights.filter fun f => f.tag != tag }
  else tl.setCrumb (tag - 1024) .none

/-- A request that fails ends the task (R290). -/
def reqFault (t : Nat) (f : Flight) (st code : Nat) : Dev Unit := upd fun s =>
  let tl := (s.tile t).dropFlight f.tag
  let s := s.setTile t tl
  if f.chan < 32 then
    let c := tl.chan f.chan
    if c.st = 2 then chanFault s t f.chan st code (if c.listMode then f.pos / max 1 (c.bpu f.plane) else 0) f.addr else s
  else crumbFault s t (f.chan - 0x80) f.write code f.addr

/-! ### Translation -/

/-- A cached translation (R359). -/
def Tile.cached (tl : Tile) (as sel va : Nat) : Option (Leaf × Nat) :=
  (tl.tlb.find? fun e => e.as == as && e.sel == sel && decide (e.vpn ≤ va / 65536) && decide (va / 65536 < e.vpn + e.span)).map
    fun e => ({ e.leaf with addr := e.leaf.addr + (va - e.vpn * 65536) }, if e.span = 1 then 3 else 2)

/-- A translation put into the tile's cache, the oldest leaving it at 1,024 (R359). -/
def Tile.cache (tl : Tile) (as sel va lvl : Nat) (lf : Leaf) : Tile :=
  let span := if lvl = 2 then 2048 else 1
  let vpn := va / 65536 / span * span
  let e : TlbE := { as := as, sel := sel, vpn := vpn, span := span, leaf := { lf with addr := lf.addr - (va - vpn * 65536) } }
  { tl with tlb := (if 1024 ≤ tl.tlb.length then tl.tlb.drop 1 else tl.tlb) ++ [e] }

/-- A request's translation is known (R290, R351 to R354, R380, R556): it goes to its hub, out on a PCIe port, or over
leat. -/
def setLeaf (t : Nat) (f : Flight) (lf : Leaf) (lvl : Nat) : Dev Unit := do
  let s ← get
  match (s.tile t).kernel with
  | none => pure ()
  | some (r, k) =>
    let as := s.tileAs t r.ctx
    let put (f : Flight) : Dev Unit := upd fun s => s.setTile t ((s.tile t).putFlight f)
    match leafDecide lf lvl f.write false with
    | .error (c, l) => do
      xlateFault as c l 1 f.addr
      reqFault t f 5 0x704
    | .ok lf =>
      let f := { f with leaf := lf }
      if lf.kind = 4 then
        match s.hostFn (s.tileView t r.ctx r.sel 1) lf.port with
        | none => reqFault t f 5 (if bit k.flags 1 then 0x704 else 0x708)
        | some fn =>
          if !bit k.flags 1 then reqFault t f 5 0x708
          else if f.write then do
            upd fun s => s.toHost lf.port fn lf.addr f.data
            upd fun s => s.setTile t { s.tile t with
              run := (s.tile t).run.map fun r => { r with ports := setFld r.ports lf.port lf.port 1 } }
            put { f with ans := some (0, []) }
          else do
            sendHostRead (.flume t f.tag) lf.port fn lf.addr f.len
            put f
      else if lf.kind = 5 then do
        let sent ← sendPeer (.flume t f.tag) (s.tilePart t) lf.ports lf.port lf.addr f.hint f.write f.len f.data
        put (if sent then f else { f with ans := some (1, []) })
      else put f

/-- A request just issued takes its translation from the tile's cache; otherwise its walk is due. -/
def lookupLeaf (t tag : Nat) : Dev Unit := do
  let s ← get
  let tl := s.tile t
  match tl.flight tag, tl.run with
  | some f, some r =>
    match (s.tileAs t r.ctx).bind fun as => tl.cached as r.sel f.addr with
    | some (lf, lvl) => setLeaf t f lf lvl
    | none => upd fun s => s.setTile t ((s.tile t).perf 0x10 1)
  | _, _ => pure ()

/-- ADDRESS_WALK (R353, R354, R359): the walk that the request on a tag of tile `t` waits for. -/
def execAddressWalk (t tag : Nat) (s : State) : Res := Dev.run' (do
  let tl := (← get).tile t
  match tl.flight tag, tl.run with
  | some f, some r =>
    if f.leaf.kind ≠ 0 ∨ f.ans.isSome then pure ()
    else
      let as := (← get).tileAs t r.ctx
      match ← walk as ((← get).tilePart t) r.sel f.addr with
      | .error (c, l) => do
        xlateFault as c l 1 f.addr
        reqFault t f 5 0x704
      | .ok (lf, lvl) => do
        upd fun s => s.setTile t ((s.tile t).cache (as.getD 0) r.sel f.addr lvl lf)
        setLeaf t f lf lvl
  | _, _ => pure ()) s

/-! ### Grants -/

/-- The bytes of one destination element, list mode and scalar slots apart from blocks. -/
def Chan.dstBytes (c : Chan) : Nat := scalarBytes c.fd.dst

/-- A channel's headroom F in destination bytes (R281). -/
def Chan.headroom (c : Chan) : Nat :=
  let size := c.ring.tileSize
  let P := max 1 c.perSlot
  let e := c.unitElems
  if c.isWrite then
    let u := c.at 0
    c.ring.countIn 0 * size + (u - u / (P * max 1 (c.bpu 0)) * (P * max 1 (c.bpu 0)))
  else
    let start := c.commit / P * P / e
    let bytes (p : Nat) : Nat := c.at p - start * c.bpu p
    c.ring.countIn 1 * size +
      (if c.fd.blkDst || c.fd.item == 3 && c.listMode then bytes 0 + bytes 1 + bytes 2
       else if c.listMode then bytes 0 * c.dstBytes
       else bytes 0 / max 1 (c.bpu 0) * e * c.dstBytes)

/-- A write channel's cursor moved to a byte position: each slot whose last byte it has passed goes back to the kernel
(R279). -/
def Chan.moveWrite (c : Chan) (pos : Nat) : Chan :=
  let P := max 1 c.perSlot
  let b := max 1 (c.bpu 0)
  let old := c.at 0 / b
  let new := pos / b
  let passed := if c.count ≤ old then 0 else (if c.count ≤ new then ceilDiv c.count P else new / P) - old / P
  let g := (List.range passed).foldl (fun (g : Ring) _ =>
    { g.setSlot g.pslot 0 with pslot := (g.pslot + 1) % max 1 g.sl.length }) c.ring
  { c.setAt 0 pos with ring := g }

/-- A RUNNING write channel past its padded units, DONE once every element is written (R265, R269). -/
def Tile.settleWrite (tl : Tile) (k : LKernel) (n time : Nat) : Nat → Tile
  | 0 => tl
  | fuel + 1 =>
    let c := tl.chan n
    if c.st ≠ 2 ∨ !c.isWrite then tl
    else
      let lim := c.limit
      let pos := c.skip 0 lim (lim + 1 - c.at 0 / max 1 (c.bpu 0)) (c.at 0)
      if pos ≠ c.at 0 then (tl.setChan n (c.moveWrite pos)).settleWrite k n time fuel
      else if c.count ≤ pos / max 1 (c.bpu 0) ∧ !(tl.flights.any fun f => f.chan == n) then
        (tl.setChan n { c with commit := c.total }).chanEnd k n 3 0 0 c.total 0 time
      else tl

/-- Settling a write channel, as far as its slots reach. -/
def Tile.settle (tl : Tile) (k : LKernel) (n time : Nat) : Tile := tl.settleWrite k n time 20

/-- The bytes that a write request takes from its slot, or the poisoned word that it meets (R279, R308). -/
def Tile.slotBytes (tl : Tile) (k : LKernel) (c : Chan) (pos len : Nat) : Ex (List Byte) :=
  let b := max 1 (c.bpu 0)
  (List.range len).mapM fun i =>
    let e := (pos + i) / b
    let off := k.cisOff + c.slotOff + c.fd.elemAt (e % max 1 c.perSlot) + (pos + i) % b
    if spGet dBool tl.bad (off / 8) then fail 0x801 (off / 8) else .ok (spGet dByte tl.cis off)

/-- The lowest free tag. -/
def Tile.freeTag (tl : Tile) : Option Nat :=
  if 1024 ≤ tl.flights.length then none
  else (List.range 1024).find? fun g => !(tl.flights.any fun f => f.tag == g)

/-- The channels that have something to request, each with its cursors moved and its next request (R281). -/
def Tile.eligible (tl : Tile) (k : LKernel) : List (Nat × Chan × Next) :=
  (List.range 32).filterMap fun n =>
    let c := tl.chan n
    if c.st ≠ 2 ∨ c.stopping then none
    else
      let c := c.skipped
      match c.next tl k with
      | .none => none
      | x => some (n, c, x)

/-- The eligible channel with the least time to empty; ties go to the lower number (R282). -/
def leastTime (l : List (Nat × Chan × Next)) : Option (Nat × Chan × Next) :=
  l.foldl (fun b x => match b with
    | none => some x
    | some y => if x.2.1.headroom * y.2.1.fd.rate < y.2.1.headroom * x.2.1.fd.rate then some x else some y) none

/-- One grant to a channel (R282 to R284). -/
def grantChan (t : Nat) : Dev Unit := do
  let s ← get
  let tl := s.tile t
  match tl.running, tl.freeTag with
  | some (_, k), some tag =>
    match leastTime (tl.eligible k) with
    | none => pure ()
    | some (n, c, x) =>
      match x with
      | .none => pure ()
      | .fault (code, addr) =>
        let pos := if c.listMode then c.at 0 / max 1 (c.bpu 0) else 0
        upd fun s => chanFault s t n 5 code pos addr
      | .req r =>
        let f : Flight :=
          { tag := tag, chan := n, plane := r.plane, pos := r.pos, len := r.len, write := c.isWrite, addr := r.addr
            leaf := .none, hint := c.fd.hint, data := [], t0 := s.time, ans := none }
        if c.isWrite then
          match tl.slotBytes k c r.pos r.len with
          | .error (.abort code d) => upd fun s => abortTile s t tl code d
          | .error .wait => pure ()
          | .ok bs =>
            let tl := (tl.setChan n (c.moveWrite (r.pos + r.len))).perfs [(0x8010, 1), (0x8018, r.len)]
            upd fun s => s.setTile t { tl with flights := tl.flights ++ [{ f with data := bs }] }
            lookupLeaf t tag
        else
          let tl := (tl.setChan n (c.setAt r.plane (r.pos + r.len))).perf 0x8008 1
          upd fun s => s.setTile t { tl with flights := tl.flights ++ [f] }
          lookupLeaf t tag
  | _, _ => pure ()

/-- A crumb issued (R282, R287). -/
def grantCrumb (t e : Nat) : Dev Unit := do
  upd fun s =>
    let tl := s.tile t
    s.setTile t ((tl.setCrumb e { tl.crumb e with st := 2, t0 := s.time }).perf 0xA008 1)
  lookupLeaf t (1024 + e)

/-- FLUME_REQUEST_GRANT (R281, R282): one ECLK cycle of tile `t`'s flume, up to four requests, crumbs first. -/
def execFlumeRequestGrant (t : Nat) (s : State) : Res := Dev.run' (do
  let s ← get
  let tl := s.tile t
  match tl.running with
  | none => pure ()
  | some (_, k) =>
    if s.tileFrozen t then pure ()
    else
      let es := ((List.range 32).filter fun e => (tl.crumb e).st == 1).take 4
      if tl.freeTag.isNone ∧ es.length < 4 ∧ tl.eligible k ≠ [] then
        upd fun s => s.setTile t ((s.tile t).perf 0x8028 1)
      if s.waits.any fun w => w.why == 1 && (match w.req.who with
          | .flume u _ => u == t
          | _ => false) then
        upd fun s => s.setTile t ((s.tile t).perf 0x8030 1)
      forAll es fun e => grantCrumb t e
      forAll (List.range (4 - es.length)) fun _ => grantChan t) s

/-! ### Answers -/

/-- The answer to a request of tile `t`'s flume (R290): 0 data, 1 poison, 2 a denial that freezes, 3 a denial by a
freeze, 4 a translation fault at the far end. -/
def flumeAnswer (t tag code : Nat) (data : List Byte) : Dev Unit := upd fun s =>
  match (s.tile t).flight tag with
  | none => s
  | some f => s.setTile t ((s.tile t).putFlight { f with ans := some (code, data) })

/-- A CRB instruction completes: its crumb entry's place in the flume queue goes. -/
def Tile.crumbDone (tl : Tile) (e : Nat) : Tile :=
  tl.setQueue 3 ((spGet dQueue tl.queues 3).filter fun q => !(q.started && q.ref == 0x80 + e))

/-- A failed answer (R290, R294, R501). -/
def answerFault (t : Nat) (f : Flight) (code : Nat) : Dev Unit :=
  if code = 1 then reqFault t f 5 0x706
  else if code = 2 then reqFault t f 6 0x705
  else if code = 3 then reqFault t f 5 0x705
  else reqFault t f 5 0x704

/-- A channel's lowest element not completely written, after an acknowledgement (R292). -/
def Tile.recommit (tl : Tile) (n : Nat) : Tile :=
  let c := tl.chan n
  let b := max 1 (c.bpu 0)
  let low := (tl.flights.filter fun f => f.chan == n).foldl (fun m f => min m (f.pos / b)) (c.at 0 / b)
  tl.setChan n { c with commit := low }

/-- FLUME_READ_RESPONSE (R284, R289, R290): the answer to the read on a tag is taken into its ring or the cistern. -/
def execFlumeReadResponse (t tag : Nat) (s : State) : Res := Dev.run' (do
  let s ← get
  let tl := s.tile t
  match tl.flight tag, tl.kernel with
  | some f, some (r, k) =>
    match f.ans with
    | none => pure ()
    | some (code, data) =>
      if f.write then pure ()
      else if code ≠ 0 then answerFault t f code
      else if f.chan < 32 then
        let tl := (tl.dropFlight tag).perf 0x8020 ((s.time - f.t0) * tileMhz s t / 1000)
        let c := tl.chan f.chan
        if (c.st = 2 ∧ !c.stopping) ∨ tl.aborting then
          let tl := tl.setChan f.chan { c with stage := c.stage ++ [{ plane := f.plane, pos := f.pos, data := data }] }
          upd fun s => s.setTile t (tl.pump k r.ctx f.chan s.time)
        else upd fun s => s.setTile t tl
      else
        let e := f.chan - 0x80
        let off := (tl.crumb e).cis
        match ← attempt (tileJournal t 8 e data) with
        | .error (c, d) => upd fun s => abortTile s t (s.tile t) c d
        | .ok data => upd fun s => s.setTile t ((((s.tile t).dropFlight tag).cisPut off data).crumbDone e)
  | _, _ => pure ()) s

/-- FLUME_WRITE_ACK (R265, R284). -/
def execFlumeWriteAck (t tag : Nat) (s : State) : Res := Dev.run' (do
  let s ← get
  let tl := s.tile t
  match tl.flight tag, tl.kernel with
  | some f, some (_, k) =>
    match f.ans with
    | none => pure ()
    | some (code, _) =>
      if !f.write then pure ()
      else if code ≠ 0 then answerFault t f code
      else if f.chan < 32 then
        upd fun s => s.setTile t (((tl.dropFlight tag).recommit f.chan).settle k f.chan s.time)
      else upd fun s => s.setTile t ((tl.dropFlight tag).crumbDone (f.chan - 0x80))
  | _, _ => pure ()) s

/-- FLUME_SLOT_RECLAIM (R277): the flume takes back a released slot of channel `n`, and goes on filling. -/
def execFlumeSlotReclaim (t n slot : Nat) (s : State) : Res :=
  let tl := s.tile t
  let c := tl.chan n
  .next (match tl.running with
    | none => s
    | some (r, k) =>
      if n < 32 ∧ c.ring.sl.getD slot 0 = 2 then
        let tl := tl.setChan n { c with ring := c.ring.setSlot slot 0 }
        s.setTile t (if c.st = 2 then tl.pump k r.ctx n s.time else tl)
      else s)

/-! ### Instructions -/

/-- The channel an instruction names (R257). -/
def chanOf (w : IWord) : Nat := fld w.imm.toNat 4 0

/-- An FCFG that its checks refuse: the record, and the abort (R273). -/
def fcfgAbort (tl : Tile) (kx : Kx) (n code addr : Nat) : Act :=
  let r := flmRecord code n 0 0 0 addr kx.now
  .abort ((tl.setChan n { tl.chan n with done := r }).lastDetail r) code (flmDetail n 0)

/-- FCFG (R259, R273). -/
def execFcfg (t : Nat) (w : IWord) (s : State) : Res :=
  tileInstr s t (.fcfg t w) 0x60 w 0 fun tl kx =>
    let n := chanOf w
    let at' := (tl.a kx w.sa).toNat
    let c := tl.chan n
    let top := 2 ^ 64 - 1
    if c.st = 2 then fcfgAbort tl kx n 0x702 0
    else if at' % 64 ≠ 0 then fcfgAbort tl kx n 0x701 top
    else if kx.k.cisBytes < at' + 256 then fcfgAbort tl kx n 0x321 top
    else
      match cisRead tl kx.k at' 256 with
      | .error e => .ofStop tl e
      | .ok d =>
        match fcfgFail kx.k d with
        | some (code, addr) => fcfgAbort tl kx n code addr
        | none => .done (tl.setChan n { Chan.none with st := 1, desc := d, ring := (fdescOf d).ring, done := c.done })

/-- A stream started on a channel: its overrides, its units counted, its cursors at their start (R260, R268). -/
def Chan.begin (c : Chan) (base bound0 units : Nat) : Chan :=
  { c with st := 2, base := base, bound0 := bound0, count := units, cur := [0, 0, 0, 0], stage := [], commit := 0
           escUsed := [], drops := false, stopping := false }

/-- The list positions of a stream (R260, R274): LIST_COUNT or its override, or the decision record's count. -/
def listUnits (tl : Tile) (k : LKernel) (f : FDesc) (ovr : Option Nat) : Ex Nat :=
  if f.kind = 0 then .ok (ovr.getD f.listCount)
  else do
    let bs ← cisRead tl k (f.listOff + (if f.kind = 1 then 0x20 else 0x24)) 4
    return leNat bs

/-- FGO (R260, R274). -/
def execFgo (t : Nat) (w : IWord) (s : State) : Res :=
  tileInstr s t (.fgo t w) 0x61 w 0 fun tl kx =>
    let n := chanOf w
    let c := tl.chan n
    let f := c.fd
    let fn := w.fn.toNat
    if c.st = 2 then .abort tl 0x702 0
    else if !(c.st == 1 || c.st == 3 || c.st == 4) || (f.mode == 1 && (fn == 2 || (fn == 1 && f.kind != 0))) then
      .abort tl 0x703 0
    else
      let x := tl.s kx w.sa
      let units : Ex Nat := if f.mode = 1 then listUnits tl kx.k f (if fn = 1 then some (x.toNat % 2 ^ 32) else none)
        else .ok ((dimsOf c.desc).foldl (fun p d => p * d.1) 1)
      match units with
      | .error e => .ofStop tl e
      | .ok units =>
        let base := if 1 ≤ fn then x.toNat else dfld c.desc 0x20 8
        let b0 := if fn = 2 then (tl.s kx w.sb).toNat else dfld c.desc 0x70 8
        let c := c.begin base b0 units
        let tl := tl.setChan n c
        let tl := tl.upd kx fun y =>
          ({ y with blk := { y.blk with started := setFld y.blk.started n n 1 } }).mark c.isWrite
        if f.mode = 1 ∧ f.kind ≠ 0 ∧ 128 < units then
          let tl := tl.chanEnd kx.k n 5 0x709 0 0 0 kx.now
          .abort (tl.lastDetail (tl.chan n).done) 0x709 (flmDetail n 0)
        else if units = 0 then .done (tl.chanEnd kx.k n 3 0 0 0 0 kx.now)
        else .done (if c.isWrite then tl.settle kx.k n kx.now else tl.pump kx.k kx.c n kx.now)

/-- FWAIT (R261). -/
def execFwait (t : Nat) (w : IWord) (s : State) : Res :=
  tileInstr s t (.fwait t w) 0x62 w 0 fun tl kx =>
    let c := tl.chan (chanOf w)
    if c.st = 0 then .abort tl 0x703 0
    else if w.fn = 0 then (if c.st = 2 then .wait tl kx.got else .done tl)
    else if c.isWrite then .abort tl 0x703 0
    else if c.ring.flagged c.ring.kslot then .done tl
    else if c.st = 2 then .wait tl kx.got else .abort tl 0x703 0

/-- A ring emptied: every flag cleared, both slots at 0 (R259). -/
def Ring.empty (g : Ring) : Ring := { g with sl := g.sl.map fun _ => 0, kslot := 0, pslot := 0 }

/-- A channel stopped and drained: its record, and its ring emptied (R262). -/
def Tile.stopped (tl : Tile) (k : LKernel) (n time : Nat) : Tile :=
  let c := tl.chan n
  let tl := if c.st = 2 then tl.chanEnd k n 4 0x70A 0 c.commit 0 time else tl
  let c := tl.chan n
  tl.setChan n { c with ring := c.ring.empty, stage := [], stopping := false }

/-- FSTOP (R262): it waits while reads and writes of the channel are in flight. -/
def execFstop (t : Nat) (w : IWord) (s : State) : Res :=
  tileInstr s t (.fstop t w) 0x63 w 0 fun tl kx =>
    let n := chanOf w
    let c := tl.chan n
    if c.st = 2 ∧ tl.flights.any (fun f => f.chan == n) then .wait (tl.setChan n { c with stopping := true }) kx.got
    else .done (tl.stopped kx.k n kx.now)

/-- FREL (R263, R264): on a write channel it hands the kernel's slot over, and completes when the next one is the
kernel's. -/
def execFrel (t : Nat) (w : IWord) (s : State) : Res :=
  tileInstr s t (.frel t w) 0x65 w 0 fun tl kx =>
    let n := chanOf w
    let c := tl.chan n
    let g := c.ring
    if !c.isWrite then Act.of tl (ringRelease tl kx n g.kslot true)
    else if kx.got ≠ [] then
      -- the slot has been handed over
      (if c.st = 2 ∧ g.flagged g.kslot then .wait tl kx.got else .done tl)
    else if c.st ≠ 2 then .abort tl 0x703 0
    else if g.flagged g.kslot then .wait tl []
    else
      let tl := (tl.setChan n { c with ring := (g.setSlot g.kslot 1).nextK }).settle kx.k n kx.now
      let c := tl.chan n
      if c.st = 2 ∧ c.ring.flagged c.ring.kslot then .wait tl [{ ring := n, base := 0, bytes := [], bad := [] }]
      else .done tl

/-- A CRB (R287, R290): it takes a free entry, or waits for one. -/
def crbBody (tl : Tile) (kx : Kx) (w : IWord) (write : Bool) (addr cis len : Nat) (imm : Option (List Byte)) : Act :=
  match (List.range 32).find? fun e => (tl.crumb e).st == 0 with
  | none => .wait tl kx.got
  | some e =>
    let bound := if imm.isSome then addr % 8 != 0 else decide (256 < addr % 256 + len)
    let tl := tl.upd kx fun x => x.mark true
    match (do if imm.isNone then inAlloc kx.k cis len : Ex Unit) with
    | .error x => .ofStop tl x
    | .ok () =>
      if bound then
        .abort (tl.lastDetail (flmRecord 0x707 (0x80 + e) (b2n write) 0 0 addr kx.now)) 0x707 (flmDetail (0x80 + e) 0)
      else
        match (match imm with
          | some bs => .ok bs
          | none => if write then cisRead tl kx.k cis len else .ok [] : Ex (List Byte)) with
        | .error x => .ofStop tl x
        | .ok bs =>
          .started (tl.setCrumb e { Crumb.none with
            st := 1, seq := kx.seq, write := write, addr := addr, cis := kx.k.cisOff + cis, len := len
            hint := fld w.imm.toNat 9 8, data := bs }) (0x80 + e)

/-- CRB FN 0 (R287). -/
def execCrbRead (t : Nat) (w : IWord) (x : W64) (s : State) : Res :=
  fnInstr 0 w <| tileInstr s t (.crbRead t w x) 0x64 w x fun tl kx =>
    crbBody tl kx w false (tl.a kx w.sa + x).toNat (tl.a kx w.sb).toNat (fld w.imm.toNat 7 0 + 1) none

/-- CRB FN 1 (R287). -/
def execCrbWrite (t : Nat) (w : IWord) (x : W64) (s : State) : Res :=
  fnInstr 1 w <| tileInstr s t (.crbWrite t w x) 0x64 w x fun tl kx =>
    crbBody tl kx w true (tl.a kx w.sa + x).toNat (tl.a kx w.sb).toNat (fld w.imm.toNat 7 0 + 1) none

/-- CRB FN 2 (R287). -/
def execCrbWriteImmediate (t : Nat) (w : IWord) (x : W64) (s : State) : Res :=
  fnInstr 2 w <| tileInstr s t (.crbWriteImmediate t w x) 0x64 w x fun tl kx =>
    crbBody tl kx w true (tl.a kx w.sa).toNat 0 8 (some (leBytes 8 x.toNat))

/-! ### The rerun of a query block -/

/-- The channels started since the OSMN. -/
def OsmBlk.channels (b : OsmBlk) : List Nat := (List.range 32).filter fun n => bit b.started n

/-- OSM_RERUN (R219): with every queue empty, the channels started since the OSMN stop and drain; then the context is as
it was when the OSMN issued, and the block reruns online. -/
def execOsmRerun (t : Nat) (s : State) : Res :=
  let tl := s.tile t
  .next (match tl.running with
    | none => s
    | some (r, k) =>
      let blk := (tl.ctx r.ctx).blk
      if !blk.due || tl.outstanding != [] then s
      else if tl.flights.any fun f => blk.channels.contains f.chan && (tl.chan f.chan).st == 2 then
        s.setTile t (blk.channels.foldl (fun tl n => tl.setChan n { tl.chan n with stopping := true }) tl)
      else
        let tl := blk.channels.foldl (fun tl n => tl.stopped k n s.time) tl
        let tl := tl.stInit blk.stReg negInf blk.rows
        let x := tl.ctx r.ctx
        let tl := tl.setCtx r.ctx { x with
          s := blk.s, a := blk.a, p := blk.p, td := blk.td, pc := blk.pc, loops := blk.loops
          blk := { blk with mode := false, rerun := true, due := false, marked := [], started := 0, dirty := false } }
        s.setTile t (tl.perf 0x2078 1))

end Sys2Proof.Machine
end

