-- ==== Sys2Proof/Machine/Regs.lean ====
section
/-! DEFINITION. Who may write a register, and how a write is accepted or discarded and logged (R8, R698, R737). -/

namespace Sys2Proof

/-- The ditchrider. -/
def Origin.isDrd (o : Origin) : Bool := o.cls == 0
/-- The partition-management function: privileged software of the PF of PCIe port 0, or a management controller on the
sideband interface. -/
def Origin.isPmf (o : Origin) : Bool := o.cls == 4 || (o.cls == 3 && o.port == 0 && o.id == 0)
/-- A writer that the rules of partition management allow. -/
def Origin.manages (o : Origin) : Bool := o.isDrd || o.isPmf
/-- Privileged software of a partition. -/
def Origin.owns (o : Origin) (p : Nat) : Bool := o.cls == 3 && o.part == p
/-- Privileged software of a PF. -/
def Origin.isPf (o : Origin) : Bool := o.cls == 3 && o.id == 0

end Sys2Proof

namespace Sys2Proof.Machine

/-- A write of a register recorded in the change log: accepted (0x01), discarded (0x02), or ignored for a lock
(0x03). -/
def logWrite (o : Origin) (type off v : Nat) : Dev Unit := upd fun s => s.logRec type o 0 off v

/-- Whether a write reaches its register: until the part is ready, a PCIe function reaches only the GLB, CAP, LIC, FUS and
DRD blocks (R624, R629). -/
def State.reaches (s : State) (o : Origin) (off : Nat) : Bool :=
  o.cls != 3 || s.ready || decide (off < 0x4000) || (decide (0x10000 ≤ off) && decide (off < 0x30000))

/-- Whether a function is frozen, or its partition is (R674, R676). -/
def State.fnFrozen (s : State) (p f : Nat) : Bool :=
  s.isFrozen 3 (p * 64 + f) || s.partFrozen (s.rf (fnCfg p f) 62 60)

/-- Whether the register writes of an origin are ignored and logged because its function is frozen (R674, R676). -/
def State.mute (s : State) (o : Origin) : Bool := o.cls == 3 && s.fnFrozen o.port o.id

/-- A register write that its rule accepts or discards, and that is logged either way. -/
def regWrite (o : Origin) (off v : Nat) (ok : Bool) (eff : Dev Unit) : Dev Unit := do
  let s ← get
  if s.reaches o off then
    let ok := ok && !s.mute o
    logWrite o (if ok then 1 else 2) off v
    if ok then eff

/-- A register write that only a discard logs. -/
def plainWrite (o : Origin) (off v : Nat) (ok : Bool) (eff : Dev Unit) : Dev Unit := do
  let s ← get
  if s.reaches o off then
    if ok && !s.mute o then eff else logWrite o 2 off v

/-- A write of a register that holds RWL fields: while its lock bit is set it changes none of them, counts in the
block's LOCKVIOL and is logged as such (R8, R698); `eff` is given whether the lock is set. -/
def lockWrite (o : Origin) (off v lockBit viol : Nat) (ok : Bool) (eff : Bool → Dev Unit) : Dev Unit := do
  let s ← get
  if s.reaches o off then
    if !ok || s.mute o then logWrite o 2 off v
    else if s.rb off lockBit then do
      logWrite o 3 off v
      upd fun s => s.count viol 1
      eff true
    else do
      logWrite o 1 off v
      eff false

/-- A register takes a value. -/
def putReg (off v : Nat) : Dev Unit := upd fun s => s.setReg off (BitVec.ofNat 64 v)

/-- The shadow of a WO register takes the value of an accepted write (R8, R746). -/
def shadowed (off v : Nat) : Dev Unit := upd fun s => { s with shadow := spSet dW64 s.shadow off (BitVec.ofNat 64 v) }

/-- The fields of `v` that a mask keeps (R7). -/
def keepBits (v mask : Nat) : Nat := Nat.land v mask

/-- Fields `[hi:lo]` as a mask. -/
def maskBits (hi lo : Nat) : Nat := (2 ^ (hi + 1 - lo) - 1) <<< lo

end Sys2Proof.Machine
end

