-- ==== Sys2Proof/Machine/Hub.lean ====
section
/-! DEFINITION. Requests as they arrive at a hub (R315 to R318, R336, R670), what waits there, weirs and the cache's
maintenance (R324, R325, R334 to R338), and the cistern's error handling (R307 to R311). -/

namespace Sys2Proof.Machine

/-! ### The cistern's errors -/

/-- The cistern bank and line of a word (R301). -/
def cisBankLine (word : Nat) : Nat × Nat :=
  let x := word * 8
  (Nat.xor (fld x 11 6) (fld x 16 12 <<< 1) % 64, fld x 25 12)

/-- The word at a byte of a line of a bank (the inverse of R301). -/
def cisWordAt (bank line i : Nat) : Nat :=
  let hi := line <<< 12
  (hi + (Nat.xor bank (fld hi 16 12 <<< 1) % 64) <<< 6) / 8 + i

/-- A corrected error of a line (R311, R645): at the sixteenth since the cold start the line enters the soft-defect
list, or its site does when the bank's spare lines are used. -/
def State.lineError (s : State) (t word : Nat) : State :=
  let tl := s.tile t
  let (bank, line) := cisBankLine word
  let key := bank * 65536 + line
  let n := spGet dNat tl.lineCe key + 1
  let s := s.setTile t { tl with lineCe := spSet dNat tl.lineCe key n }
  if n ≠ 16 then s
  else
    let site := s.siteOf t
    let spares := (s.defects.filter fun d => d.kind == 2 && d.unit == site && d.st == 1 && d.loc / 2 ^ 14 == bank).length
    if 64 ≤ spares then s.defect 1 site 0 1 else s.defect 2 site (bank * 2 ^ 14 + line) 1

/-- A word's single-bit error corrected, written back and counted (R307, R312). -/
def State.mendWord (s : State) (t word : Nat) : State :=
  let tl := s.tile t
  if spGet dBool tl.soft word then
    let tl := { tl with soft := spSet dBool tl.soft word false }
    let v := (tl.reg 0xB000).toNat
    let tl := tl.setReg 0xB000 (BitVec.ofNat 64 (setFld v 31 0 (min (fld v 31 0 + 1) (2 ^ 32 - 1))))
    (s.setTile t tl).lineError t word
  else s

/-- CIS_ECC_WRITEBACK (R307): the corrected word of tile `t` is written back. -/
def execCisEccWriteback (t word : Nat) (s : State) : Res := .next (s.mendWord t word)

/-- CIS_SCRUB (R310): the scrubber of a bank reads and corrects its next line. -/
def execCisScrub (t bank : Nat) (s : State) : Res :=
  let tl := s.tile t
  .next (if 64 ≤ bank ∨ !s.tileUp t then s
    else
      let line := spGet dNat tl.scrub bank
      let s := s.setTile t { tl with scrub := spSet dNat tl.scrub bank ((line + 1) % 12288) }
      (List.range 8).foldl (fun s i =>
        let w := cisWordAt bank line i
        let s := s.mendWord t w
        let tl := s.tile t
        if spGet dBool tl.bad w then s.setTile t (tl.ueFound w) else s) s)

/-! ### Requests -/

/-- The partition on whose behalf a request is made (R671). -/
def State.masterPart (s : State) (m : Master) (given : Nat) : Nat :=
  match m with
  | .flume t _ => s.tilePart t
  | .tile t => s.tilePart t
  | .queue q => s.qPart q
  | .fn p f => s.rf (fnCfg p f) 62 60
  | .leat n _ => s.rf (leatReg n 0) 62 60
  | .qp _ => given
  | .media _ => given
  | .snap p _ => p
  | .device => given

/-- A request as its master's state gives it: a flume request comes from its flight, and only while it waits for an
answer of its hub and no crumb of the same 256-byte window is before it (R285, R288). -/
def State.fromFlight (s : State) (r : HubReq) : Option HubReq :=
  match r.who with
  | .flume t tag =>
    match (s.tile t).flight tag with
    | none => none
    | some f =>
      let before := decide (1024 ≤ tag) && (List.range 32).any fun e =>
        let c := (s.tile t).crumb e
        c.st == 2 && c.ans.isNone && c.addr / 256 == f.addr / 256 && decide (c.seq < ((s.tile t).crumb (tag - 1024)).seq)
      if f.leaf.kind = 3 ∧ f.ans.isNone ∧ f.write = r.write ∧ !before ∧ !(s.waits.any fun w => w.req.who == r.who) then
        some { r with addr := f.leaf.addr, len := f.len, hint := f.hint, pgHint := f.leaf.hint, data := f.data }
      else none
  | _ =>
    if 1 ≤ r.len ∧ r.addr % 256 + r.len ≤ 256 ∧ (!r.write || r.data.length == r.len) then some r else none

/-- The answer to a request goes to its master. -/
def hubAnswer (r : HubReq) (status : Nat) (data : List Byte) : Dev Unit :=
  match r.who with
  | .flume t tag => flumeAnswer t tag status data
  | m => upd fun s => s.emit (.answer m status data)

/-- A request checked by the headgate and performed (R14, R315, R670): its status is 0 for data, 1 for poison, 2 for a
denial, 3 for a denial by a freeze. -/
def hubServe (r : HubReq) : Dev Unit := do
  let s ← get
  let p := s.masterPart r.who r.part
  let gate := if r.who = .device then none else s.headgate r.who p r.write r.addr
  match gate with
  | some c => do
    upd fun s => s.deny r.who p c r.addr r.addr
    hubAnswer r (if c = 1 then 3 else 2) []
  | none =>
    if r.write then do
      hubWrite p r.hint r.pgHint r.addr r.data
      hubAnswer r 0 []
    else do
      let (bs, bad) ← hubRead p r.hint r.pgHint r.addr r.len
      hubAnswer r (b2n bad) (if bad then [] else bs)

/-- Why a request waits now (R336, R375, R465): 1 for a frame that moves, 2 for a snapshot, 0 for its weir. -/
def State.waitCause (s : State) (r : HubReq) : Nat :=
  let f := s.frame (frameOf r.addr)
  let a := if f.state = 2 then f.fwd * 65536 + r.addr % 65536 else r.addr
  if r.write && (s.frame (frameOf a)).state == 1 then 1 else if r.write && s.snapHolds a then 2 else 0

/-- A request served, unless it must wait. -/
def tryServe (r : HubReq) : Dev Bool := fun s =>
  match (hubServe r).go s with
  | (.error .wait, _) => (.ok false, s)
  | (_, s') => (.ok true, s')

/-- A request that arrives at its hub: it is served, or it waits behind those of its line (R315). -/
def hubArrive (r : HubReq) : Dev Unit := do
  let s ← get
  match s.waits.find? fun w => w.req.addr / 256 == r.addr / 256 with
  | some w => upd fun s => { s with waits := s.waits ++ [{ why := w.why, req := r, since := s.time }] }
  | none =>
    if ← tryServe r then pure ()
    else upd fun s => { s with waits := s.waits ++ [{ why := s.waitCause r, req := r, since := s.time }] }

/-- HUB_READ_REQUEST (R14, R315 to R318, R336). -/
def execHubReadRequest (r : HubReq) (s : State) : Res := Dev.run' (do
  match (← get).fromFlight { r with write := false } with
  | none => pure ()
  | some r => hubArrive r) s

/-- HUB_WRITE_REQUEST (R14, R315, R336, R371, R375). -/
def execHubWriteRequest (r : HubReq) (s : State) : Res := Dev.run' (do
  match (← get).fromFlight { r with write := true } with
  | none => pure ()
  | some r => hubArrive r) s

/-! ### What waits -/

/-- Whether two waiting requests wait in the same counter (R344, R381, R471). -/
def State.sameWait (s : State) (a b : Waiter) : Bool :=
  a.why == b.why && s.hubOf a.req.addr == s.hubOf b.req.addr &&
    (a.why != 0 || (weirSet a.req.addr == weirSet b.req.addr &&
      s.masterPart a.req.who a.req.part == s.masterPart b.req.who b.req.part))

/-- The counter of a waiting request's FCLK cycles. -/
def State.waitCounter (s : State) (w : Waiter) : Nat :=
  let h := s.hubOf w.req.addr
  if w.why = 1 then hubReg h 0x30118
  else if w.why = 2 then hubReg h 0x30128
  else hubReg h (0x20200 + 0x1000 * weirSet w.req.addr + 8 * s.masterPart w.req.who w.req.part)

/-- A waiting request gone: the cycles in which any request of its counter waited count when the last one goes. -/
def State.unwait (s : State) (w : Waiter) : State :=
  let rest := s.waits.erase w
  if rest.any (s.sameWait w) then
    { s with waits := rest.map fun v => if s.sameWait w v then { v with since := min v.since w.since } else v }
  else { s with waits := rest }.perf (s.waitCounter w) (2 * (s.time - w.since))

/-- The requests that wait tried again in the order of their arrival; one behind another of its line stays. -/
def releaseWaits : Dev Unit := do
  forAll (← get).waits fun w => do
    let s ← get
    let before := (s.waits.takeWhile (· != w)).any fun v => v.req.addr / 256 == w.req.addr / 256
    if before then pure ()
    else if ← tryServe w.req then upd fun s => s.unwait w
    else if s.waitCause w.req = w.why then pure ()
    else upd fun s =>
      let i := s.waits.idxOf w
      let s := s.unwait w
      { s with waits := s.waits.insertIdx (min i s.waits.length) { w with why := s.waitCause w.req, since := s.time } }

/-! ### Weirs -/

/-- The nominal units per 128 ns of a weir set (R338). -/
def State.weirCapacity (s : State) (h set : Nat) : Nat :=
  if set = 0 then
    let rate := match s.rf (hubReg h 0) 1 0 with
      | 0 => 100
      | 1 => 80
      | 2 => 64
      | _ => 32
    s.hubStacks h * rate * 512 / 10
  else ((List.range 4).filter fun j => bit s.boards (4 * h + j)).length * s.boardMts * 16 / 1000

/-- The cap of a temperature step in percent (R341). -/
def stepCap (step : Nat) : Nat := if step ≤ 1 then 100 else if step = 2 then 75 else if step = 3 then 50 else 25

/-- The cap fraction of a hub's most restricted stack, in percent (R342). -/
def State.hubCap (s : State) (h : Nat) : Nat :=
  (List.range 3).foldl (fun m k => min m (stepCap (s.rf (hubReg h (0x200 + 8 * k)) 10 8))) 100

/-- One weir refilled (R335, R338, R342). -/
def State.refill (s : State) (h set p : Nat) : State :=
  let cfg := s.reg (weirCfg h set p)
  let s := { s with active := spSet dW64 s.active (weirCfg h set p) cfg }
  let c := cfg.toNat
  let add := if set = 0 ∧ bit c 63 then fld c 15 0 * s.hubCap h / 100 else fld c 15 0
  let tok := min (s.tokens h set p + (add : Int)) (fld c 47 24 : Int)
  (s.setF (weirStat h set p) 23 0 (wrap 24 tok)).setF (weirStat h set p) 47 24 0

/-- WEIR_REFILL (R335): the weirs of a hub refilled, and the requests that waited for tokens tried again. -/
def execWeirRefill (h : Nat) (s : State) : Res := Dev.run' (
  if 4 ≤ h then pure ()
  else do
    upd fun s => (List.range 2).foldl (fun s set => (List.range 8).foldl (fun s p => s.refill h set p) s) s
    releaseWaits) s

/-- WEIR_CFG_WRITE (R337, R338, R369). -/
def execWeirCfgWrite (h set p v : Nat) (o : Origin) (s : State) : Res := Dev.run' (do
  let s ← get
  let off := weirCfg h set p
  let others := ((List.range 8).filter fun q => q != p).foldl (fun n q =>
    let c := s.rn (weirCfg h set q)
    n + (if bit c 63 then fld c 15 0 else 0)) 0
  let ok := !bit v 63 || (decide (fld v 15 0 ≤ fld v 47 24) &&
    decide (others + fld v 15 0 ≤ s.weirCapacity h set))
  if h < 4 ∧ set < 2 ∧ p < 8 ∧ (set = 0 ∨ s.nBoards ≠ 0) then
    plainWrite o off v ok (putReg off (keepBits v (maskBits 63 62 + maskBits 47 24 + maskBits 15 0)))) s

/-! ### Work of the hubs that no weir holds up -/

/-- Units moved for a partition by an engine of the hub: they count in its weir as far as its tokens go (R334). -/
def engineCharge (p a units : Nat) : Dev Unit := upd fun s =>
  let h := s.hubOf a
  let w := weirSet a
  if bit (s.weir h w p) 63 && decide (0 < s.tokens h w p) then
    let n := min units (s.tokens h w p + 3).toNat
    let st := weirStat h w p
    let s := s.setF st 47 24 (s.rf st 47 24 + n)
    s.setF st 23 0 (wrap 24 (s.tokens h w p - (n : Int)))
  else s

/-- The partition number under which the hubs' engines use the cache: no weir and no way of the cache belongs to it. -/
def enginePart : Nat := 9

/-- A 64-byte unit as an engine reads it through the cache, with the stream hint (R316): its bytes, and whether they are
poisoned. -/
def engineRead (a : Nat) : Dev (List Byte × Bool) := hubRead enginePart 1 0 (a / 64 * 64) 64

/-- A 64-byte unit as an engine writes it, its cached copy gone: neither DIRTY nor MSTALE changes (R371). -/
def State.engineWrite (s : State) (a : Nat) (bs : List Byte) (poison : Bool) : State :=
  (s.unitWrite a bs poison).setLine a ((s.line a).drop (a % 256 / 64))

/-- The units of `n` bytes at an address. -/
def unitsOf (a n : Nat) : List Nat := (List.range (n / 64)).map fun i => a + 64 * i

/-- Bytes copied by an engine for a partition, unit by unit, poison included. -/
def engineCopy (p src dst n : Nat) : Dev Unit := do
  forAll (unitsOf 0 n) fun o => do
    let (bs, bad) ← engineRead (src + o)
    upd fun s => s.engineWrite (dst + o) bs bad
  engineCharge p src (n / 64)
  engineCharge p dst (n / 64)

/-- The dirty sectors of a line written back without a wait. -/
def flushLine (a : Nat) : Dev Unit := do
  let s ← get
  let l := s.line a
  let ds := (List.range 4).filter fun i => bit l.dirty i
  let base := a / 256 * 256
  engineCharge l.part a ds.length
  upd fun s => ds.foldl (fun s i => s.unitWrite (base + 64 * i) (l.sector i) (bit l.poison i)) s
  upd fun s => (s.perf (hubReg (s.hubOf a) 0x10118) ds.length).setLine a { l with dirty := 0 }

/-- A line written back and invalidated. -/
def purgeLine (a : Nat) : Dev Unit := do
  flushLine a
  upd fun s => s.setLine a .none

/-! ### Cache maintenance -/

/-- MSC_MAINT of a hub. -/
def mscMaint (h : Nat) : Nat := hubReg h 0x10040

/-- A write of MSC_MAINT with an OP (R324, R325). -/
def maintWrite (h op : Nat) (done : Bool) (o : Origin) : Dev Unit := do
  let off := mscMaint h
  let v := op + 8 * b2n done
  if h < 4 then
    if done then upd fun s => s.setF off 3 3 0
    if (← get).rb off 2 then logWrite o 2 off v
    else
      shadowed off v
      upd fun s => s.setF off 2 2 1
      forAll ((← get).msc.filter fun e => e.2.dirty != 0) fun e => do
        if (← get).hubOf (e.1 * 256) = h then flushLine (e.1 * 256)
      if op = 2 then
        upd fun s => { s with msc := s.msc.filter fun e => s.hubOf (e.1 * 256) != h }

/-- MSC_MAINT with OP 0b01 (R324, R325). -/
def execMscMaintWriteback (h : Nat) (done : Bool) (o : Origin) (s : State) : Res := Dev.run' (maintWrite h 1 done o) s

/-- MSC_MAINT with OP 0b10 (R324, R325). -/
def execMscMaintInvalidate (h : Nat) (done : Bool) (o : Origin) (s : State) : Res := Dev.run' (maintWrite h 2 done o) s

/-- The end of a maintenance operation (R324, R325). -/
def execMscMaintDone (h : Nat) (s : State) : Res :=
  .next (if s.rb (mscMaint h) 2 ∧ h < 4 then (s.setF (mscMaint h) 2 2 0).setF (mscMaint h) 3 3 1 else s)

/-! ### Refresh -/

/-- HBM_REFRESH (R332): a bank is refreshed. The contents of memory do not change; how long the bank is busy is timing. -/
def execHbmRefresh (_site _pch _bank : Nat) (s : State) : Res := .next s

/-- HBM_REFRESH_MANAGEMENT (R332): the contents of memory do not change. -/
def execHbmRefreshManagement (_site _pch _bank : Nat) (s : State) : Res := .next s

end Sys2Proof.Machine
end

