-- ==== Sys2Proof/Machine/Migrate.lean ====
section
/-! DEFINITION. Address spaces (R346 to R361) and the page-migration engines (R370 to R378). -/

namespace Sys2Proof

/-- A writer that the rules let configure what a partition owns: its own privileged software, partition management or
the ditchrider (R540, R698). -/
def Origin.mine (o : Origin) (p : Nat) : Bool := o.isDrd || o.isPmf || o.owns p

end Sys2Proof

namespace Sys2Proof.Machine

/-! ### Address spaces -/

/-- HGT_AS_CFG_WRITE (R347). -/
def execHgtAsCfgWrite (n v : Nat) (o : Origin) (s : State) : Res := Dev.run' (do
  let old := (← get).rn (asReg n 0)
  let new := keepBits v (maskBits 63 60 + maskBits 41 12)
  let ok := o.mine (if bit old 63 then fld old 62 60 else fld v 62 60) &&
    (!bit old 63 || (fld new 62 60 == fld old 62 60 && fld new 41 12 == fld old 41 12))
  if n < 64 then regWrite o (asReg n 0) v ok (putReg (asReg n 0) new)) s

/-- Whether a flip or an invalidation of an address space is under way. -/
def State.asBusy (s : State) (n : Nat) : Bool := s.rf (asReg n 0x20) 1 0 != 0

/-- HGT_VSEL_WRITE (R358, R361, R458). -/
def execHgtVselWrite (n v : Nat) (o : Origin) (s : State) : Res := Dev.run' (do
  let s ← get
  if n < 64 then
    regWrite o (asReg n 0x10) v (o.mine (s.rf (asReg n 0) 62 60) && !s.asBusy n && s.rn (asReg n 0x28) == 0 &&
        s.rn (asReg n 0x30) == 0) do
      putReg (asReg n 0x10) v
      upd fun s => s.setF (asReg n 0x20) 1 1 1) s

/-- VSEL_FLIP_DONE (R358): no master but a tile translates with the old value any more. -/
def execVselFlipDone (n : Nat) (s : State) : Res :=
  .next (if n < 64 then s.setF (asReg n 0x20) 1 1 0 else s)

/-- Whether pages `vpn` to `vpn + pages − 1` of an address space, or all of them when `pages` is 0, overlap `span`
pages from `v`. -/
def pagesMeet (vpn pages v span : Nat) : Bool :=
  pages == 0 || (decide (v < vpn + pages) && decide (vpn < v + span))

/-- Cached translations of every tile dropped. -/
def State.dropTlb (s : State) (p : TlbE → Bool) : State :=
  (List.range 64).foldl (fun s t =>
    let tl := s.tile t
    if tl.tlb.any p then s.setTile t { tl with tlb := tl.tlb.filter fun e => !p e } else s) s

/-- HGT_INVAL_WRITE (R359 to R361). -/
def execHgtInvalWrite (n v : Nat) (o : Origin) (s : State) : Res := Dev.run' (do
  let s ← get
  let off := asReg n 0x18
  if n < 64 then
    regWrite o off v (o.mine (s.rf (asReg n 0) 62 60) && !s.asBusy n) do
      shadowed off v
      upd fun s => s.dropTlb fun e => e.as == n && pagesMeet (fld v 31 0) (fld v 63 32) e.vpn e.span
      upd fun s => s.setF (asReg n 0x20) 0 0 1) s

/-- Whether a request of a tile was translated in an address space within the pages of its last invalidation and has not
been answered. -/
def State.stale (s : State) (n : Nat) : Bool :=
  let v := (spGet dW64 s.shadow (asReg n 0x18)).toNat
  (List.range 64).any fun t =>
    let tl := s.tile t
    match tl.run with
    | none => false
    | some r => s.tileAs t r.ctx == some n && (List.range 1056).any fun tag =>
        match tl.flight tag with
        | none => false
        | some f => f.leaf.kind == 3 && f.ans.isNone && pagesMeet (fld v 31 0) (fld v 63 32) (f.addr / 65536) 1

/-- INVALIDATION_DONE (R360): once every request translated through a dropped entry has been accepted. -/
def execInvalidationDone (n : Nat) (s : State) : Res :=
  .next (if n < 64 ∧ !s.stale n then s.setF (asReg n 0x20) 0 0 0 else s)

/-! ### Migration commands -/

/-- What a migration command answers: a code with its DETAIL, or `none` when it completes later. -/
abbrev MigEnd := Option (Nat × Nat)

/-- A migration command of a queue taken, its reserved bytes checked, and its record written unless it completes later. -/
def migCommand (q type : Nat) (reserved : QCmd → Bool) (body : QCmd → Nat → Dev MigEnd) : Dev Unit := do
  let c ← takeCmd q type
  let p := (← get).qPart q
  let r ← if reserved c then body c p else pure (some (0x311, 0))
  match r with
  | none => pure ()
  | some (code, d) => completeWith q c.seqno type code d

/-- Checks 1 and 2 of R374 over the frames of a command: `none` when all pass. -/
def State.migFrames (s : State) (p : Nat) (dpas : List Nat) : Option Nat :=
  if dpas.any fun a => a % 65536 != 0 || !s.dpaOk a then some 0x907
  else if dpas.any fun a => !s.granted p a then some 0x901
  else none

/-- The DPAs of COUNT consecutive frames. -/
def frameRun (a n : Nat) : List Nat := (List.range n).map fun i => a + 65536 * i

/-- Whether a running snapshot has not finished a frame of its set (R468). -/
def State.snapNames (s : State) (f : Nat) : Bool :=
  s.snaps.any fun n => !n.restore && n.set.any fun e => e.1 == f && (spGet dNat n.todo f != 0 ||
    n.flying.any fun a => a / 65536 == n.image / 65536 + e.2)

/-- MIG_MOVE (R373 to R375): checked, and its copy begun. A hub runs at most 16 moves. -/
def execMigMove (q : Nat) (s : State) : Res := Dev.run' (migCommand q 0x20 (fun c => c.zero 1 7 && c.zero 0x38 8) fun c p => do
  let s ← get
  let src := c.f 8 8
  let dst := c.f 0x10 8
  if src = dst then return some (0x907, 0)
  match s.migFrames p [src, dst] with
  | some e => return some (e, 0)
  | none =>
    let a := s.frame (frameOf src)
    let b := s.frame (frameOf dst)
    if s.hubOf src ≠ s.hubOf dst then return some (0x902, 0)
    if a.state ≠ 0 ∨ b.state ≠ 0 then return some (0x903, 0)
    if a.pin || b.pin then return some (0x904, 0)
    if a.mirror || a.mcopy || a.shared || b.mirror || b.mcopy || b.shared then return some (0x905, 0)
    if 16 ≤ (s.moves.filter fun m => s.hubOf (m.src * 65536) == s.hubOf src).length then stall
    if s.snapNames (frameOf src) || s.snapNames (frameOf dst) then stall
    upd fun s => (s.setFrame (frameOf src) { a with state := 1 }).setFrame (frameOf dst) { b with state := 1 }
    let m : Move :=
      { queue := q, seqno := c.seqno, part := p, src := frameOf src, dst := frameOf dst
        ptes := [c.f 0x18 8, c.f 0x20 8, c.f 0x28 8, c.f 0x30 8] }
    upd fun s => { s with moves := s.moves ++ [m] }
    return none) s

/-- Cached translations to a frame dropped, those of blocks that hold it too (R373, R375). -/
def State.dropFrame (s : State) (f : Nat) : State :=
  s.dropTlb fun e => e.leaf.kind == 3 && decide (e.leaf.addr / 65536 ≤ f) && decide (f < e.leaf.addr / 65536 + e.span)

/-- One PTEn of a move (R375 step 4): rewritten when it is a device leaf that names SRC. The answer says whether it was, or
gives the code of a denial. -/
def movePte (m : Move) (pte : Nat) : Dev (Except Nat Bool) := do
  let s ← get
  if pte % 16 ≠ 0 then return .ok false
  match s.headgate (.queue m.queue) m.part false pte with
  | some c => do
    upd fun s => s.deny (.queue m.queue) m.part c pte pte
    return .error 0x901
  | none =>
    let (bs, bad) ← hubRead m.part 1 0 pte 8
    let q0 := leNat bs
    if bad || fld q0 2 0 != 3 || fld q0 41 16 != m.src then return .ok false
    match (← get).headgate (.queue m.queue) m.part true pte with
    | some c => do
      upd fun s => s.deny (.queue m.queue) m.part c pte pte
      return .error 0x901
    | none =>
      hubWrite m.part 0 0 pte (leBytes 8 (setFld q0 41 16 m.dst))
      return .ok true

/-- MIG_MOVE_DONE (R375, steps 2 to 6): the move whose source is frame `src` ends. -/
def execMigMoveDone (src : Nat) (s : State) : Res := Dev.run' (do
  match (← get).moves.find? fun m => m.src == src with
  | none => pure ()
  | some m =>
    let a := m.src * 65536
    let b := m.dst * 65536
    engineCopy m.part a b 65536
    forAll (frameRun a 1) fun a => forAll (List.range 256) fun i => purgeLine (a + 256 * i)
    upd fun s => s.dropFrame m.src
    upd fun s =>
      let f := s.frame m.src
      let d := s.frame m.dst
      let s := s.setFrame m.dst { d with state := 0, dirty := f.dirty }
      { s.setFrame m.src { f with state := 2, fwd := m.dst } with moves := s.moves.erase m }
    let rs ← (List.range 4).mapM fun i => do
      let pte := m.ptes.getD i 0
      if pte = 0 then return (0, 0)
      match ← movePte m pte with
      | .ok true => return (2 ^ i, 0)
      | .ok false => return (2 ^ (4 + i), 0)
      | .error e => return (2 ^ (4 + i), e)
    releaseWaits
    upd fun s => s.perf (hubReg (s.hubOf a) 0x30100) 1
    let detail := (rs.map Prod.fst).sum
    completeWith m.queue m.seqno 0x20 ((rs.map Prod.snd).foldl max 0) detail) s

/-- MIG_FREE (R373, R376). -/
def execMigFree (q : Nat) (s : State) : Res := Dev.run' (migCommand q 0x21 (fun c => c.zero 1 7 && c.zero 0x10 48) fun c p => do
  let s ← get
  let a := c.f 8 8
  match s.migFrames p [a] with
  | some e => return some (e, 0)
  | none =>
    let f := s.frame (frameOf a)
    if f.state ≠ 2 then return some (0x903, 0)
    upd fun s => (s.dropFrame (frameOf a)).setFrame (frameOf a) { f with state := 0, fwd := 0 }
    return some (0, 0)) s

/-- The stale sectors of a frame copied to its mirror, each bit cleared first (R372, R377). -/
def syncMirror (p a : Nat) : Dev Unit := do
  forAll (List.range 16) fun k => do
    let s ← get
    let f := s.frame (frameOf a)
    if bit f.mstale k then
      upd fun s => s.setFrame (frameOf a) { f with mstale := setFld f.mstale k k 0 }
      engineCopy p (a + 4096 * k) (f.mframe * 65536 + 4096 * k) 4096
      upd fun s => s.perf (hubReg (s.hubOf a) 0x30108) 64

/-- MIG_MIRROR (R373, R377). -/
def execMigMirror (q : Nat) (s : State) : Res := Dev.run' (migCommand q 0x22 (fun c => c.zero 1 3 && c.zero 0x18 40) fun c p => do
  let s ← get
  let n := c.f 4 4
  let a := c.f 8 8
  let m := c.f 0x10 8
  if n < 1 ∨ 65536 < n then return some (0x907, 0)
  let fs := frameRun a n
  if m = 0 then
    match s.migFrames p fs with
    | some e => return some (e, 0)
    | none =>
      if fs.any fun a => (s.frame (frameOf a)).state != 0 || !(s.frame (frameOf a)).mirror then return some (0x903, 0)
      forAll fs (syncMirror p)
      return some (0, 0)
  else
    let ms := frameRun m n
    match s.migFrames p (fs ++ ms) with
    | some e => return some (e, 0)
    | none =>
      let pairs := fs.zip ms
      if pairs.any fun x => s.hubOf x.1 != s.hubOf x.2 || weirSet x.1 == weirSet x.2 then return some (0x902, 0)
      if fs.any fun a => (s.frame (frameOf a)).state != 0 || (s.frame (frameOf a)).mirror || (s.frame (frameOf a)).mcopy then
        return some (0x903, 0)
      if ms.any fun a =>
          let f := s.frame (frameOf a)
          f.state != 0 || f.pin || f.mirror || f.mcopy || f.shared then return some (0x903, 0)
      forAll pairs fun x => upd fun s =>
        (s.setFrame (frameOf x.1) { s.frame (frameOf x.1) with mirror := true, mstale := 0xFFFF, mframe := frameOf x.2 }).setFrame
          (frameOf x.2) { s.frame (frameOf x.2) with mcopy := true, mframe := frameOf x.1 }
      forAll fs (syncMirror p)
      return some (0, 0)) s

/-- MIG_UNMIRROR (R373, R378). -/
def execMigUnmirror (q : Nat) (s : State) : Res := Dev.run' (migCommand q 0x23 (fun c => c.zero 1 3 && c.zero 0x10 48) fun c p => do
  let s ← get
  let n := c.f 4 4
  if n < 1 ∨ 65536 < n then return some (0x907, 0)
  let fs := frameRun (c.f 8 8) n
  match s.migFrames p fs with
  | some e => return some (e, 0)
  | none =>
    if fs.any fun a => (s.frame (frameOf a)).state == 1 || (s.frame (frameOf a)).state == 2 then return some (0x903, 0)
    if fs.any fun a => (s.frame (frameOf a)).shared then return some (0x906, 0)
    forAll fs fun a => upd fun s =>
      let f := s.frame (frameOf a)
      if f.mirror then
        let m := s.frame f.mframe
        (s.setFrame f.mframe { m with mcopy := false, mframe := 0 }).setFrame (frameOf a)
          { f with mirror := false, mstale := 0, mframe := 0 }
      else s
    return some (0, 0)) s

/-- MIG_ATTR (R373). -/
def execMigAttr (q : Nat) (s : State) : Res := Dev.run' (migCommand q 0x24
    (fun c => c.zero 2 2 && c.zero 0x10 48 && decide (c.f 1 1 ≤ 1)) fun c p => do
  let s ← get
  let n := c.f 4 4
  if n < 1 ∨ 65536 < n then return some (0x907, 0)
  let fs := frameRun (c.f 8 8) n
  match s.migFrames p fs with
  | some e => return some (e, 0)
  | none =>
    forAll fs fun a => upd fun s => s.setFrame (frameOf a) { s.frame (frameOf a) with pin := c.f 1 1 == 1 }
    return some (0, 0)) s

/-- The frame that a scan reads in place of one: FWD of a MOVED frame (R373). -/
def State.scanFrame (s : State) (f : Nat) : Nat := if (s.frame f).state = 2 then (s.frame f).fwd else f

/-- MIG_SCAN (R372, R373): it waits while a frame is MIGRATING. -/
def execMigScan (q : Nat) (s : State) : Res := Dev.run' (migCommand q 0x25
    (fun c => c.zero 2 2 && c.zero 0x18 40 && decide (c.f 1 1 ≤ 1)) fun c p => do
  let s ← get
  let n := c.f 4 4
  let buf := c.f 0x10 8
  if n < 1 ∨ 65536 < n then return some (0x907, 0)
  let fs := frameRun (c.f 8 8) n
  match s.migFrames p (fs ++ frameRun buf (ceilDiv (2 * n) 65536)) with
  | some e => return some (e, 0)
  | none =>
    if fs.any fun a => (s.frame (s.scanFrame (frameOf a))).state == 1 then stall
    if c.f 1 1 = 1 ∧ fs.any fun a => s.snapNames (s.scanFrame (frameOf a)) then stall
    let ds ← fs.mapM fun a => do
      let s ← get
      let f := s.scanFrame (frameOf a)
      let e := s.frame f
      if c.f 1 1 = 1 then upd fun s => s.setFrame f { e with dirty := 0 }
      return leBytes 2 e.dirty
    let bytes := ds.flatten
    -- the buffer is written as a request of the queue's partition
    match (pieces buf bytes.length).findSome? fun x => (s.headgate (.queue q) p true x.1).map fun c => (c, x.1) with
    | some (cause, at') => do
      upd fun s => s.deny (.queue q) p cause at' at'
      return some (0x901, 0)
    | none =>
      dpaWrite p 0 buf bytes
      return some (0, 0)) s

end Sys2Proof.Machine
end

