-- ==== Sys2Proof/Machine/Inbound.lean ====
section
/-! DEFINITION. Requests that come in from hosts, peers and networks (R496, R539, R573): translated, checked by the
headgate and performed. A request that must wait at its hub stays with its port: its command changes nothing. -/

namespace Sys2Proof.Machine

/-- One piece of an inbound request translated and checked by the headgate: its leaf, or the failure (a cause of R354, or
0x10 for a denial). -/
def inLeaf (v : View) (va : Nat) (write : Bool) : Dev (Acc Leaf) := do
  match ← translate v.as v.part v.sel v.src va write true with
  | .error c => return .error c
  | .ok lf =>
    match (← get).headgate v.who v.part write lf.addr with
    | some c => do
      upd fun s => s.deny v.who v.part c lf.addr va
      return .error 0x10
    | none => return .ok lf

/-- Pieces of an inbound read in order: their bytes, or the first failure, 0x11 for poisoned data. -/
def inReadAll (v : View) (hint : Nat) : List (Nat × Nat) → Dev (Acc (List Byte))
  | [] => return .ok []
  | (va, n) :: rest => do
    match ← inLeaf v va false with
    | .error c => return .error c
    | .ok lf => do
      let (bs, bad) ← hubRead v.part hint lf.hint lf.addr n
      match ← inReadAll v hint rest with
      | .error c => return .error (if bad then 0x11 else c)
      | .ok more => return if bad then .error 0x11 else .ok (bs ++ more)

/-- An inbound read of `n` bytes at a DVA. -/
def inRead (v : View) (hint va n : Nat) : Dev (Acc (List Byte)) := inReadAll v hint (pieces va n)

/-- Pieces of an inbound write in order, up to the first that fails. -/
def inWriteAll (v : View) (hint va0 : Nat) (bs : List Byte) : List (Nat × Nat) → Dev (Acc Unit)
  | [] => return .ok ()
  | (va, n) :: rest => do
    match ← inLeaf v va true with
    | .error c => return .error c
    | .ok lf => do
      hubWrite v.part hint lf.hint lf.addr ((bs.drop (va - va0)).take n)
      inWriteAll v hint va0 bs rest

/-- An inbound write at a DVA. -/
def inWrite (v : View) (hint va : Nat) (bs : List Byte) : Dev (Acc Unit) := inWriteAll v hint va bs (pieces va bs.length)

end Sys2Proof.Machine
end

