-- ==== Sys2Proof/Machine/Tidy.lean ====
section
/-! DEFINITION. The tidy cores (R110 to R114): posts, inboxes and the cistern window, and the instructions TRECV and
TSIG. -/

namespace Sys2Proof.Machine

/-- SEQ_CTX_CFGc of a tile. -/
def ctxCfg (tl : Tile) (c : Nat) : Nat := (tl.reg (0x1000 + 8 * c)).toNat
/-- The start of a context's region in the tile's cistern (R76). -/
def ctxBase (tl : Tile) (c : Nat) : Nat := fld (ctxCfg tl c) 13 0 * 4096
/-- The size of a context's region (R76). -/
def ctxSize (tl : Tile) (c : Nat) : Nat := fld (ctxCfg tl c) 29 16 * 4096

/-- The value of an inbox of a tile. -/
def Tile.inboxOf (tl : Tile) (core : Nat) : List W64 := spGet dInbox tl.inbox core

/-- A value delivered to a tidy core's inbox; `none` while the inbox is full (R113). -/
def Tile.toInbox (tl : Tile) (core : Nat) (v : W64) : Option Tile :=
  if 8 ≤ (tl.inboxOf core).length then none
  else some { tl with inbox := spSet dInbox tl.inbox core (tl.inboxOf core ++ [v]) }

/-- The running launch has completed an instruction that forbids its restart (R687). -/
def Tile.effect (tl : Tile) : Tile := { tl with run := tl.run.map fun r => { r with effects := true } }

/-- TRECV (R111, R113, R475, R477). -/
def execTrecv (t : Nat) (w : IWord) (s : State) : Res :=
  deviceInstr s t (.trecv t w) 0x76 w 0 fun s tl kx =>
    match tl.post with
    | [] => (s, .stay tl)
    | e :: rest => inDev t (do
        let tl := { tl with post := rest }
        upd fun s => s.setTile t tl
        let got ← tileJournal t 0x0A 0 (e.flatMap fun q => leBytes 8 q.toNat)
        let tl := ((← get).tile t).effect
        return .done ((List.range 4).foldl (fun tl k =>
          tl.upd kx fun x => x.sSet (w.dst.toNat + k) (BitVec.ofNat 64 (leNat ((got.drop (8 * k)).take 8)))) tl)) s tl

/-- TSIG (R112, R113): it waits for every earlier instruction, and for room in the inbox. -/
def execTsig (t : Nat) (w : IWord) (s : State) : Res :=
  tileInstr s t (.tsig t w) 0x75 w 0 fun tl kx =>
    if tl.outstanding.any fun e => decide (e.seq < kx.seq) then .wait tl []
    else
      match tl.toInbox (fld w.imm.toNat 1 0) (tl.s kx w.sa) with
      | none => .wait tl []
      | some tl => .done tl.effect

/-- TIDY_POST (R111, R113): core `core` of tile `t` stores `v` to POSTk. POST3 commits an entry, and stalls while the
ring is full. -/
def execTidyPost (t core k : Nat) (v : W64) (s : State) : Res :=
  let tl := s.tile t
  let tl' := { tl with latch := spSet dW64 tl.latch (4 * core + k) v }
  .next (
    if 4 ≤ core ∨ 4 ≤ k then s
    else if k ≠ 3 then s.setTile t tl'
    else if 16 ≤ tl.post.length then s
    else s.setTile t { tl' with post := tl.post ++ [(List.range 4).map fun i => spGet dW64 tl'.latch (4 * core + i)] })

/-- TIDY_INBOX_READ (R113): core `core` of tile `t` loads INBOX, or INBOX_COUNT. -/
def execTidyInboxRead (t core : Nat) (count : Bool) (s : State) : Res :=
  let tl := s.tile t
  let q := tl.inboxOf core
  .next (
    if 4 ≤ core then s
    else if count then s.emit (.tidy t core false (leBytes 8 q.length))
    else (s.setTile t { tl with inbox := spSet dInbox tl.inbox core q.tail }).emit
      (.tidy t core false (leBytes 8 (q.headD 0).toNat)))

/-- TIDY_CISTERN_ACCESS (R110, R113, R308): core `core` of tile `t` loads `len` bytes at a physical address, or stores
`data`. The cistern window is the active context's region; the core's scratch lies at 0. Anything else, and a load
that meets a poisoned word, is an access fault on the core. -/
def execTidyCisternAccess (t core addr len : Nat) (data : Option (List Byte)) (s : State) : Res :=
  let tl := s.tile t
  let n := match data with
    | none => len
    | some bs => bs.length
  let fault := s.emit (.tidy t core true [])
  .next (
    if 4 ≤ core then s
    else if addr + n ≤ 65536 then
      match data with
      | none => s.emit (.tidy t core false (spRead dByte tl.scratch (65536 * core + addr) n))
      | some bs => s.setTile t { tl with scratch := spWrite dByte tl.scratch (65536 * core + addr) bs }
    else
      match tl.act with
      | none => fault
      | some c =>
        if 0x10000000 ≤ addr ∧ addr + n ≤ 0x10000000 + ctxSize tl c then
          let off := ctxBase tl c + (addr - 0x10000000)
          match data with
          | none =>
            if badWords tl off n = [] then s.emit (.tidy t core false (tl.cisBytes off n)) else fault
          | some bs => s.setTile t (tl.cisPut off bs)
        else fault)

end Sys2Proof.Machine
end

