-- ==== Sys2Proof/Machine/SlcPlan.lean ====
section
/-! DEFINITION. Collectives before anything moves: operation descriptors (R393, R395), ranks and stages (R383, R384),
and, from the algorithms of R390 and R391, which member sends a unit to which and on which hop. -/

namespace Sys2Proof.Machine

/-! ### Descriptors -/

/-- An operation descriptor (R393). -/
structure SlcD where
  opk    : Nat
  redop  : Nat
  src    : Nat
  dst    : Nat
  flags  : Nat
  stages : Nat
  hint   : Nat
  slots  : Nat
  comm   : Nat
  stream : Nat
  tag    : Nat
  count  : Nat
  step   : Nat
  root   : Nat
  srcBase : Nat
  srcSide : Nat
  srcOutl : Nat
  dstBase : Nat
  dstSide : Nat
  dstOutl : Nat
  seed   : Nat
  tid    : Nat
  dead   : Nat
  ringBase : Nat
  pitch  : Nat
  rows   : Nat
  cols   : Nat
  cap    : Nat
  deriving DecidableEq, Repr

/-- Reading a descriptor (R393). -/
def slcD (b : List Byte) : SlcD :=
  let f := dfld b
  { opk := f 0 1, redop := f 1 1, src := f 2 1, dst := f 3 1, flags := f 4 1, stages := f 5 1, hint := f 6 1, slots := f 7 1
    comm := f 8 2, stream := f 0xA 1, tag := f 0xC 4, count := f 0x10 8, step := f 0x18 4, root := f 0x1C 4
    srcBase := f 0x20 8, srcSide := f 0x28 8, srcOutl := f 0x30 8, dstBase := f 0x38 8, dstSide := f 0x40 8
    dstOutl := f 0x48 8, seed := f 0x50 8, tid := f 0x58 4, dead := f 0x5C 4, ringBase := f 0x60 4, pitch := f 0x64 4
    rows := f 0x68 4, cols := f 0x6C 4, cap := f 0x70 4 }

/-- SRC_SP. -/
def SlcD.srcCis (d : SlcD) : Bool := bit d.flags 0
/-- DST_SP. -/
def SlcD.dstCis (d : SlcD) : Bool := bit d.flags 1
/-- RING. -/
def SlcD.ring (d : SlcD) : Bool := bit d.flags 2
/-- OUTL. -/
def SlcD.outl (d : SlcD) : Bool := bit d.flags 3
/-- ORDER is ARRIVAL. -/
def SlcD.arrival (d : SlcD) : Bool := bit d.flags 4
/-- The deadline rules of R442 to R447 apply. -/
def SlcD.late (d : SlcD) : Bool := bit d.flags 5 && d.dead != 0
/-- RND. -/
def SlcD.rnd (d : SlcD) : Nat := fld d.flags 7 6
/-- The kind reduces. -/
def SlcD.reduces (d : SlcD) : Bool := d.opk == 0 || d.opk == 1 || d.opk == 4
/-- The kind gathers: ALL_GATHER or BROADCAST. -/
def SlcD.gathers (d : SlcD) : Bool := d.opk == 2 || d.opk == 3
/-- The bytes of `n` elements of a format in the element, side and outlier planes (R41, R59). -/
def planeSizes (f : Nat) (outl : Bool) (n : Nat) : Nat × Nat × Nat :=
  if f = 11 then (2 * n, 8 * ceilDiv n unitSize, 0)
  else if isBlockFmt f then (n / 32 * blockBytes f, n / 32, if outl then 6 * (n / 32) else 0)
  else (n * scalarBytes f, 0, 0)

/-- The ring that a descriptor gives a sluice slot (R410). -/
def SlcD.ringOf (d : SlcD) : Ring :=
  if d.ring then
    { base := d.ringBase, pitch := d.pitch, sl := List.replicate d.slots 0, kslot := 0, pslot := 0, fmt := d.dst
      outl := d.outl, esc := 0, rows := d.rows, cols := d.cols }
  else .none

/-- Whether the formats, REDOP and COUNT obey R395, apart from what depends on N. -/
def SlcD.formatsOk (d : SlcD) : Bool :=
  if d.reduces then
    ((d.src == 11 && (d.dst == 11 || d.dst == 8) && d.redop == 0) || (d.src == 8 && d.dst == 8 && decide (d.redop ≤ 2))) &&
      d.count % unitSize == 0
  else if d.gathers then
    (isBlockFmt d.src && (d.dst == d.src || d.dst == 8 || d.dst == 9) && d.count % 32 == 0) ||
      ((d.src == 8 || d.src == 9 || d.src == 10 || d.src == 12) && d.dst == d.src)
  else (isBlockFmt d.src || d.src == 8 || d.src == 9 || d.src == 10 || d.src == 12) && d.dst == d.src &&
    (!isBlockFmt d.src || d.cols % 32 == 0)

/-- Whether a descriptor obeys R393 and R395, apart from what depends on N: reserved bytes and the fields that its kind
does not use are 0. -/
def slcDescOk (b : List Byte) : Bool :=
  let d := slcD b
  let zero (off n : Nat) : Bool := dfld b off n == 0
  decide (d.opk ≤ 5) && zero 0xB 1 && zero 0x74 12 && decide (1 ≤ d.stages ∧ d.stages ≤ 15) && decide (d.hint ≤ 3) &&
  decide (d.comm ≤ 63) && decide (d.stream ≤ 251) && d.formatsOk &&
  (if d.opk = 5 then d.count == 0 && decide (1 ≤ d.cap) && decide (1 ≤ d.cols)
   else decide (1 ≤ d.count ∧ d.count ≤ 2 ^ 40) && d.cap == 0) &&
  (d.reduces || (d.redop == 0 && d.rnd == 0 && !bit d.flags 4 && !bit d.flags 5 && d.stream == 0 && d.seed == 0 && d.tid == 0)) &&
  (!d.reduces || (!d.outl && zero 0x30 8 && zero 0x48 8)) &&
  (d.opk == 3 || d.opk == 4 || d.root == 0) &&
  (!d.ring || d.gathers) && (d.gathers || (d.slots == 0 && d.ringBase == 0 && d.pitch == 0 && d.rows == 0)) &&
  (d.gathers || d.opk == 5 || d.cols == 0) &&
  (!d.ring || (decide (2 ≤ d.slots ∧ d.slots ≤ 8) && d.ringBase % 64 == 0 && d.pitch % 64 == 0 &&
    decide (1 ≤ d.rows) && decide (1 ≤ d.cols) && (!isBlockFmt d.dst || d.cols % 32 == 0) &&
    decide (d.ringOf.tileSize ≤ d.pitch))) &&
  (!d.outl || (isBlockFmt d.src && d.dst == d.src))

/-- The bytes of one row of an ALL_TO_ALL in the element, scale and outlier planes. -/
def SlcD.rowPlanes (d : SlcD) : Nat × Nat × Nat := planeSizes d.src d.outl d.cols
/-- The bytes of one row of an ALL_TO_ALL on the wire. -/
def SlcD.rowBytes (d : SlcD) : Nat := let p := d.rowPlanes; p.1 + p.2.1 + p.2.2

/-- DIGEST (R400). -/
def slcDigest (b : List Byte) : Nat :=
  let d := slcD b
  let head := (b.take 4) ++ leBytes 1 (d.flags / 8 * 8) ++ ((b.drop 5).take 11) ++
    (if d.opk = 5 then List.replicate 8 0 else (b.drop 0x10).take 8) ++ ((b.drop 0x18).take 8)
  crc32c (head ++ (b.drop 0x50).take 12 ++ (b.drop 0x6C).take 8)

/-! ### Ranks -/

/-- A stage above the package: 1 tray, 2 rack, 3 hall. -/
def SlcComm.stage (c : SlcComm) (s : Nat) : SlcStage :=
  c.stages.getD (s - 1) { alg := 0xFF, ports := 0, n := 1, rank := 0, members := [] }
/-- The members of a stage (R383). -/
def SlcComm.nOf (c : SlcComm) (stages s : Nat) : Nat :=
  if !bit stages s then 1 else if s = 0 then popcount 64 c.mask else (c.stage s).n
/-- This package's rank in a stage. -/
def SlcComm.rankIn (c : SlcComm) (stages s : Nat) : Nat := if bit stages s then (c.stage s).rank else 0
/-- N of R384. -/
def SlcComm.total (c : SlcComm) (stages : Nat) : Nat :=
  c.nOf stages 0 * c.nOf stages 1 * c.nOf stages 2 * c.nOf stages 3
/-- The packages of an operation. -/
def SlcComm.packages (c : SlcComm) (stages : Nat) : Nat := c.nOf stages 1 * c.nOf stages 2 * c.nOf stages 3
/-- This package's index, (h × N_k + k) × N_t + t (R445). -/
def SlcComm.pkg (c : SlcComm) (stages : Nat) : Nat :=
  (c.rankIn stages 3 * c.nOf stages 2 + c.rankIn stages 2) * c.nOf stages 1 + c.rankIn stages 1
/-- The global rank of package member `p` of this package (R384). -/
def SlcComm.global (c : SlcComm) (stages p : Nat) : Nat := c.pkg stages * c.nOf stages 0 + p
/-- The rank in stage `s` of package `i`. -/
def SlcComm.pkgRank (c : SlcComm) (stages s i : Nat) : Nat :=
  let t := c.nOf stages 1
  let k := c.nOf stages 2
  if s = 1 then i % t else if s = 2 then i / t % k else i / t / k
/-- The rank in stage `s` of a global rank. -/
def SlcComm.rankOf (c : SlcComm) (stages s g : Nat) : Nat :=
  if s = 0 then g % c.nOf stages 0 else c.pkgRank stages s (g / c.nOf stages 0)
/-- A tile's index among the package members (R384). -/
def SlcComm.tileIx (c : SlcComm) (stages t : Nat) : Nat := if bit stages 0 then popcount t c.mask else 0

/-! ### Units -/

/-- The units of one member's contribution. -/
def SlcD.perMember (d : SlcD) : Nat := ceilDiv d.count unitSize
/-- The units of an operation: of the reduction, or of every member's gathered contribution. -/
def SlcD.units (d : SlcD) (n : Nat) : Nat := if d.opk = 2 then n * d.perMember else if d.opk = 5 then 0 else d.perMember
/-- The elements of a unit. -/
def SlcD.unitLen (d : SlcD) (u : Nat) : Nat := min unitSize (d.count - u % max 1 d.perMember * unitSize)
/-- The global rank of the one member that gets a unit, when one does. -/
def SlcD.target (d : SlcD) (n u : Nat) : Option Nat :=
  if d.opk = 1 then some (u / max 1 (d.perMember / max 1 n)) else if d.opk = 4 then some d.root else none

/-- The algorithm of a stage. -/
def SlcComm.alg (c : SlcComm) (s : Nat) : Nat := (c.stage s).alg

/-- The rank of stage `s` where a unit's reduction in the stage ends, or from which the stage distributes a gathered
unit. -/
def slcOwner (c : SlcComm) (d : SlcD) (u s : Nat) : Nat :=
  let st := d.stages
  let n := c.nOf st s
  let N := c.total st
  if d.reduces then
    if c.alg s = 1 then 0
    else match d.target N u with
      | some g => c.rankOf st s g
      | none => Config.slcChunk n (d.units N) u % max 1 n
  else c.rankOf st s (if d.opk = 2 then u / max 1 d.perMember else d.root)

/-- Whether this package takes part in stage `s` for a unit: its ranks in the enabled stages below are the unit's. -/
def slcServes (c : SlcComm) (d : SlcD) (u s : Nat) : Bool :=
  (List.range s).all fun l => l == 0 || !bit d.stages l || c.rankIn d.stages l == slcOwner c d u l

/-- The direction of the ring of a stage for a unit: false toward rank + 1 (R391). -/
def slcBack (c : SlcComm) (s u : Nat) : Bool :=
  let g := c.stage s
  let ports (r : Nat) : Nat :=
    let m := g.members.getD (r % max 1 g.n) 0
    if s = 3 then 2 ^ fld m 25 24 else fld m 31 16
  Nat.land (ports (g.rank + 1)) (ports (g.rank + g.n - 1)) == 0 && u / 4 % 2 == 1

/-- The rank one step along the ring for a unit. -/
def slcNext (c : SlcComm) (d : SlcD) (s u r : Nat) : Nat :=
  let n := max 1 (c.nOf d.stages s)
  if slcBack c s u then (r + n - 1) % n else (r + 1) % n
/-- The rank one step back along the ring for a unit. -/
def slcPrev (c : SlcComm) (d : SlcD) (s u r : Nat) : Nat :=
  let n := max 1 (c.nOf d.stages s)
  if slcBack c s u then (r + 1) % n else (r + n - 1) % n
/-- How many steps along the ring lead from one rank to another. -/
def slcDist (c : SlcComm) (d : SlcD) (s u a b : Nat) : Nat :=
  let n := max 1 (c.nOf d.stages s)
  if slcBack c s u then (a + n - b) % n else (b + n - a) % n

/-! ### Presence -/

/-- Whether the part of the reduction below stage `s` at rank `q`, within this package's part of the stages above, has a
present package. -/
def slcHas (c : SlcComm) (d : SlcD) (pres : Nat → Bool) (s q : Nat) : Bool :=
  (List.range (c.packages d.stages)).any fun i =>
    c.pkgRank d.stages s i == q && pres i &&
      (List.range 4).all fun l => decide (l ≤ s) || c.pkgRank d.stages l i == c.rankIn d.stages l

/-- Whether a node's subtree (R390) holds anything. -/
def treeHas (has : Nat → Bool) (n : Nat) : Nat → Nat → Bool
  | 0, r => has r
  | fuel + 1, r => decide (r < n) && (has r || treeHas has n fuel (2 * r + 1) || treeHas has n fuel (2 * r + 2))

/-- The levels below a node of the tree. -/
def treeHeight (n : Nat) : Nat → Nat → Nat
  | 0, _ => 0
  | fuel + 1, r => if 2 * r + 1 < n then treeHeight n fuel (2 * r + 1) + 1 else 0

/-- The nodes from a node of the tree up to its root. -/
def treeUp : Nat → Nat → List Nat
  | 0, r => [r]
  | fuel + 1, r => if r = 0 then [0] else r :: treeUp fuel ((r - 1) / 2)

/-- The neighbour of a node on the way to another, itself when it is that node. -/
def treeToward (r t : Nat) : Nat :=
  if r = t then r
  else match (treeUp 20 t).find? fun x => decide (0 < x) && (x - 1) / 2 == r with
    | some x => x
    | none => (r - 1) / 2

/-- The edges between two nodes of the tree. -/
def treeDist : Nat → Nat → Nat → Nat
  | 0, _, _ => 0
  | fuel + 1, a, b => if a = b then 0 else treeDist fuel (treeToward a b) b + 1

/-- Whether the partial that rank `q` sends at level `i` of halving-doubling holds anything. -/
def hdHas (has : Nat → Bool) (n i q : Nat) : Bool := (List.range n).any fun r => r / 2 ^ i == q / 2 ^ i && has r

/-- The lowest level at which two ranks differ. -/
def lowBit (a b : Nat) : Nat := ((List.range 20).find? fun i => bit a i != bit b i).getD 20

/-! ### Who sends what -/

/-- A packet that a plan has this package send on a stage: destination rank, HOP, and the re-encodings before it. -/
structure SlcHop where
  dest : Nat
  hop  : Nat
  enc  : Nat
  deriving DecidableEq, Repr

/-- The partial that this package sends on a stage for a unit, if it sends one (R390, R446). -/
def slcTermPlan (c : SlcComm) (d : SlcD) (pres : Nat → Bool) (u s : Nat) : Option SlcHop :=
  let n := c.nOf d.stages s
  let r := c.rankIn d.stages s
  let j := slcOwner c d u s
  let has := slcHas c d pres s
  if !bit d.stages s || !slcServes c d u s || r == j then none
  else match c.alg s with
    | 2 => if has r then some ⟨j, 0, 0⟩ else none
    | 1 => if treeHas has n 20 r then some ⟨(r - 1) / 2, treeHeight n 20 r, treeHeight n 20 r⟩ else none
    | 3 =>
      let i := lowBit r j
      if hdHas has n i r then some ⟨Nat.xor r (2 ^ i), i, i⟩ else none
    | _ =>
      let p := slcDist c d s u (slcNext c d s u j) r
      let before := (List.range n).filter fun q => decide (slcDist c d s u (slcNext c d s u j) q < p) && has q
      if before ≠ [] ∨ has r then some ⟨slcNext c d s u r, p, before.length⟩ else none

/-- The results that this package sends on a stage for a unit (R390, R402). -/
def slcResultPlan (c : SlcComm) (d : SlcD) (u s : Nat) : List SlcHop :=
  let n := c.nOf d.stages s
  let r := c.rankIn d.stages s
  let j := slcOwner c d u s
  let st := d.stages
  if !bit st s || !slcServes c d u s then []
  else match d.target (c.total st) u with
    | some g =>
      -- only the member that gets the unit is served
      let t := c.rankOf st s g
      let above := (List.range 4).all fun l => decide (l ≤ s) || c.rankOf st l g == c.rankIn st l
      if above && c.alg s == 1 && r != t && (treeUp 20 t).contains r then [⟨treeToward r t, treeDist 40 0 r, 0⟩] else []
    | none =>
      match c.alg s with
      | 2 => if r = j then ((List.range n).filter (· != r)).map fun q => ⟨q, 0, 0⟩ else []
      | 1 =>
        let near := ([2 * r + 1, 2 * r + 2].filter (· < n)) ++ (if r = 0 then [] else [(r - 1) / 2])
        (near.filter fun q => r == j || q != treeToward r j).map fun q => ⟨q, treeDist 40 j r, 0⟩
      | 3 =>
        let top := if r = j then Nat.log2 n else lowBit r j
        ((List.range top).reverse).map fun i => ⟨Nat.xor r (2 ^ i), i, 0⟩
      | _ => if slcNext c d s u r = j then [] else [⟨slcNext c d s u r, slcDist c d s u j r, 0⟩]

/-- The next stage and rank on the way of an ALL_TO_ALL row to a member of another package: the highest stage in which
the ranks differ is put right first (R412). -/
def slcRoute (c : SlcComm) (d : SlcD) (g : Nat) : Option (Nat × Nat) :=
  ([3, 2, 1].find? fun s => bit d.stages s && c.rankOf d.stages s g != c.rankIn d.stages s).map fun s =>
    let r := c.rankIn d.stages s
    let q := c.rankOf d.stages s g
    let hopTo := match c.alg s with
      | 2 => q
      | 1 => treeToward r q
      | 3 => Nat.xor r (2 ^ lowBit r q)
      | _ => (r + 1) % max 1 (c.nOf d.stages s)
    (s, hopTo)

/-- Every packet that a plan has this package send: kind, stage, unit, destination and hop. -/
def slcPlan (c : SlcComm) (d : SlcD) (pres : Nat → Bool) : List SlcSent :=
  (List.range (d.units (c.total d.stages))).flatMap fun u => [1, 2, 3].flatMap fun s =>
    (if d.reduces then (slcTermPlan c d pres u s).toList.map fun h =>
      { kind := 1, stage := s, hop := h.hop % 256, unit := u, off := 0, dest := h.dest, acked := false } else []) ++
    (slcResultPlan c d u s).map fun h =>
      { kind := 2, stage := s, hop := h.hop % 256, unit := u, off := 0, dest := h.dest, acked := false }

end Sys2Proof.Machine
end

