-- ==== Sys2Proof/Machine/SlcCore.lean ====
section
/-! DEFINITION. What the sluices hold and send: operations and posts, packets (R408), sprinkle-path messages (R428),
completion records (R416), and late areas and decisions (R442 to R450). -/

namespace Sys2Proof.Machine

/-! ### Registers and lookups -/

/-- SLC_COMMn. -/
def commReg (n : Nat) : Nat := 0x50000 + 8 * n
/-- SLC_LATE_CFGn. -/
def lateReg (n : Nat) : Nat := 0x50200 + 8 * n
/-- A register of a hub's sluice. -/
def slcReg (h off : Nat) : Nat := hubReg h (0x50000 + off)

/-- A communicator, when it is in service. -/
def State.comm (s : State) (n : Nat) : Option SlcComm :=
  if s.rb (commReg n) 63 then some (spGet (fun _ => { mask := 0, stages := [] }) s.comms n) else none
/-- The partition of a communicator. -/
def State.commPart (s : State) (n : Nat) : Nat := s.rf (commReg n) 62 60
/-- How the sluices reach a communicator's record, tables and late areas (R385, R451). -/
def State.commView (s : State) (n : Nat) : View :=
  let as := some (s.rf (commReg n) 59 54)
  { who := .device, part := s.commPart n, as := as, sel := s.vsel as, src := 2, fn := none }

/-- What matches the members of an operation: COMM, TAG and STEP (R400). -/
abbrev OpKey := Nat × Nat × Nat
/-- An operation with nothing of it here. -/
def SlcOp.begun (k : OpKey) : SlcOp :=
  { comm := k.1, tag := k.2.1, step := k.2.2, desc := [], posts := [], terms := [], sent := [], stopped := false, added := 0
    late := 0 }
/-- A step under a deadline of which nothing is known. -/
def SlcLate.begun (k : OpKey) : SlcLate :=
  { comm := k.1, tag := k.2.1, step := k.2.2, joins := [], first := 0, limit := 0, jmode := 0, jstep := 0, closed := false
    parts := [], flags := [], decided := false, when_ := 0 }
/-- The key of an operation. -/
def SlcOp.key (o : SlcOp) : OpKey := (o.comm, o.tag, o.step)
/-- The operation of a key at this package. -/
def State.op (s : State) (k : OpKey) : Option SlcOp := s.ops.find? fun o => o.key == k
/-- An operation changed, or begun with nothing. -/
def State.modOp (s : State) (k : OpKey) (f : SlcOp → SlcOp) : State :=
  if (s.op k).isSome then { s with ops := s.ops.map fun o => if o.key == k then f o else o }
  else { s with ops := s.ops ++ [f (.begun k)] }
/-- A post of an operation changed. -/
def State.modPost (s : State) (k : OpKey) (i : Nat) (f : SlcPost → SlcPost) : State :=
  s.modOp k fun o => { o with posts := o.posts.modify i f }
/-- What a package holds put with what it has. -/
def State.addTerm (s : State) (k : OpKey) (t : SlcTerm) : State := s.modOp k fun o => { o with terms := o.terms ++ [t] }

/-- The partial of a unit that the package formed after a stage. -/
def SlcOp.ownAt (o : SlcOp) (u st : Nat) : Option SlcTerm :=
  o.terms.find? fun t => t.kind == 1 && t.own && t.unit == u && t.stage == st
/-- The result of a unit, or a gathered unit. -/
def SlcOp.result (o : SlcOp) (u : Nat) : Option SlcTerm := o.terms.find? fun t => t.kind == 2 && t.unit == u
/-- Whether a packet has been sent. -/
def SlcOp.isSent (o : SlcOp) (e : SlcSent) : Bool :=
  o.sent.any fun x => { x with acked := false } == { e with acked := false }
/-- Whether every packet sent has been acknowledged (R414). -/
def SlcOp.allAcked (o : SlcOp) : Bool := o.sent.all (·.acked)

/-- Whether an operation is open: a post of it has not completed. -/
def SlcOp.isOpen (o : SlcOp) : Bool := o.posts.any fun p => !p.ended
/-- The open operations. -/
def State.openOps (s : State) : Nat := (s.ops.filter SlcOp.isOpen).length
/-- The staging memory that a hub's sluice uses, in bytes. -/
def State.staged (s : State) (h : Nat) : Nat :=
  (s.ops.flatMap SlcOp.terms).foldl (fun n t => if t.unit % 4 = h then n + t.data.length else n) 0

/-! ### Sending -/

/-- A packet's header and payload (R408). -/
def slcPacket (k : OpKey) (kind stage hop flags unit src contrib hdr bytes digest off : Nat) (data : List Byte) : List Byte :=
  leBytes 1 kind ++ leBytes 1 stage ++ leBytes 1 hop ++ leBytes 1 flags ++ leBytes 2 k.1 ++ leBytes 2 0 ++ leBytes 4 k.2.1 ++
    leBytes 4 k.2.2 ++ leBytes 8 unit ++ leBytes 4 src ++ leBytes 4 contrib ++ leBytes 8 hdr ++ leBytes 4 bytes ++
    leBytes 4 digest ++ leBytes 4 0 ++ leBytes 4 off ++ leBytes 8 0 ++ padSlots data

/-- This package's identifier. -/
def State.nodeId (s : State) : Nat := s.rf 0x70000 15 0

/-- One of the leat ports that reach a member: those that carry messages come first, and the unit chooses among them. -/
def State.slcPort (s : State) (mask u : Nat) : Option Nat :=
  let all := (List.range 16).filter fun n => bit mask n
  let live := all.filter s.leaOpen
  let l := if live = [] then all else live
  (l.drop (u / 4 % max 1 l.length)).head?

/-- A message to the member of rank `dest` of a stage: over leat with its route word at `at'`, or over Ethernet, `ud` for
the sprinkle path. -/
def State.toMember (s : State) (c : SlcComm) (st dest u vc at' : Nat) (msg : List Byte) : State :=
  let m := (c.stage st).members.getD dest 0
  if st = 3 then
    (if vc = 3 then s.udSend (fld m 25 24) (fld m 23 0) msg else s.qpSluice (fld m 23 0) msg)
  else match s.slcPort (fld m 31 16) u with
    | none => s
    | some n => s.leaSend n vc (routed (padSlots msg) at' (fld m 15 0) s.nodeId)

/-- A sluice packet sent to a member and remembered until its acknowledgement; one already sent is not sent again. -/
def slcSend (k : OpKey) (c : SlcComm) (e : SlcSent) (flags src contrib hdr digest : Nat) (data : List Byte) : Dev Unit := do
  let s ← get
  match s.op k with
  | none => pure ()
  | some o =>
    if o.isSent e then pure ()
    else
      let pkt := slcPacket k e.kind e.stage e.hop flags e.unit src contrib hdr data.length digest e.off data
      upd fun s => (s.toMember c e.stage e.dest e.unit 2 0x30 pkt).modOp k fun o => { o with sent := o.sent ++ [e] }
      upd fun s => s.perf (slcReg (e.unit % 4) 0x110) (1 + ceilDiv data.length 64)

/-- A sprinkle message, join or decision (R428, R445). -/
def spkMsg (kind op cnt slot comm epoch src present stage : Nat) (vals : List Byte) : List Byte :=
  leBytes 1 kind ++ leBytes 1 op ++ leBytes 1 cnt ++ leBytes 1 slot ++ leBytes 2 comm ++ leBytes 2 epoch ++ leBytes 4 src ++
    leBytes 4 present ++ leBytes 1 stage ++ List.replicate 15 0 ++ (vals ++ List.replicate (64 - vals.length) 0)

/-- A message of the sprinkle path to a member of a stage. -/
def State.spkTo (s : State) (c : SlcComm) (st dest : Nat) (msg : List Byte) : State := s.toMember c st dest 0 3 0x14 msg

/-! ### Posts -/

/-- How the sluice reaches memory for a post (R346, R671). -/
def State.postView (s : State) (p : SlcPost) : View :=
  match p.who with
  | .tile t => s.tileView t p.ctx p.sel 2
  | .queue q => s.queueView q 2
  | m => { who := m, part := 8, as := none, sel := 0, src := 2, fn := none }

/-- Bytes of a post's source, in the cistern or in memory. -/
def slcRead (p : SlcPost) (cis : Bool) (hint at' n : Nat) : Dev (Acc (List Byte)) := do
  if n = 0 then return .ok []
  else if cis then
    match p.who with
    | .tile t =>
      let tl := (← get).tile t
      return if badWords tl (p.cisOff + at') n = [] then .ok (tl.cisBytes (p.cisOff + at') n) else .error 0x11
    | _ => return .error 1
  else vaRead ((← get).postView p) hint (at' % 2 ^ 64) n none

/-- Bytes written to a post's destination. -/
def slcWrite (p : SlcPost) (cis : Bool) (hint at' : Nat) (bs : List Byte) : Dev (Acc Unit) := do
  if bs = [] then return .ok ()
  else if cis then
    match p.who with
    | .tile t => do
      upd fun s => s.setTile t ((s.tile t).cisPut (p.cisOff + at') bs)
      return .ok ()
    | _ => return .error 1
  else vaWrite ((← get).postView p) hint (at' % 2 ^ 64) bs

/-- The completion record of an operation (R416). -/
def slcRecord (status slot flags tag step present expected detail time : Nat) : List Byte :=
  leBytes 2 status ++ leBytes 1 slot ++ leBytes 1 flags ++ leBytes 4 tag ++ leBytes 4 step ++ leBytes 4 present ++
    leBytes 4 expected ++ leBytes 4 detail ++ leBytes 8 time

/-- The step of a COMM and TAG under a deadline. -/
def State.late (s : State) (k : OpKey) : Option SlcLate :=
  s.lates.find? fun l => l.comm == k.1 && l.tag == k.2.1 && l.step == k.2.2
/-- A step under a deadline changed, or begun. -/
def State.modLate (s : State) (k : OpKey) (f : SlcLate → SlcLate) : State :=
  if (s.late k).isSome then
    { s with lates := s.lates.map fun l => if l.comm == k.1 && l.tag == k.2.1 && l.step == k.2.2 then f l else l }
  else { s with lates := s.lates ++ [f (.begun k)] }

/-- The present packages of an operation; `none` until the decision is known (R446). -/
def State.present (s : State) (k : OpKey) (d : SlcD) : Option (Nat → Bool) :=
  if d.late then
    match s.late k with
    | some l => if l.decided then some fun i => l.flags.contains i else none
    | none => none
  else some fun _ => true

/-- PRESENT of an operation (R407, R447): the contributions in the results it holds; otherwise the members that take
part. -/
def State.slcPresent (s : State) (k : OpKey) (c : SlcComm) (d : SlcD) : Nat :=
  let all := match s.present k d with
    | some f => c.nOf d.stages 0 * ((List.range (c.packages d.stages)).filter f).length
    | none => 0
  if d.reduces then
    match (s.op k).bind fun o => o.terms.find? fun t => t.kind == 2 with
    | some t => t.contrib
    | none => all
  else c.total d.stages

/-- A post completes with a status and a detail: the record goes to the slot's registers, or to the queue (R399, R414,
R416). -/
def slcFinish (k : OpKey) (i status detail : Nat) : Dev Unit := do
  let s ← get
  match (s.op k).bind fun o => o.posts[i]? with
  | none => pure ()
  | some p =>
    let d := slcD p.desc
    let c := (s.comm k.1).getD { mask := 0, stages := [] }
    let n := c.total d.stages
    let present := s.slcPresent k c d
    let absent := match s.present k d with
      | some f => (List.range (c.packages d.stages)).any fun i => !f i
      | none => false
    let flags := Nat.lor p.flags (b2n absent)
    if p.ended then pure ()
    else
      upd fun s => s.modPost k i fun p => { p with ended := true, status := status, detail := detail, flags := flags }
      upd fun s => (List.range 4).foldl (fun s h =>
        if h < d.units n ∨ d.opk = 5 then s.perf (slcReg h 0x100) 1 else s) s
      match p.who with
      | .tile t =>
        let rec' := slcRecord status p.slot flags k.2.1 k.2.2 present n detail s.time
        upd fun s =>
          let tl := s.tile t
          s.setTile t { tl with slc := spMod dSlc tl.slc p.slot fun x =>
            { x with state := if status = 0xA08 then 3 else 2, status := status, record := rec' } }
      | .queue q => complete q p.seqno (recordBytes p.seqno status 0x30 0xFF 0 0 present s.time)
      | _ => pure ()

/-- The cause of SLC_FAULT (R418) of a failed access. -/
def slcCause (c : Nat) : Nat := if c = 0x10 then 2 else if c = 0x11 ∨ c = 0x12 then 3 else 1

/-- A post stops on a failed access (R418): a denial has frozen the posting tile, whose launch is aborted (R674). -/
def slcFault (k : OpKey) (i c : Nat) : Dev Unit := do
  slcFinish k i 0xA06 (slcCause c)
  if c = 0x10 then
    match ((← get).op k).bind fun o => o.posts[i]? with
    | some p => (match p.who with
      | .tile t => upd fun s => abortTile s t (s.tile t) 0xF01 0
      | _ => pure ())
    | none => pure ()

/-! ### Late areas -/

/-- The age limit L of a communicator's late area (R451). -/
def State.staleMax (s : State) (n : Nat) : Nat := s.rf (lateReg n) 62 60
/-- The late table's entry for a TAG: BASE and BYTES. -/
def State.lateEntry (s : State) (n tag : Nat) : Option (Nat × Nat) :=
  ((spGet (fun _ => []) s.lateTab n).find? fun e => e.1 == tag).map fun e => e.2
/-- D and Z of R448 for a descriptor. -/
def SlcD.lateZ (d : SlcD) : Nat :=
  let sz (f : Nat) : Nat := if f = 11 then 2 * d.count + d.count / 512 else 4 * d.count
  ceilDiv (64 + max (sz d.src) (sz d.dst)) 65536 * 65536
/-- The address of a slot of a late area: hold slots first, then bucket slots (R448). -/
def State.lateSlot (s : State) (n tag z i : Nat) : Option Nat := (s.lateEntry n tag).map fun e => e.1 + i * z
/-- A slot header's bytes (R448). -/
def lateHdr (step st contrib count : Nat) : List Byte :=
  leBytes 4 step ++ leBytes 1 st ++ leBytes 3 0 ++ leBytes 4 contrib ++ leBytes 4 0 ++ leBytes 8 count ++ List.replicate 40 0
/-- A slot header read: STEP, STATE, NCONTRIB and COUNT. -/
def lateRead (n at' : Nat) : Dev (Nat × Nat × Nat × Nat) := do
  match ← vaRead ((← get).commView n) 0 at' 64 none with
  | .error _ => return (0, 0, 0, 0)
  | .ok h => return (dfld h 0 4, dfld h 4 1, dfld h 8 4, dfld h 0x10 8)
/-- Bytes written in a late area. -/
def lateWrite (n at' : Nat) (bs : List Byte) : Dev Unit := do
  let _ ← vaWrite ((← get).commView n) 0 at' bs
  pure ()
/-- The check of R443. -/
def State.lateOk (s : State) (c : SlcComm) (d : SlcD) : Bool :=
  let L := s.staleMax d.comm
  decide (2 ≤ d.stages) && s.rb (lateReg d.comm) 63 &&
    (match s.lateEntry d.comm d.tag with
     | some e => decide (2 * (L + 1) * d.lateZ ≤ e.2)
     | none => false) &&
    decide (c.total d.stages * (L + 1) ≤ 65536)

/-! ### The decider -/

/-- The present flags of a decision as bytes (R445). -/
def flagBytes (n : Nat) (l : List Nat) : List Byte :=
  (List.range n).map fun i => BitVec.ofNat 8 ((List.range 8).foldl (fun v b => v + if l.contains (8 * i + b) then 2 ^ b else 0) 0)
/-- The members of packed flags. -/
def flagList (bs : List Byte) : List Nat := (List.range (8 * bs.length)).filter fun i => (bs.getD (i / 8) 0).getLsbD (i % 8)

/-- The stages that the messages of a COMM and TAG use: those of the operation when it is known here, else every stage of
the communicator that is there. -/
def State.stagesOf (s : State) (c : SlcComm) (comm tag : Nat) : Nat :=
  match (s.ops.filter fun o => o.comm == comm && o.tag == tag && o.desc != []).getLast? with
  | some o => (slcD o.desc).stages
  | none => [1, 2, 3].foldl (fun v st => if c.alg st = 0xFF then v else v + 2 ^ st) 1

/-- A decision becomes known at this package (R446). -/
def lateDecided (k : OpKey) (flags : List Nat) : Dev Unit := upd fun s =>
  s.modLate k fun l => { l with flags := flags, decided := true, when_ := s.time }

/-- Decision messages sent to every member of the stages below `top` (R445): one for each 384 packages. -/
def lateSpread (k : OpKey) (c : SlcComm) (stages top present : Nat) (flags : List Nat) : Dev Unit := do
  let parts := ceilDiv (c.packages stages) 384
  forAll ([3, 2, 1].filter fun st => decide (st < top) && bit stages st) fun st =>
    forAll ((List.range (c.nOf stages st)).filter (· != c.rankIn stages st)) fun q =>
      forAll (List.range parts) fun part =>
        let some' := (flags.filter fun i => i / 384 == part).map (· % 384)
        let vals := leBytes 4 k.2.1 ++ leBytes 4 k.2.2 ++ leBytes 2 part ++ List.replicate 6 0 ++ flagBytes 48 some'
        upd fun s => s.spkTo c st q (spkMsg 0x14 0 0 0 k.1 (k.2.2 % 65536) (c.pkg stages) present 0 vals)

/-- Whether the staleness bound lets the decider close a step (R444): every package joined step t − STALE_MAX − 1, if any
did. -/
def State.mayClose (s : State) (k : OpKey) (packages : Nat) : Bool :=
  let back := s.staleMax k.1 + 1
  if k.2.2 < back then true
  else match s.late (k.1, k.2.1, k.2.2 - back) with
    | none => true
    | some l => l.joins == [] || decide (packages ≤ l.joins.length)

/-- The decider closes a step when it can (R444, R477): when every package has joined, or `due` for the deadline; in
replay when the recorded packages have. -/
def lateClose (k : OpKey) (due : Bool) : Dev Unit := do
  let s ← get
  match s.comm k.1, s.late k with
  | some c, some l =>
    let st := s.stagesOf c k.1 k.2.1
    let n := c.packages st
    let ready := if l.jmode = 2 then l.flags.all l.joins.contains else decide (n ≤ l.joins.length) || due
    if l.closed || l.joins == [] || !ready || !s.mayClose k n then pure ()
    else
      let flags := if l.jmode = 2 then l.flags else l.joins
      upd fun s => s.modLate k fun l => { l with closed := true }
      if l.jmode = 1 then
        jrnRecord .device (s.commPart k.1) l.jstep 2 2 (k.1 % 4) k.2.1
          (leBytes 4 k.1 ++ leBytes 4 k.2.2 ++ flagBytes (ceilDiv n 8) flags)
      lateSpread k c st 4 (c.nOf st 0 * flags.length) flags
      lateDecided k flags
  | _, _ => pure ()

/-- The decider receives a join (R444, R473). -/
def lateJoin (k : OpKey) (pkg limit jmode jstep : Nat) : Dev Unit := do
  let s ← get
  let fresh := match s.late k with
    | some l => l.joins == []
    | none => true
  if fresh then
    upd fun s => s.modLate k fun l => { l with first := s.time, limit := limit, jmode := jmode, jstep := jstep }
    if jmode = 2 then
      match ← jrnLookup .device (s.commPart k.1) jstep 2 2 (k.1 % 4) with
      | some r => upd fun s => s.modLate k fun l => { l with flags := flagList (r.drop 8) }
      | none => pure ()
  upd fun s => s.modLate k fun l => { l with joins := if l.joins.contains pkg then l.joins else l.joins ++ [pkg] }
  -- a join can also free a later step whose deadline has passed
  forAll ((← get).lates.filter fun l => l.comm == k.1 && l.tag == k.2.1 && !l.closed) fun l => do
    let s ← get
    lateClose (l.comm, l.tag, l.step) (decide (l.first + 1000 * l.limit ≤ s.time) && l.jmode != 2)

/-- The package joins a step (R444): the join goes to the decider, by the leaders of the stages. -/
def lateSendJoin (k : OpKey) (c : SlcComm) (d : SlcD) (jmode jstep : Nat) : Dev Unit := do
  let st := d.stages
  match [1, 2, 3].find? fun l => bit st l && c.rankIn st l != 0 with
  | none => lateJoin k 0 d.dead jmode jstep
  | some l =>
    let vals := leBytes 4 k.2.1 ++ leBytes 4 k.2.2 ++ leBytes 4 d.dead
    upd fun s => s.spkTo c l 0 (spkMsg 0x13 0 0 0 k.1 (k.2.2 % 65536) (c.pkg st) 0 0 vals)

end Sys2Proof.Machine
end

