-- ==== Sys2Proof/Machine/SlcWork.lean ====
section
/-! DEFINITION. The sluices at work on an operation: the package's partial (R401, R402), late buckets (R449, R450), the
stages above (R390, R403, R446), results and gathered units, rows of an ALL_TO_ALL (R412, R413), and delivery into memory
and rings (R394, R410, R411). -/

namespace Sys2Proof.Machine

/-! ### Values -/

/-- The fp32 values of a unit with what they sum up: contributions and COUNT. -/
structure SlcVal where
  xs      : List Ext
  contrib : Nat
  count   : Nat

/-- The value of a term in a source format (R61, R62, R405). -/
def termVal (f : Nat) (t : SlcTerm) : SlcVal :=
  if t.own || f == 8 then
    ⟨fp32Vals unitSize (t.data ++ List.replicate (4 * unitSize - t.data.length) 0), t.contrib,
      if t.own then hdrCount t.hdr else unitSize⟩
  else ⟨bucketVals t.hdr t.data, t.contrib, if hdrBad t.hdr then unitSize else hdrCount t.hdr⟩

/-- Two values added (R402, R406). -/
def SlcVal.add (op : Nat) (a b : SlcVal) : SlcVal := ⟨redVec op a.xs b.xs, a.contrib + b.contrib, max a.count b.count⟩

/-- A partial that this package formed after a stage. -/
def ownTerm (src st u : Nat) (v : SlcVal) : SlcTerm :=
  { kind := 1, stage := st, hop := 0, src := src, unit := u, off := 0, contrib := v.contrib, hdr := v.count <<< 16, own := true
    digest := 0, data := fp32Bytes v.xs }

/-- The post of an operation whose launch keeps a journal, if one does (R473): its tile, mode and step. -/
def SlcOp.journal (o : SlcOp) : Option (Nat × Nat × Nat) :=
  o.posts.findSome? fun p => match p.who with
    | .tile t => if p.jmode = 0 then none else some (t, p.jmode, p.jstep)
    | _ => none

/-- A value of an operation passes through the journal of its launch (R429, R477); without a record the posting tile's
task is aborted. -/
def slcJournal (k : OpKey) (type unit : Nat) (live : List Byte) : Dev (List Byte) := do
  let s ← get
  match (s.op k).bind SlcOp.journal with
  | none => return live
  | some (t, mode, step) =>
    match ← attempt (jrnPass (.tile t) (s.tilePart t) mode step type 2 unit k.2.1 live) with
    | .ok v => return v
    | .error (code, _) => do
      upd fun s => abortTile s t (s.tile t) code 0
      return live

/-- The order in which terms are added under ARRIVAL (R403, R429, R475, R477): as they came, or as the journal has it. -/
def slcOrder (k : OpKey) (d : SlcD) (u : Nat) (l : List (Nat × SlcVal)) : Dev (List SlcVal) := do
  if !d.arrival then return l.map Prod.snd
  else
    let srcs := l.map Prod.fst
    let r ← slcJournal k 4 (u % 4) (leBytes 8 u ++ srcs.flatMap (leBytes 4))
    let want := wordsOf 4 ((r.length - 8) / 4) (r.drop 8)
    return want.filterMap fun g => (l.find? fun x => x.1 == g).map Prod.snd

/-- Values added in order, and the additions counted (R435). -/
def slcSum (k : OpKey) (d : SlcD) (u : Nat) (l : List (Nat × SlcVal)) : Dev (Option SlcVal) := do
  match ← slcOrder k d u l with
  | [] => return none
  | v :: vs =>
    let r := vs.foldl (SlcVal.add d.redop) v
    upd fun s => s.perf (slcReg (u % 4) 0x118) (vs.length * r.count)
    return some r

/-- A value as it travels: fp32, or a bucket encoded on a stream at a hop (R402, R404, R406), with the counts of R72. -/
def slcEncode (d : SlcD) (fmt u stream hop : Nat) (v : SlcVal) : Dev (Nat × List Byte) := do
  if fmt = 8 then return (0, fp32Bytes v.xs)
  else
    let draw (i : Nat) : Nat :=
      kzDraw (BitVec.ofNat 64 d.seed) d.tid stream (BitVec.ofNat 64 ((u * unitSize + i) * 65536 + hop))
    let (h, b) := bucketEnc d.rnd draw v.count v.xs
    upd fun s => s.count (slcReg (u % 4) 0x8) (b2n (hdrOvr h))
    upd fun s => s.count (slcReg (u % 4) 0x10) (b2n (hdrNonfin h))
    return (h, b)

/-! ### The package stage -/

/-- Whether the package has joined (R442): every member tile has posted, or its one member has. -/
def slcJoined (c : SlcComm) (d : SlcD) (o : SlcOp) : Bool :=
  if bit d.stages 0 then (List.range 64).all fun t => !bit c.mask t || o.posts.any fun p => p.who == .tile t
  else o.posts != []

/-- The posts in the order of addition: ascending tile, or as they came (R390, R403). -/
def slcMembers (d : SlcD) (o : SlcOp) : List (Nat × SlcPost) :=
  let l := o.posts.zipIdx.map fun x => (x.2, x.1)
  if d.arrival then l
  else
    let tiles := (List.range 64).flatMap fun t => l.filter fun x => x.2.who == .tile t
    if tiles = [] then l else tiles

/-- A unit of a post's contribution to a reduction (R401, R402). -/
def slcValue (p : SlcPost) (u : Nat) : Dev (Acc SlcVal) := do
  let d := slcD p.desc
  if d.src = 8 then
    match ← slcRead p d.srcCis d.hint (d.srcBase + 4 * unitSize * u) (4 * unitSize) with
    | .error c => return .error c
    | .ok bs =>
      upd fun s => s.perf (slcReg (u % 4) 0x108) (4 * unitSize / 64)
      return .ok ⟨fp32Vals unitSize bs, 1, unitSize⟩
  else
    match ← slcRead p d.srcCis d.hint (d.srcBase + 2 * unitSize * u) (2 * unitSize) with
    | .error c => return .error c
    | .ok bs =>
      match ← slcRead p d.srcCis d.hint (d.srcSide + 8 * u) 8 with
      | .error c => return .error c
      | .ok hb =>
        let h := leNat hb
        upd fun s => s.perf (slcReg (u % 4) 0x108) (1 + ceilDiv (2 * hdrCount h) 64)
        return .ok ⟨bucketVals h bs, 1, if hdrBad h then unitSize else hdrCount h⟩

/-- Every member's unit in order; a member whose read fails stops (R418). -/
def slcValues (k : OpKey) (c : SlcComm) (d : SlcD) (u : Nat) : List (Nat × SlcPost) → Dev (Option (List (Nat × SlcVal)))
  | [] => return some []
  | (i, p) :: rest => do
    match ← slcValue p u with
    | .error e => do
      slcFault k i e
      return none
    | .ok v =>
      match ← slcValues k c d u rest with
      | none => return none
      | some vs =>
        let t := match p.who with
          | .tile t => c.tileIx d.stages t
          | _ => 0
        return some ((c.global d.stages t, v) :: vs)

/-- The sluices that serve an operation's units (R401). -/
def slcHubs (d : SlcD) (n : Nat) : List Nat := (List.range 4).filter fun h => decide (h < d.units n)

/-- The key under which the source format of a late bucket slot is kept. -/
def lateFmtKey (k : OpKey) (i : Nat) : Nat := k.1 * 2 ^ 40 + k.2.1 * 8 + i

/-- The bucket entries that this step adds, oldest first (R450): their slot and NCONTRIB; entries too old or of another COUNT
or format are dropped, and every slot looked at becomes empty. -/
def lateTake (k : OpKey) (d : SlcD) : Dev (List (Nat × Nat)) := do
  let s ← get
  let L := s.staleMax k.1
  let found ← (List.range (L + 1)).filterMapM fun i => do
    match s.lateSlot k.1 k.2.1 d.lateZ (L + 1 + i) with
    | none => return none
    | some a =>
      let (st, state, contrib, count) ← lateRead k.1 a
      if state ≠ 2 ∨ k.2.2 ≤ st then return none
      lateWrite k.1 a (lateHdr st 0 0 0)
      let ok := decide (k.2.2 - st ≤ L) && count == d.count && spGet dNat s.lateFmt (lateFmtKey k i) == d.src
      upd fun s => (slcHubs d (d.units 1)).foldl (fun s h => s.count (slcReg h (if ok then 0x50 else 0x58)) 1) s
      return if ok then some (st, a, contrib) else none
  let rec sorted (l : List (Nat × Nat × Nat)) : Nat → List (Nat × Nat × Nat)
    | 0 => l
    | fuel + 1 => match l with
      | [] => []
      | x :: xs =>
        let m := xs.foldl (fun m y => if y.1 < m.1 then y else m) x
        m :: sorted (l.erase m) fuel
  return (sorted found found.length).map fun x => x.2

/-- A unit of a late bucket slot (R448). -/
def lateUnit (k : OpKey) (d : SlcD) (a contrib u : Nat) : Dev SlcVal := do
  let v := (← get).commView k.1
  let zero : SlcVal := ⟨List.replicate unitSize (.fin Dy.zero), 0, 1⟩
  if d.src = 8 then
    match ← vaRead v d.hint (a + 64 + 4 * unitSize * u) (4 * unitSize) none with
    | .error _ => return zero
    | .ok bs => return ⟨fp32Vals unitSize bs, contrib, unitSize⟩
  else
    match ← vaRead v d.hint (a + 64 + 2 * unitSize * u) (2 * unitSize) none,
        ← vaRead v d.hint (a + 64 + 2 * d.count + 8 * u) 8 none with
    | .ok bs, .ok hb =>
      let h := leNat hb
      return ⟨bucketVals h bs, contrib, if hdrBad h then unitSize else hdrCount h⟩
    | _, _ => return zero

/-- A unit written at a slot of a late area: buckets with their header plane, or fp32 (R448). -/
def latePut (k : OpKey) (d : SlcD) (fmt a u hdr : Nat) (data : List Byte) : Dev Unit := do
  if fmt = 8 then lateWrite k.1 (a + 64 + 4 * unitSize * u) data
  else
    lateWrite k.1 (a + 64 + 2 * unitSize * u) (data ++ List.replicate (2 * unitSize - data.length) 0)
    lateWrite k.1 (a + 64 + 2 * d.count + 8 * u) (leBytes 8 hdr)

/-- The package's partial of every unit formed once it has joined and the decision is known: into the stages above, with
the late buckets, or, when the package is absent, into its bucket slot (R442, R446, R449, R450). -/
def slcForm (k : OpKey) (c : SlcComm) (d : SlcD) (pres : Nat → Bool) : Dev Unit := do
  match (← get).op k with
  | none => pure ()
  | some o =>
    if o.posts.any (·.taken) || !slcJoined c d o then pure ()
    else
      upd fun s => s.modOp k fun o => { o with posts := o.posts.map fun p => { p with taken := true } }
      let s ← get
      let L := s.staleMax k.1
      let mine := pres (c.pkg d.stages)
      let n := c.total d.stages
      let adds ← if d.late && mine then lateTake k d else pure []
      let slot := s.lateSlot k.1 k.2.1 d.lateZ (L + 1 + k.2.2 % (L + 1))
      if d.late && !mine then
        upd fun s => s.modOp k fun o => { o with late := 1 }
        upd fun s => (slcHubs d n).foldl (fun s h => s.count (slcReg h (if L = 0 then 0x58 else 0x48)) 1) s
      forAll (List.range (d.units n)) fun u => do
        let o := ((← get).op k).getD (.begun k)
        if o.posts.any (·.ended) then pure ()
        else
          match ← slcValues k c d u (slcMembers d o) with
          | none => pure ()
          | some vs =>
            match ← slcSum k d u vs with
            | none => pure ()
            | some v =>
              if d.late && !mine then
                match slot with
                | some a => if 0 < L then
                    let (h, b) ← slcEncode d d.src u (d.stream + 4) 1 v
                    latePut k d d.src a u h b
                | none => pure ()
              else
                let late ← adds.mapM fun x => lateUnit k d x.1 x.2 u
                upd fun s => s.perf (slcReg (u % 4) 0x118) (late.length * v.count)
                upd fun s => s.addTerm k (ownTerm (c.global d.stages 0) 0 u (late.foldl (SlcVal.add d.redop) v))
      upd fun s => s.modOp k fun o => { o with added := (adds.map Prod.snd).sum }
      if d.late && !mine && decide (0 < L) then
        match slot with
        | some a =>
          lateWrite k.1 a (lateHdr k.2.2 2 (c.nOf d.stages 0) d.count)
          upd fun s => { s with lateFmt := spSet dNat s.lateFmt (lateFmtKey k (k.2.2 % (L + 1))) d.src }
        | none => pure ()

/-! ### The stages above -/

/-- The stage below stage `s` that an operation uses. -/
def slcBelow (d : SlcD) (s : Nat) : Nat :=
  if s = 3 then (if bit d.stages 2 then 2 else if bit d.stages 1 then 1 else 0)
  else if s = 2 then (if bit d.stages 1 then 1 else 0) else 0
/-- The highest stage that an operation uses. -/
def slcTop (d : SlcD) : Nat := if bit d.stages 3 then 3 else slcBelow d 3

/-- The data of terms that have been added dropped from the staging memory. -/
def slcUsed (k : OpKey) (u s b : Nat) : Dev Unit := upd fun st =>
  st.modOp k fun o => { o with terms := o.terms.map fun t =>
    if t.kind == 1 && t.unit == u && ((t.own && t.stage == b) || (!t.own && t.stage == s)) then { t with data := [] } else t }

/-- A partial sent on a stage: an fp32 value is encoded for the wire; one that is only passed on travels unchanged
(R402, R446). -/
def slcSendTerm (k : OpKey) (c : SlcComm) (d : SlcD) (u s : Nat) (h : SlcHop) (digest last : Nat) (x : SlcVal ⊕ SlcTerm) :
    Dev Unit := do
  let e : SlcSent := { kind := 1, stage := s, hop := h.hop % 256, unit := u, off := 0, dest := h.dest, acked := false }
  let src := c.global d.stages 0
  match x with
  | .inl v =>
    let (hd, b) ← slcEncode d d.src u (d.stream + s) h.enc v
    slcSend k c e last src v.contrib hd digest b
  | .inr t => slcSend k c e last src t.contrib t.hdr digest t.data

/-- A unit's step through stage `s` (R390, R403): once what this package needs is here, the partial goes on to the next
member, or stays as what the stage has made. -/
def slcStage (k : OpKey) (c : SlcComm) (d : SlcD) (pres : Nat → Bool) (digest last u s : Nat) : Dev Unit := do
  match (← get).op k with
  | none => pure ()
  | some o =>
    let n := c.nOf d.stages s
    let r := c.rankIn d.stages s
    let j := slcOwner c d u s
    let has := slcHas c d pres s
    let b := slcBelow d s
    let W := o.ownAt u b
    let plan := slcTermPlan c d pres u s
    let sent := match plan with
      | some h => o.isSent { kind := 1, stage := s, hop := h.hop % 256, unit := u, off := 0, dest := h.dest, acked := false }
      | none => false
    let here (q : Nat) : Option SlcTerm :=
      o.terms.find? fun t => t.kind == 1 && !t.own && t.unit == u && t.stage == s && c.rankOf d.stages s t.src == q
    let val (t : SlcTerm) : Nat × SlcVal := (t.src, termVal d.src t)
    let done (v : SlcVal) : Dev Unit := do
      upd fun st => st.addTerm k (ownTerm (c.global d.stages 0) s u v)
      slcUsed k u s b
    if !bit d.stages s || !slcServes c d u s || (o.ownAt u s).isSome || sent || (has r && W.isNone) then pure ()
    else match c.alg s with
      | 2 =>
        if r ≠ j then
          match plan, W with
          | some h, some w => do
            slcSendTerm k c d u s h digest last (.inl (termVal d.src w))
            slcUsed k u s b
          | _, _ => pure ()
        else if (List.range n).any fun q => q != r && has q && (here q).isNone then pure ()
        else
          let inOrder := (List.range n).filterMap fun q => if q = r then W else here q
          let came := o.terms.filter fun t => inOrder.contains t
          match ← slcSum k d u ((if d.arrival then came else inOrder).map val) with
          | some v => done v
          | none => pure ()
      | 1 =>
        let kids := [2 * r + 1, 2 * r + 2].filter (· < n)
        if kids.any fun q => treeHas has n 20 q && (here q).isNone then pure ()
        else
          let inOrder := W.toList ++ kids.filterMap here
          let came := o.terms.filter fun t => inOrder.contains t
          match ← slcSum k d u ((if d.arrival then came else inOrder).map val) with
          | none => pure ()
          | some v =>
            match plan with
            | some h => do
              slcSendTerm k c d u s h digest last (.inl v)
              slcUsed k u s b
            | none => if r = j then done v else pure ()
      | 3 =>
        let top := if r = j then Nat.log2 n else lowBit r j
        let mates := (List.range top).map fun i => (i, Nat.xor r (2 ^ i))
        if mates.any fun x => hdHas has n x.1 x.2 && (here x.2).isNone then pure ()
        else
          let acc := mates.foldl (fun (a : Option SlcVal) x =>
            match a, (here x.2).map (termVal d.src) with
            | some v, some y => some (if r < x.2 then v.add d.redop y else y.add d.redop v)
            | some v, none => some v
            | none, y => y) (W.map (termVal d.src))
          let adds := (mates.filter fun x => (here x.2).isSome).length - b2n W.isNone
          upd fun st => st.perf (slcReg (u % 4) 0x118) (adds * ((acc.map (·.count)).getD 0))
          match acc, plan with
          | some v, some h => do
            slcSendTerm k c d u s h digest last (.inl v)
            slcUsed k u s b
          | some v, none => if r = j then done v else pure ()
          | none, _ => pure ()
      | _ =>
        let p := slcDist c d s u (slcNext c d s u j) r
        let before := (List.range n).any fun q => decide (slcDist c d s u (slcNext c d s u j) q < p) && has q
        let prev := here (slcPrev c d s u r)
        if before && prev.isNone then pure ()
        else
          let both : Option (SlcVal ⊕ SlcTerm) := match prev, W with
            | some t, some w => some (.inl ((termVal d.src t).add d.redop (termVal d.src w)))
            | some t, none => some (.inr t)
            | none, some w => some (.inl (termVal d.src w))
            | none, none => none
          if prev.isSome && W.isSome then
            upd fun st => st.perf (slcReg (u % 4) 0x118) ((prev.map fun t => (termVal d.src t).count).getD 0)
          match both, plan with
          | some x, some h => do
            slcSendTerm k c d u s h digest last x
            slcUsed k u s b
          | some (.inl v), none => if r = j then done v else pure ()
          | some (.inr t), none => if r = j then done (termVal d.src t) else pure ()
          | none, _ => pure ()

/-- The result of a unit encoded where its reduction ends (R402, R405). -/
def slcFinal (k : OpKey) (c : SlcComm) (d : SlcD) (digest u : Nat) : Dev Unit := do
  match (← get).op k with
  | none => pure ()
  | some o =>
    match o.result u, o.ownAt u (slcTop d) with
    | none, some w => do
      let v := termVal d.src w
      let (h, b) ← slcEncode d d.dst u (d.stream + 4) 0 v
      upd fun s => s.addTerm k { kind := 2, stage := 4, hop := 0, src := c.global d.stages 0, unit := u, off := 0, contrib := v.contrib
                                 hdr := h, own := false, digest := digest, data := b }
      upd fun s => s.modOp k fun o => { o with terms := o.terms.map fun t =>
        if t.kind == 1 && t.own && t.unit == u then { t with data := [] } else t }
    | _, _ => pure ()

/-- A result, or gathered unit, sent on to the members of the stages that get it from this package. -/
def slcSpread (k : OpKey) (c : SlcComm) (d : SlcD) (digest last u : Nat) : Dev Unit := do
  match ((← get).op k).bind fun o => o.result u with
  | none => pure ()
  | some t =>
    forAll [3, 2, 1] fun s => forAll (slcResultPlan c d u s) fun h =>
      slcSend k c { kind := 2, stage := s, hop := h.hop % 256, unit := u, off := 0, dest := h.dest, acked := false } last
        (c.global d.stages 0) t.contrib t.hdr digest t.data

/-! ### Gathers -/

/-- A post's global rank (R384). -/
def slcRankOf (c : SlcComm) (p : SlcPost) : Nat :=
  let st := (slcD p.desc).stages
  c.global st (match p.who with
    | .tile t => c.tileIx st t
    | _ => 0)

/-- The three planes of a piece of a tensor that starts at element `e` (R401). -/
def slcReadPlanes (p : SlcPost) (d : SlcD) (e n : Nat) : Dev (Acc (List Byte)) := do
  let (a0, b0, c0) := planeSizes d.src d.outl e
  let (a, b, c) := planeSizes d.src d.outl n
  match ← slcRead p d.srcCis d.hint (d.srcBase + a0) a with
  | .error x => return .error x
  | .ok es =>
    match ← slcRead p d.srcCis d.hint (d.srcSide + b0) b with
    | .error x => return .error x
    | .ok ss =>
      match ← slcRead p d.srcCis d.hint (d.srcOutl + c0) c with
      | .error x => return .error x
      | .ok os => return .ok (es ++ ss ++ os)

/-- A member's own pieces taken as gathered units, once its post is accepted (R394). -/
def slcGather (k : OpKey) (c : SlcComm) (digest i : Nat) : Dev Unit := do
  match ((← get).op k).bind fun o => o.posts[i]? with
  | none => pure ()
  | some p =>
    let d := slcD p.desc
    let g := slcRankOf c p
    if p.taken || p.ended || !d.gathers || (d.opk == 3 && g != d.root) then pure ()
    else
      upd fun s => s.modPost k i fun p => { p with taken := true }
      forAll (List.range d.perMember) fun j => do
        let s ← get
        if ((s.op k).bind fun o => o.posts[i]?).all (·.ended) then pure ()
        else
          let u := (if d.opk = 2 then g * d.perMember else 0) + j
          match ← slcReadPlanes p d (j * unitSize) (d.unitLen u) with
          | .error e => slcFault k i e
          | .ok bs =>
            upd fun s => (s.perf (slcReg (u % 4) 0x108) (ceilDiv bs.length 64)).addTerm k
              { kind := 2, stage := 4, hop := 0, src := g, unit := u, off := 0, contrib := 0, hdr := 0, own := false
                digest := digest, data := bs }

/-! ### All-to-all -/

/-- The number of a row in the exchange: source, destination, and row of the segment. -/
def rowUnit (n cap s d i : Nat) : Nat := (s * n + d) * cap + i

/-- The rows of one packet, and the packets of one row (R408). -/
def SlcD.rowsPer (d : SlcD) : Nat := max 1 (min 64 (16384 / max 1 d.rowBytes))

/-- A row of a post's segment for a destination: its planes one after another, or zeros (R412). -/
def slcRow (p : SlcPost) (d : SlcD) (n g i valid : Nat) : Dev (Acc (List Byte)) := do
  let (a, b, c) := d.rowPlanes
  let r := g * d.cap + i
  if valid ≤ i then return .ok (List.replicate (a + b + c) 0)
  else
    let scale := d.srcBase + up64 (n * d.cap * a)
    match ← slcRead p d.srcCis d.hint (d.srcBase + r * a) a with
    | .error x => return .error x
    | .ok es =>
      match ← slcRead p d.srcCis d.hint (scale + r * b) b with
      | .error x => return .error x
      | .ok ss =>
        match ← slcRead p d.srcCis d.hint (d.srcOutl + r * c) c with
        | .error x => return .error x
        | .ok os => return .ok (es ++ ss ++ os)

/-- Rows in order; the first that cannot be read ends them. -/
def slcRows (p : SlcPost) (d : SlcD) (n g valid : Nat) : List Nat → Dev (Acc (List Byte))
  | [] => return .ok []
  | i :: is => do
    match ← slcRow p d n g i valid with
    | .error x => return .error x
    | .ok a =>
      match ← slcRows p d n g valid is with
      | .error x => return .error x
      | .ok b => return .ok (a ++ b)

/-- The packets of a segment of rows (R408): first row, byte offset within it, and payload. -/
def slcCut (d : SlcD) (u0 : Nat) (rows : List Byte) : List (Nat × Nat × List Byte) :=
  let R := max 1 d.rowBytes
  if R ≤ 16384 then
    (List.range (ceilDiv d.cap d.rowsPer)).map fun j => (u0 + j * d.rowsPer, 0, (rows.drop (j * d.rowsPer * R)).take (d.rowsPer * R))
  else
    (List.range d.cap).flatMap fun i => (List.range (ceilDiv R 16384)).map fun j =>
      (u0 + i, j * 16384, (((rows.drop (i * R)).take R).drop (j * 16384)).take 16384)

/-- A member's segments taken: those of this package are kept, the others sent on their way (R412). -/
def slcScatter (k : OpKey) (c : SlcComm) (digest i : Nat) : Dev Unit := do
  match ((← get).op k).bind fun o => o.posts[i]? with
  | none => pure ()
  | some p =>
    let d := slcD p.desc
    let n := c.total d.stages
    let g := slcRankOf c p
    if p.taken || p.ended || d.opk != 5 then pure ()
    else
      upd fun s => s.modPost k i fun p => { p with taken := true }
      match ← slcRead p d.srcCis d.hint d.srcSide (4 * n) with
      | .error e => slcFault k i e
      | .ok tab =>
        forAll (List.range n) fun q => do
          let s ← get
          if ((s.op k).bind fun o => o.posts[i]?).all (·.ended) then pure ()
          else
            let valid := dfld tab (4 * q) 4
            match ← slcRows p d n q valid (List.range d.cap) with
            | .error e => slcFault k i e
            | .ok rows =>
              let u0 := rowUnit n d.cap g q 0
              forAll (slcCut d u0 rows) fun x => do
                let first := if x.1 = u0 ∧ x.2.1 = 0 then valid else 0
                upd fun s => s.perf (slcReg (x.1 % 4) 0x108) (ceilDiv x.2.2.length 64)
                match (if q / max 1 (c.nOf d.stages 0) = c.pkg d.stages then none else slcRoute c d q) with
                | none =>
                  upd fun s => s.addTerm k { kind := 3, stage := 0, hop := 0, src := g, unit := x.1, off := x.2.1, contrib := first, hdr := 0
                                             own := false, digest := digest, data := x.2.2 }
                | some (st, dest) =>
                  slcSend k c { kind := 3, stage := st, hop := 0, unit := x.1, off := x.2.1, dest := dest, acked := false } 0 g first 0
                    digest x.2.2

/-- Rows of other packages sent on (R412). -/
def slcRelay (k : OpKey) (c : SlcComm) (d : SlcD) (digest : Nat) : Dev Unit := do
  let n := c.total d.stages
  match (← get).op k with
  | none => pure ()
  | some o =>
    forAll (o.terms.filter fun t => t.kind == 3 && t.data != []) fun t => do
      let q := t.unit / max 1 d.cap % max 1 n
      if q / max 1 (c.nOf d.stages 0) ≠ c.pkg d.stages then
        match slcRoute c d q with
        | none => pure ()
        | some (st, dest) => do
          slcSend k c { kind := 3, stage := st, hop := (if st = t.stage then t.hop + 1 else 0) % 256, unit := t.unit, off := t.off
                        dest := dest, acked := false } 0 (c.global d.stages 0) t.contrib 0 digest t.data
          upd fun s => s.modOp k fun o => { o with terms := o.terms.map fun x => if x == t then { x with data := [] } else x }

/-! ### Delivery -/

/-- A block's outlier record as the sluice delivers it: without an escalation (R411). -/
def plainRecord (r : Nat) : Nat := setFld (setFld r 47 47 0) 46 45 0

/-- Outlier records without escalations, and how many had one. -/
def dropEsc (bs : List Byte) : List Byte × Nat :=
  let rs := wordsOf 6 (bs.length / 6) bs
  (rs.flatMap fun r => leBytes 6 (plainRecord r), (rs.filter fun r => bit r 47).length)

/-- Dropped escalations counted (R411, R416). -/
def countEsc (k : OpKey) (i u n : Nat) : Dev Unit := do
  if n ≠ 0 then
    upd fun s => (s.count (slcReg (u % 4) 0x28) n).modPost k i fun p => { p with flags := Nat.lor p.flags 16 }

/-- Plane writes in order; the first that fails ends them. -/
def slcPuts (p : SlcPost) (d : SlcD) : List (Nat × List Byte) → Dev (Acc Unit)
  | [] => return .ok ()
  | (a, bs) :: rest => do
    match ← slcWrite p d.dstCis d.hint a bs with
    | .error c => return .error c
    | .ok () => slcPuts p d rest

/-- The values of a gathered unit widened to the destination format, with their events (R57, R58, R395). -/
def slcWiden (d : SlcD) (n : Nat) (data : List Byte) : List Byte × Exc :=
  let (a, _, _) := planeSizes d.src d.outl n
  let ws := (List.range (n / 32)).flatMap fun b =>
    (narrowVals d.src ((data.drop (b * blockBytes d.src)).take (blockBytes d.src)) (data.getD (a + b) 0).toNat).map
      (widenTo (scalarFmt d.dst))
  (ws.flatMap fun w => leBytes (scalarBytes d.dst) w.1, Exc.sum (ws.map Prod.snd))

/-- The events of widening counted in the posting context (R395). -/
def slcEvents (p : SlcPost) (ev : Exc) : Dev Unit :=
  match p.who with
  | .tile t => upd fun s => s.setTile t ((s.tile t).count p.ctx ev)
  | _ => pure ()

/-- Whether a post gets a unit (R394). -/
def slcWants (c : SlcComm) (p : SlcPost) (u : Nat) : Bool :=
  let d := slcD p.desc
  match d.target (c.total d.stages) u with
  | some g => slcRankOf c p == g
  | none => true

/-- One unit written to a post's destination in memory or the cistern (R394, R395, R405). -/
def slcPutUnit (k : OpKey) (c : SlcComm) (i : Nat) (p : SlcPost) (u : Nat) (t : SlcTerm) : Dev (Acc Unit) := do
  let d := slcD p.desc
  if d.reduces then
    let v := if d.opk = 1 then u % max 1 (d.perMember / max 1 (c.total d.stages)) else u
    if d.dst = 8 then slcPuts p d [(d.dstBase + 4 * unitSize * v, t.data)]
    else do
      upd fun s => s.modPost k i fun p =>
        { p with flags := Nat.lor p.flags (4 * b2n (hdrNonfin t.hdr) + 8 * b2n (hdrOvr t.hdr)) }
      slcPuts p d [(d.dstBase + 2 * unitSize * v, t.data ++ List.replicate (2 * unitSize - t.data.length) 0),
        (d.dstSide + 8 * v, leBytes 8 t.hdr)]
  else
    let n := d.unitLen u
    let e := (if d.opk = 2 then u / max 1 d.perMember * d.count else 0) + u % max 1 d.perMember * unitSize
    if d.dst = d.src then
      let (a0, b0, c0) := planeSizes d.dst d.outl e
      let (a, b, _) := planeSizes d.dst d.outl n
      let (os, esc) := dropEsc (t.data.drop (a + b))
      countEsc k i u esc
      slcPuts p d [(d.dstBase + a0, t.data.take a), (d.dstSide + b0, (t.data.drop a).take b), (d.dstOutl + c0, os)]
    else do
      let (bs, ev) := slcWiden d n t.data
      slcEvents p ev
      slcPuts p d [(d.dstBase + e * scalarBytes d.dst, bs)]

/-- The unit that holds element `e` of a delivered tensor, and the element's place in it. -/
def SlcD.unitAt (d : SlcD) (e : Nat) : Nat × Nat :=
  let r := e / max 1 d.count
  let x := e % max 1 d.count
  ((if d.opk = 2 then r * d.perMember else 0) + x / unitSize, x % unitSize)

/-- The image of ring slot `q` (R164, R271, R410): its bytes, the events of widening and the escalations dropped; `none`
while a unit of it is missing. -/
def slcSlotImage (d : SlcD) (o : SlcOp) (total q : Nat) : Option (List Byte × Exc × Nat) :=
  let P := max 1 (d.rows * d.cols)
  let g := d.ringOf
  let pk := packedOf g.fmt g.rows g.cols g.outl 0
  let E := blockBytes d.src
  let block (e : Nat) : Option (List Byte × Nat × Nat) :=
    let (u, x) := d.unitAt e
    (o.result u).map fun t =>
      let (a, b, _) := planeSizes d.src d.outl (d.unitLen u)
      ((t.data.drop (x / 32 * E)).take E, (t.data.getD (a + x / 32) 0).toNat,
        if d.outl then dfld t.data (a + b + 6 * (x / 32)) 6 else 0)
  if isBlockFmt d.dst then do
    let bs ← (List.range (P / 32)).mapM fun b =>
      let e := q * P + 32 * b
      if total ≤ e then some (List.replicate E (0 : Byte), 0, 0) else block e
    let elems := bs.flatMap fun b => b.1
    let scales := bs.map fun b => BitVec.ofNat 8 b.2.1
    let recs := if d.outl then bs.flatMap fun b => leBytes 6 (plainRecord b.2.2) else []
    let put (img : List Byte) (at' : Nat) (x : List Byte) : List Byte := putBytes img at' x
    let img := put (put (put (List.replicate pk.size 0) 0 elems) pk.scale scales) pk.outl recs
    return (img.take pk.size, Exc.zero, (bs.filter fun b => bit b.2.2 47).length)
  else do
    let w := scalarBytes d.dst
    let cells ← (List.range P).mapM fun x =>
      let e := q * P + x
      if total ≤ e then some (List.replicate w (0 : Byte), Exc.zero)
      else if d.src = d.dst then
        let (u, y) := d.unitAt e
        (o.result u).map fun t => ((t.data.drop (y * w)).take w, Exc.zero)
      else (block e).map fun b =>
        let o := widenTo (scalarFmt d.dst) ((narrowVals d.src b.1 b.2.1).getD (d.unitAt e).2 .nan)
        (leBytes w o.1, o.2)
    let row (r : Nat) : List Byte :=
      let bs := ((cells.drop (r * d.cols)).take d.cols).flatMap Prod.fst
      bs ++ List.replicate (packedRow d.dst d.cols - bs.length) 0
    return ((List.range d.rows).flatMap row, Exc.sum (cells.map Prod.snd), 0)

/-- A post's ring filled as far as its free slots and the units that are here go, each slot flagged when it is written
(R410). -/
def slcFill (k : OpKey) (i total : Nat) : Nat → Dev Unit
  | 0 => pure ()
  | fuel + 1 => do
    let s ← get
    match (s.op k).bind fun o => (o.posts[i]?).map fun p => (o, p) with
    | none => pure ()
    | some (o, p) =>
      let d := slcD p.desc
      match p.who with
      | .tile t =>
        let tl := s.tile t
        let sl := spGet dSlc tl.slc p.slot
        let P := max 1 (d.rows * d.cols)
        let idx := p.filled % max 1 sl.ring.sl.length
        if p.ended || decide (total ≤ p.filled * P) then pure ()
        else
          match slcSlotImage d o total p.filled with
          | none => pure ()
          | some (img, ev, esc) =>
            let u := (d.unitAt (p.filled * P)).1
            if sl.ring.sl.getD idx 9 ≠ 0 then
              upd fun s => s.modPost k i fun p => { p with since := some (p.since.getD s.time) }
            else
              match p.since with
              | some t0 => upd fun s => s.perf (slcReg (u % 4) 0x120) (2 * (s.time - t0))
              | none => pure ()
              let tl := tl.cisPut (p.cisOff + d.ringBase + idx * d.pitch) img
              let tl := { tl with slc := spMod dSlc tl.slc p.slot fun x =>
                { x with ring := { x.ring.setSlot idx 1 with pslot := (idx + 1) % max 1 x.ring.sl.length } } }
              upd fun s => (s.setTile t (tl.count p.ctx ev)).modPost k i fun p => { p with filled := p.filled + 1, since := none }
              countEsc k i u esc
              slcFill k i total fuel
      | _ => pure ()

/-- Rows of a packet written to the member that they are for (R413). -/
def slcPutRows (p : SlcPost) (d : SlcD) (n : Nat) (t : SlcTerm) : Dev (Acc Unit) := do
  let (a, b, c) := d.rowPlanes
  let R := max 1 (a + b + c)
  let src := t.unit / max 1 (n * d.cap)
  let i0 := t.unit % max 1 d.cap
  let scale := d.dstBase + up64 (n * d.cap * a)
  -- byte x of row i lies in one of its planes
  let place (i x : Nat) : Nat × Nat :=
    let r := src * d.cap + i
    if x < a then (d.dstBase + r * a + x, a - x)
    else if x < a + b then (scale + r * b + (x - a), a + b - x)
    else (d.dstOutl + r * c + (x - a - b), R - x)
  let rec go (i x : Nat) (bs : List Byte) : Nat → List (Nat × List Byte)
    | 0 => []
    | fuel + 1 =>
      if bs = [] then []
      else
        let (at', m) := place i x
        let m := min (max 1 m) bs.length
        let nx := x + m
        (at', bs.take m) :: go (if R ≤ nx then i + 1 else i) (if R ≤ nx then 0 else nx) (bs.drop m) fuel
  slcPuts p d (go i0 t.off t.data (4 * 64 + 4))

/-- What a post can take delivered: units, ring slots, rows (R394, R410, R413). A write that fails stops the member
(R418). -/
def slcDeliver (k : OpKey) (c : SlcComm) (i : Nat) : Dev Unit := do
  match (← get).op k with
  | none => pure ()
  | some o =>
    match o.posts[i]? with
    | none => pure ()
    | some p =>
      let d := slcD p.desc
      let n := c.total d.stages
      let g := slcRankOf c p
      if p.ended then pure ()
      else if d.opk = 5 then
        forAll (o.terms.filter fun t => t.kind == 3 && t.data != [] && t.unit / max 1 d.cap % max 1 n == g) fun t => do
          match ← slcPutRows p d n t with
          | .error e => slcFault k i e
          | .ok () => upd fun s => s.modOp k fun o =>
              { o with terms := o.terms.map fun x => if x == t then { x with data := [] } else x }
      else if d.ring then slcFill k i (if d.opk = 2 then n * d.count else d.count) (4096 * (o.terms.length + 1))
      else
        forAll (List.range (d.units n)) fun u => do
          let s ← get
          match (s.op k).bind fun o => (o.posts[i]?).map fun p => (o, p) with
          | none => pure ()
          | some (o, p) =>
            match o.result u with
            | none => pure ()
            | some t =>
              if p.ended || p.got.contains u || !slcWants c p u then pure ()
              else match ← slcPutUnit k c i p u t with
                | .error e => slcFault k i e
                | .ok () => upd fun s => s.modPost k i fun p => { p with got := p.got ++ [u] }

/-- The results that an absent package receives written to its hold slot (R446, R448, R449): the slot is full once every
unit is there, and empty again once each post has copied it out. -/
def slcHold (k : OpKey) (c : SlcComm) (d : SlcD) : Dev Unit := do
  let s ← get
  let L := s.staleMax k.1
  match s.op k, s.lateSlot k.1 k.2.1 d.lateZ (k.2.2 % (L + 1)) with
  | some o, some a =>
    let us := (List.range (d.units (c.total d.stages))).filter fun u => (o.result u).isSome
    let (st, state, _, _) ← lateRead k.1 a
    if us = [] ∨ o.late = 3 then pure ()
    else if state = 2 ∧ st ≠ k.2.2 then pure ()
    else
      forAll us fun u => match o.result u with
        | some t => latePut k d d.dst a u t.hdr t.data
        | none => pure ()
      let contrib := s.slcPresent k c d
      let full := decide (d.units (c.total d.stages) ≤ us.length)
      let out := o.posts != [] && slcJoined c d o && o.posts.all fun p =>
        p.ended || us.all fun u => p.got.contains u || !slcWants c p u
      lateWrite k.1 a (lateHdr k.2.2 (if full && out then 0 else if full then 2 else 1) contrib d.count)
      if full && out then upd fun s => s.modOp k fun o => { o with late := 3 }
  | _, _ => pure ()

/-! ### One round -/

/-- The descriptor by which a package serves an operation: its own posts', or, for an absent package that has not posted,
that of an earlier step of the same COMM and TAG with a free value for SEED. -/
def slcServed (k : OpKey) : Dev (Option (List Byte)) := do
  let s ← get
  match s.op k with
  | none => return none
  | some o =>
    if o.desc ≠ [] then return some o.desc
    else
      let decided := (s.late k).any (·.decided)
      match (s.ops.filter fun x => x.comm == k.1 && x.tag == k.2.1 && x.desc != []).getLast? with
      | some x =>
        if decided then do
          let (v, s) := s.fresh
          let desc := putBytes (putBytes x.desc 0x18 (leBytes 4 k.2.2)) 0x50 (leBytes 8 v.toNat)
          set (s.modOp k fun o => { o with desc := desc })
          return some desc
        else return none
      | none => return none

/-- Everything an operation can do now (R401 to R407, R446). -/
def slcStep (k : OpKey) : Dev Unit := do
  match (← get).comm k.1, ← slcServed k with
  | some c, some desc =>
    let d := slcD desc
    let digest := slcDigest desc
    if ((← get).op k).all (·.stopped) then pure ()
    else
      match (← get).present k d with
      | none => pure ()
      | some pres =>
        let posts := (((← get).op k).map fun o => o.posts.length).getD 0
        let n := c.total d.stages
        if d.reduces then
          slcForm k c d pres
          let plan := slcPlan c d pres
          forAll (List.range (d.units n)) fun u => do
            let last (s : Nat) : Nat :=
              b2n ((plan.filter fun e => e.stage == s).getLast?.any fun e => e.unit == u)
            forAll [1, 2, 3] fun s => slcStage k c d pres digest (last s) u s
            slcFinal k c d digest u
            slcSpread k c d digest (last (slcTop d)) u
        else if d.gathers then
          forAll (List.range posts) fun i => slcGather k c digest i
          forAll (List.range (d.units n)) fun u => slcSpread k c d digest (b2n (u + 1 == d.units n)) u
        else
          forAll (List.range posts) fun i => slcScatter k c digest i
          slcRelay k c d digest
        forAll (List.range posts) fun i => slcDeliver k c i
        if d.late && !pres (c.pkg d.stages) then slcHold k c d
  | _, _ => pure ()

/-- Whether a post has all it waits for (R414): its destination written, its ring's last slot flagged, and every packet of
this package sent and acknowledged. -/
def slcComplete (s : State) (k : OpKey) (i : Nat) : Bool :=
  match s.op k, s.comm k.1 with
  | some o, some c =>
    (match o.posts[i]? with
     | none => false
     | some p =>
       let d := slcD p.desc
       let n := c.total d.stages
       let written :=
         if d.opk = 5 then
           (List.range n).all fun g =>
             let u0 := rowUnit n d.cap g (slcRankOf c p) 0
             let have' := o.terms.filter fun t => t.kind == 3 && decide (u0 ≤ t.unit) && decide (t.unit < u0 + d.cap)
             have'.all (·.data == []) && decide ((slcCut d u0 []).length ≤ have'.length)
         else if d.ring then decide ((if d.opk = 2 then n * d.count else d.count) ≤ p.filled * (d.rows * d.cols))
         else (List.range (d.units n)).all fun u => p.got.contains u || !slcWants c p u
       let sent := match s.present k d with
         | some pres => (slcPlan c d pres).all o.isSent
         | none => false
       !p.ended && (p.taken || (d.opk == 3 && slcRankOf c p != d.root)) && written && (d.opk == 5 || sent) && o.allAcked)
  | _, _ => false

end Sys2Proof.Machine
end

