-- ==== Sys2Proof/Machine/Sluice.lean ====
section
/-! DEFINITION. The sluice commands: posts and waits (R392, R396 to R399, R415, R420), communicators (R386 to R389), packets
(R400, R409), completion, deadlines and cancelling (R414, R417, R419), and the late area's configuration and decisions
(R442 to R452). -/

namespace Sys2Proof.Machine

/-! ### Stopping -/

/-- The members to which this package would send (R400). -/
def slcMembersOf (c : SlcComm) (d : SlcD) : List (Nat × Nat) :=
  if d.opk = 5 then
    [1, 2, 3].flatMap fun s => if bit d.stages s then
      ((List.range (c.nOf d.stages s)).filter (· != c.rankIn d.stages s)).map fun q => (s, q) else []
  else ((slcPlan c d fun _ => true).map fun e => (e.stage, e.dest)).eraseDups

/-- An operation stops on a mismatch (R400): every post completes with SLC_MISMATCH, and the member that found the
difference sends notices. -/
def slcMismatch (k : OpKey) (rank : Nat) (tell : Bool) : Dev Unit := do
  let s ← get
  match s.op k, s.comm k.1 with
  | some o, some c =>
    if o.stopped then pure ()
    else
      upd fun s => s.modOp k fun o => { o with stopped := true }
      if tell && o.desc != [] then
        let d := slcD o.desc
        forAll (slcMembersOf c d) fun x => upd fun s =>
          s.toMember c x.1 x.2 0 2 0x30
            (slcPacket k 5 x.1 0 0 0 (c.global d.stages 0) 0 0 0 (slcDigest o.desc) 0 [])
      forAll (List.range o.posts.length) fun i => slcFinish k i 0xA05 rank
  | _, _ => pure ()

/-- Every incomplete post that a condition picks is cancelled (R419). -/
def slcCancel (f : SlcPost → Bool) : Dev Unit := do
  forAll (← get).ops fun o => forAll o.posts.zipIdx fun x =>
    if !x.1.ended && f x.1 then slcFinish o.key x.2 0xA08 0 else pure ()

/-! ### Posting -/

/-- Whether COUNT, ROOT and N obey R394, R395 and R413 in a communicator. -/
def slcCountOk (c : SlcComm) (d : SlcD) : Bool :=
  let n := c.total d.stages
  (d.opk != 1 || d.count % (n * unitSize) == 0) && ((d.opk != 3 && d.opk != 4) || decide (d.root < n)) &&
    (d.opk != 5 || decide (n ≤ 4096))

/-- Check 3 of R396: the communicator is in service and the partition's, the tile is a member, and every stage is there. -/
def State.slcCommOk (s : State) (part : Nat) (t : Option Nat) (d : SlcD) : Bool :=
  match s.comm d.comm with
  | none => false
  | some c =>
    s.commPart d.comm == part && (!bit d.stages 0 || t.any fun t => bit c.mask t) &&
      [1, 2, 3].all fun st => !bit d.stages st || c.alg st != 0xFF

/-- Check 2 of R396: every cistern range lies in an allocation of `cis` bytes. -/
def slcRanges (d : SlcD) (n cis : Nat) : Bool :=
  let len (f c : Nat) : Nat × Nat × Nat := planeSizes f d.outl c
  let src := if d.opk = 5 then len d.src (n * d.cap * d.cols) else len d.src d.count
  let dst := if d.opk = 5 then len d.dst (n * d.cap * d.cols)
    else len d.dst (if d.opk = 1 then d.count / max 1 n else if d.opk = 2 then n * d.count else d.count)
  let fits (a m : Nat) : Bool := decide (m = 0 ∨ a + m ≤ cis)
  let side (base sd ou : Nat) (p : Nat × Nat × Nat) (tab : Nat) : Bool :=
    if d.opk = 5 then fits base p.1 && (p.2.1 == 0 || fits (base + up64 p.1) p.2.1) && fits ou p.2.2 && fits sd tab
    else fits base p.1 && fits sd p.2.1 && fits ou p.2.2
  (!d.srcCis || side d.srcBase d.srcSide d.srcOutl src (4 * n)) &&
    (!d.dstCis || d.ring || side d.dstBase d.dstSide d.dstOutl dst (ceilDiv (4 * n) 64 * 64 + ceilDiv n 8)) &&
    (!d.ring || decide (d.ringBase + (d.slots - 1) * d.pitch + d.ringOf.tileSize ≤ cis))

/-- A post opened (R396, R442, R444): it joins the operation of its key, whose earlier life is over, and the operation goes
on. -/
def slcOpen (p : SlcPost) : Dev Unit := do
  let d := slcD p.desc
  let k : OpKey := (d.comm, d.tag, d.step)
  upd fun s => match s.op k with
    | some o => if o.posts ≠ [] ∧ o.posts.all (·.ended) then { s with ops := s.ops.filter fun x => x.key != k } else s
    | none => s
  upd fun s => s.modOp k fun o => { o with posts := o.posts ++ [p], desc := p.desc }
  let s ← get
  match s.op k, s.comm k.1 with
  | some o, some c =>
    match o.terms.find? fun t => !t.own && t.digest != slcDigest p.desc && t.kind != 4 with
    | some t => if o.late = 0 ∧ !d.late then slcMismatch k t.src true
    | none => pure ()
    if d.late && slcJoined c d o then lateSendJoin k c d p.jmode p.jstep
    slcStep k
  | _, _ => pure ()

/-- SLC (R392, R396, R397, R420). -/
def execSlc (t : Nat) (w : IWord) (x : W64) (s : State) : Res :=
  deviceInstr s t (.slc t w x) 0x70 w x fun s tl kx => inDev t (do
    let slot := slcPhys kx.k (fld w.imm.toNat 3 0)
    let bytes ← liftEx (cisRead tl kx.k (specCis (tl.ctx kx.c) (specA x)) 128)
    let d := slcD bytes
    let k : OpKey := (d.comm, d.tag, d.step)
    let s ← get
    let n := ((s.comm d.comm).map fun c => c.total d.stages).getD 1
    must (slcDescOk bytes && ((s.comm d.comm).all fun c => slcCountOk c d)) 0xA01
    must (slcRanges d n kx.k.cisBytes) 0x321
    must (s.slcCommOk (s.tilePart t) (some t) d) 0xA02
    must (!d.late || (s.comm d.comm).all fun c => s.lateOk c d) 0xB0A
    let run := tl.run
    let launch := (run.map (·.launch)).getD 0
    let mine := ((s.op k).map fun o => o.posts).getD []
    match mine.findIdx? fun p => p.who == .tile t && p.slot == slot && p.kept with
    | some i =>
      upd fun s => s.modPost k i fun p => { p with kept := false, launch := launch }
      return .done ((← get).tile t)
    | none =>
      must ((spGet dSlc tl.slc slot).state != 1) 0xA03
      must (!(mine.any fun p => p.who == .tile t && !p.ended)) 0xA04
      if 256 ≤ s.openOps ∧ (s.op k).all (!·.isOpen) then stall
      let was := spGet dSlc tl.slc slot
      let tl := { tl with slc := spSet dSlc tl.slc slot { was with state := 1, tag := d.tag, ring := d.ringOf } }
      upd fun s => s.setTile t tl
      slcOpen { who := .tile t, slot := slot, ctx := kx.c, sel := (run.map (·.sel)).getD 0, cisOff := kx.k.cisOff, launch := launch
                handle := kx.k.handle, jmode := (run.map (·.jmode)).getD 0, jstep := (run.map (·.jstep)).getD 0, seqno := 0
                desc := bytes, t0 := s.time, ended := false, status := 0, detail := 0, flags := 0, got := [], taken := false
                filled := 0, since := none, kept := false }
      return .done ((← get).tile t)) s tl

/-- SLCW (R392, R415): it waits while the slot's operation is open; a slot that has held none since the kernel was loaded
gives SLC_IDLE. -/
def execSlcw (t : Nat) (w : IWord) (x : W64) (s : State) : Res :=
  tileInstr s t (.slcw t w x) 0x71 w x fun tl kx =>
    let sl := fld w.imm.toNat 3 0
    let g := spGet dSlc tl.slc (slcPhys kx.k sl)
    if g.state = 1 then .wait tl []
    else
      let r := if g.state = 0 then slcRecord 0xA09 (slcPhys kx.k sl) 0 0 0 0 0 0 kx.now else g.record
      Act.of tl (cisWrite tl kx.k (specCis (tl.ctx kx.c) (specA x)) r)

/-- SLC_POST (R399): a failing check completes the command with its code; otherwise it completes with its operation. -/
def execSlcPost (q : Nat) (s : State) : Res := Dev.run' (do
  let cmd ← takeCmd q 0x30
  let v := (← get).queueView q 2
  let fin (code : Nat) : Dev Unit := completeWith q cmd.seqno 0x30 code 0
  if !(cmd.zero 1 7 && cmd.zero 0x10 48) || cmd.f 8 8 % 64 ≠ 0 then fin 0x311
  else
    match ← vaRead v 0 (cmd.f 8 8) 128 none with
    | .error _ => fin 0xA06
    | .ok bytes =>
      let d := slcD bytes
      let s ← get
      if !slcDescOk bytes || d.srcCis || d.dstCis || d.ring || bit d.stages 0 || !((s.comm d.comm).all fun c => slcCountOk c d) then
        fin 0xA01
      else if !s.slcCommOk (s.qPart q) none d then fin 0xA02
      else if d.late && !((s.comm d.comm).all fun c => s.lateOk c d) then fin 0xB0A
      else
        let k : OpKey := (d.comm, d.tag, d.step)
        let mine := ((s.op k).map fun o => o.posts).getD []
        if mine.any fun p => p.who == .queue q && !p.ended then fin 0xA04
        else
          if 256 ≤ s.openOps ∧ (s.op k).all (!·.isOpen) then stall
          slcOpen { who := .queue q, slot := 0xFF, ctx := 0, sel := v.sel, cisOff := 0, launch := 0, handle := 0, jmode := 0, jstep := 0
                    seqno := cmd.seqno, desc := bytes, t0 := s.time, ended := false, status := 0, detail := 0, flags := 0
                    got := [], taken := false, filled := 0, since := none, kept := false }) s

/-! ### Communicators -/

/-- ETH_PORTn_CFG. -/
def ethReg (n : Nat) : Nat := 0x60000 + 8 * n

/-- Whether a stage's record and member table obey R387 to R390 and R575 for a partition: `st` is the stage. -/
def State.stageOk (s : State) (part st : Nat) (g : SlcStage) : Bool :=
  let n := g.n
  (match g.alg with
   | 0 => decide (2 ≤ n ∧ n ≤ 4096)
   | 1 => decide (2 ≤ n ∧ n ≤ 65536)
   | 2 => decide (2 ≤ n ∧ n ≤ 64)
   | 3 => decide (2 ≤ n ∧ n ≤ 65536) && 2 ^ Nat.log2 n == n
   | _ => false) && decide (g.rank < n) &&
  (if st = 3 then
    decide (g.ports < 16) && s.lic 2 && ((List.range 4).all fun p => !bit g.ports p || s.rf (ethReg p) 62 60 == part)
   else (List.range 16).all fun p => !bit g.ports p || (s.leatThere p && s.rf (leatReg p 0) 62 60 == part)) &&
  (List.range n).all fun r =>
    let m := g.members.getD r 0
    r == g.rank ||
    (if st = 3 then
      let q := s.qp (fld m 23 0)
      decide (m < 2 ^ 26) && bit g.ports (fld m 25 24) && q.sq == 0xFFFF && q.rq == 0xFFFF && q.port == fld m 25 24 && q.state != 0
     else decide (m < 2 ^ 32) && Nat.lor (fld m 31 16) g.ports == g.ports)

/-- A communicator's record and member tables read (R386 to R388): `none` when a read fails or a reserved field is not 0. -/
def commRead (n rec' : Nat) : Dev (Option SlcComm) := do
  let v := (← get).commView n
  match ← vaRead v 0 rec' 128 none with
  | .error _ => return none
  | .ok b =>
    let stage (st : Nat) : Dev (Option SlcStage) := do
      let f (off k : Nat) : Nat := dfld b (0x20 * st + off) k
      let g : SlcStage := { alg := f 0 1, ports := f 2 2, n := f 4 4, rank := f 8 4, members := [] }
      if f 1 1 ≠ 0 ∨ f 0xC 4 ≠ 0 ∨ f 0x18 8 ≠ 0 then return none
      if g.alg = 0xFF then return some g
      if g.n = 0 ∨ 65536 < g.n ∨ f 0x10 8 % 64 ≠ 0 then return none
      match ← vaRead v 0 (f 0x10 8) (8 * g.n) none with
      | .error _ => return none
      | .ok t => return some { g with members := wordsOf 8 g.n t }
    if dfld b 8 8 ≠ 0 ∨ dfld b 16 8 ≠ 0 ∨ dfld b 24 8 ≠ 0 then return none
    match ← stage 1, ← stage 2, ← stage 3 with
    | some a, some b', some c => return some { mask := dfld b 0 8, stages := [a, b', c] }
    | _, _, _ => return none

/-- Whether a communicator passes R389 for a partition. -/
def State.commOk (s : State) (part : Nat) (c : SlcComm) : Bool :=
  let stages := [1, 2, 3].foldl (fun v st => if c.alg st = 0xFF then v else v + 2 ^ st) (b2n (c.mask != 0))
  decide (c.total stages ≤ 65536) && ((List.range 64).all fun t => !bit c.mask t || s.tilePart t == part) &&
    [1, 2, 3].all fun st => c.alg st == 0xFF || s.stageOk part st (c.stage st)

/-- Whether a sluice operation or sprinkle post on a communicator is open. -/
def State.commBusy (s : State) (n : Nat) : Bool :=
  (s.ops.any fun o => o.comm == n && o.isOpen) || s.spkOps.any fun o => o.comm == n && o.posts.any fun p => !p.wrote

/-- SLC_COMM_WRITE (R386, R389, R426). -/
def execSlcCommWrite (n v : Nat) (o : Origin) (s : State) : Res := Dev.run' (do
  let s ← get
  let off := commReg n
  let old := s.rn off
  let new := keepBits v (maskBits 63 54 + maskBits 47 6)
  let mine := o.isDrd || o.owns (if bit old 63 then fld old 62 60 else fld new 62 60)
  if n < 64 then
    if bit old 63 then
      regWrite o off v (mine && setFld new 63 63 0 == setFld old 63 63 0 && (bit new 63 || !s.commBusy n)) (putReg off new)
    else if bit new 63 && mine then do
      -- the record is read under the new PART and AS
      let c ← (do
        putReg off new
        commRead n (fld new 47 6 * 64))
      let part := fld new 62 60
      match c with
      | some c =>
        if (← get).commOk part c then
          regWrite o off v true do
            upd fun s => { s with comms := spSet (fun _ => { mask := 0, stages := [] }) s.comms n c
                                  ops := s.ops.filter fun x => x.comm != n
                                  lates := s.lates.filter fun x => x.comm != n
                                  spkOps := s.spkOps.filter fun x => x.comm != n
                                  spkEpoch := s.spkEpoch.filter fun e => e.1 / 8 % 64 != n }
        else do
          putReg off old
          regWrite o off v false (pure ())
          upd fun s => (List.range 4).foldl (fun s h => s.setF (slcReg h 0) 40 40 1) s
      | none => do
        putReg off old
        regWrite o off v false (pure ())
        upd fun s => (List.range 4).foldl (fun s h => s.setF (slcReg h 0) 40 40 1) s
    else regWrite o off v mine (putReg off new)) s

/-! ### Packets -/

/-- SLUICE_PACKET_RECEIVE (R400, R402, R408, R409): a packet off the wire. An acknowledgement ends what was sent; a notice
stops the operation; any other packet is accepted once, acknowledged, and taken up by the operation. It waits in its
link's buffers while the hub's staging memory has no room (R410, R430). -/
def execSluicePacketReceive (msg : List Byte) (s : State) : Res := Dev.run' (do
  let f := dfld msg
  let kind := f 0 1
  let stage := f 1 1
  let k : OpKey := (f 4 2, f 8 4, f 0xC 4)
  let unit := f 0x10 8
  let src := f 0x18 4
  let bytes := f 0x28 4
  let h := unit % 4
  let s ← get
  let full := decide (1 ≤ kind ∧ kind ≤ 3) && (s.comm k.1).isSome && decide (8 * 2 ^ 20 < s.staged h + bytes)
  if !full then upd fun s => s.leaTake 2 msg
  let s ← get
  match s.comm k.1 with
  | none => pure ()
  | some c =>
    let st := ((s.op k).bind fun o => if o.desc = [] then none else some (slcD o.desc).stages).getD (s.stagesOf c k.1 k.2.1)
    let from' := c.rankOf st stage src
    if kind = 4 then
      let hit (e : SlcSent) : Bool :=
        e.stage == stage && e.hop == f 2 1 && e.unit == unit && e.off == f 0x34 4 && e.dest == from'
      let ack (e : SlcSent) : SlcSent := if hit e then { e with acked := true } else e
      upd fun s => s.modOp k fun o => { o with sent := o.sent.map ack }
    else if kind = 5 then slcMismatch k src false
    else if kind = 0 ∨ 5 < kind then pure ()
    else if full then pure ()
    else do
      upd fun s => s.perf (slcReg h 0x108) (1 + ceilDiv bytes 64)
      let o := (s.op k).getD (.begun k)
      let dup := o.terms.any fun t => t.stage == stage && t.hop == f 2 1 && t.unit == unit && t.off == f 0x34 4 && t.src == src &&
        !t.own
      let me := c.global st 0
      let ack := slcPacket k 4 stage (f 2 1) 0 unit me 0 0 0 (f 0x2C 4) (f 0x34 4) []
      upd fun s => s.toMember c stage from' unit 2 0x30 ack
      if dup then
        upd fun s => s.count (slcReg h 0x18) 1
      else if o.posts ≠ [] ∧ slcDigest o.desc ≠ f 0x2C 4 then slcMismatch k src true
      else do
        upd fun s => s.addTerm k
          { kind := kind, stage := stage, hop := f 2 1, src := src, unit := unit, off := f 0x34 4, contrib := f 0x1C 4, hdr := f 0x20 8
            own := false, digest := f 0x2C 4, data := (msg.drop 64).take bytes }
        slcStep k) s

/-- The receive table of an ALL_TO_ALL (R413): its bytes, and the rows dropped at each source. -/
def slcTable (d : SlcD) (o : SlcOp) (n g : Nat) : List Byte × List Nat :=
  let valid (src : Nat) : Nat :=
    ((o.terms.find? fun t => t.kind == 3 && t.unit == rowUnit n d.cap src g 0 && t.off == 0).map (·.contrib)).getD 0
  let vs := (List.range n).map valid
  let head := vs.flatMap fun v => leBytes 4 (min v d.cap)
  let mask := (List.range (ceilDiv n 8)).map fun i => BitVec.ofNat 8
    ((List.range 8).foldl (fun m b => m + if d.cap < vs.getD (8 * i + b) 0 then 2 ^ b else 0) 0)
  (head ++ List.replicate (ceilDiv (4 * n) 64 * 64 - 4 * n) 0 ++ mask, vs.map (· - d.cap))

/-- SLC_OP_COMPLETE (R413, R414, R429): post `post` of the operation completes once nothing of it is left. -/
def execSlcOpComplete (comm tag step post : Nat) (s : State) : Res := Dev.run' (do
  let k : OpKey := (comm, tag, step)
  let s ← get
  if slcComplete s k post then
    match s.op k, s.comm comm with
    | some o, some c => (do
      match o.posts[post]? with
      | none => pure ()
      | some p =>
        let d := slcD p.desc
        let n := c.total d.stages
        if d.opk = 5 then
          let (tab, drops) := slcTable d o n (slcRankOf c p)
          if drops.any (· != 0) then
            upd fun s => (s.count (slcReg (post % 4) 0x20) drops.sum).modPost k post fun p => { p with flags := Nat.lor p.flags 2 }
          match ← slcWrite p d.dstCis d.hint d.dstSide tab with
          | .error e => slcFault k post e
          | .ok () => pure ()
        let s ← get
        forAll (if d.opk = 5 then [0, 1, 2, 3] else slcHubs d n) fun h => do
          let _ ← slcJournal k 3 h (leBytes 4 step ++ leBytes 4 (s.slcPresent k c d) ++ leBytes 4 o.added)
        slcFinish k post 0 0
        if d.late then slcStep k)
    | _, _ => pure ()) s

/-- SLC_DEADLINE_EXPIRY (R417): DEADLINE_US after its acceptance, an operation without LATE completes with SLC_TIMEOUT. -/
def execSlcDeadlineExpiry (comm tag step post : Nat) (s : State) : Res := Dev.run' (do
  let k : OpKey := (comm, tag, step)
  let s ← get
  match (s.op k).bind fun o => o.posts[post]? with
  | none => pure ()
  | some p =>
    let d := slcD p.desc
    if !p.ended && d.dead != 0 && !bit d.flags 5 && decide (p.t0 + 1000 * d.dead ≤ s.time) then slcFinish k post 0xA07 0) s

/-- SLUICE_SLOT_RECLAIM (R410): the sluice takes back a released slot of tile `t`'s ring, and goes on filling. -/
def execSluiceSlotReclaim (t slot i : Nat) (s : State) : Res := Dev.run' (do
  let s ← get
  let tl := s.tile t
  let g := (spGet dSlc tl.slc slot).ring
  if g.sl.getD i 0 = 2 then
    upd fun s => s.setTile t { tl with slc := spMod dSlc tl.slc slot fun x => { x with ring := x.ring.setSlot i 0 } }
    match s.ops.find? fun o => o.posts.any fun p => p.who == .tile t && p.slot == slot && !p.ended with
    | some o => slcStep o.key
    | none => pure ()) s

/-! ### Deadlines -/

/-- LATE_JOIN_RECEIVE (R444, R445): a join reaches the decider, or a leader that passes it on. -/
def execLateJoinReceive (msg : List Byte) (s : State) : Res := Dev.run' (do
  let f := dfld msg
  let k : OpKey := (f 4 2, f 0x20 4, f 0x24 4)
  upd fun s => s.leaTake 3 msg
  let s ← get
  match s.comm k.1 with
  | none => pure ()
  | some c =>
    let st := s.stagesOf c k.1 k.2.1
    let pkg := f 8 4
    if f 0 1 ≠ 0x13 then pure ()
    else match [1, 2, 3].find? fun l => bit st l && c.rankIn st l != 0 with
      | some l => upd fun s => s.spkTo c l 0 (msg.take 96)
      | none =>
        if (s.late k).any fun l => l.joins.contains pkg then upd fun s => s.count (slcReg (k.1 % 4) 0x30) 1
        else
          let p := s.commPart k.1
          lateJoin k pkg (f 0x28 4) (s.jrnMode p) (s.rf (jrnReg p 0x10) 31 0)
          slcStep k) s

/-- LATE_DECISION_DEADLINE (R444): the decider closes a step DEADLINE_US after its first join. -/
def execLateDecisionDeadline (comm tag step : Nat) (s : State) : Res := Dev.run' (do
  let k : OpKey := (comm, tag, step)
  match (← get).late k with
  | none => pure ()
  | some l =>
    if l.joins ≠ [] ∧ l.first + 1000 * l.limit ≤ (← get).time ∧ l.jmode ≠ 2 then
      lateClose k true
      slcStep k) s

/-- LATE_DECISION_RECEIVE (R445, R446): a part of a decision reaches the package, which passes it on to the stages below
and, once every part is there, goes on with the operation. -/
def execLateDecisionReceive (msg : List Byte) (s : State) : Res := Dev.run' (do
  let f := dfld msg
  let k : OpKey := (f 4 2, f 0x20 4, f 0x24 4)
  let part := f 0x28 2
  upd fun s => s.leaTake 3 msg
  let s ← get
  match s.comm k.1 with
  | none => pure ()
  | some c =>
    let st := s.stagesOf c k.1 k.2.1
    if f 0 1 ≠ 0x14 then pure ()
    else if (s.late k).any fun l => l.decided || l.parts.contains part then upd fun s => s.count (slcReg (k.1 % 4) 0x30) 1
    else
      let here := (flagList ((msg.drop 0x30).take 48)).map (· + 384 * part)
      upd fun s => s.modLate k fun l => { l with parts := l.parts ++ [part], flags := l.flags ++ here }
      -- a leader of the stages below sends the part on
      let top := ([1, 2, 3].find? fun l => bit st l && c.rankIn st l != 0).getD 4
      forAll ([3, 2, 1].filter fun l => decide (l < top) && bit st l) fun l =>
        forAll ((List.range (c.nOf st l)).filter (· != c.rankIn st l)) fun q => upd fun s => s.spkTo c l q (msg.take 96)
      let s ← get
      match s.late k with
      | some l =>
        if ceilDiv (c.packages st) 384 ≤ l.parts.length then
          lateDecided k l.flags
          slcStep k
      | none => pure ()) s

/-- SLC_LATE_CFG_WRITE (R386, R451): setting EN reads the late table. -/
def execSlcLateCfgWrite (n v : Nat) (o : Origin) (s : State) : Res := Dev.run' (do
  let s ← get
  let off := lateReg n
  let old := s.rn off
  let new := keepBits v (maskBits 63 60 + maskBits 57 6)
  let mine := o.isDrd || o.owns (s.commPart n)
  let busy := s.ops.any fun x => x.comm == n && x.isOpen && (slcD x.desc).late
  let ok := mine && decide (fld new 62 60 ≤ 4) &&
    (!bit old 63 || (setFld new 63 63 0 == setFld old 63 63 0 && (bit new 63 || !busy)))
  if n < 64 then
    if ok && bit new 63 && !bit old 63 then
      let m := fld new 57 48 + 1
      match ← vaRead (s.commView n) 0 (fld new 47 6 * 64) (32 * m) none with
      | .error _ => regWrite o off v false (pure ())
      | .ok b =>
        let es := (List.range m).map fun i => (dfld b (32 * i) 4, dfld b (32 * i + 8) 8, dfld b (32 * i + 16) 8)
        regWrite o off v true do
          putReg off new
          upd fun s => { s with lateTab := spSet (fun _ => []) s.lateTab n es }
    else regWrite o off v ok (putReg off new)) s

/-! ### LBK -/

/-- The slots of a late area of a COMM and TAG that are full, as a mask from slot `from'` on. -/
def lateMask (k : OpKey) (z from' L : Nat) : Dev Nat := do
  let bs ← (List.range (L + 1)).mapM fun i => do
    match (← get).lateSlot k.1 k.2.1 z (from' + i) with
    | none => return 0
    | some a =>
      let (_, st, _, _) ← lateRead k.1 a
      return if st = 2 then 2 ^ i else 0
  return bs.sum

/-- The size of a late slot of a COMM and TAG, from the last descriptor seen with them. -/
def State.lateZof (s : State) (comm tag : Nat) : Nat :=
  match (s.ops.filter fun o => o.comm == comm && o.tag == tag && o.desc != []).getLast? with
  | some o => (slcD o.desc).lateZ
  | none => 65536

/-- LBK FN 0 (R437, R452, R477). -/
def execLbkQuery (t : Nat) (w : IWord) (x : W64) (s : State) : Res :=
  fnInstr 0 w <| deviceInstr s t (.lbkQuery t w x) 0x79 w x fun s tl kx => inDev t (do
    let k : OpKey := ((tl.s kx w.sa).toNat % 65536, (tl.s kx w.sb).toNat % 2 ^ 32, (tl.s kx w.sc).toNat % 2 ^ 32)
    let s ← get
    let L := s.staleMax k.1
    let z := s.lateZof k.1 k.2.1
    let c := s.comm k.1
    let d := ((s.op k).map fun o => slcD o.desc).getD (slcD [])
    let bucket ← lateMask k z (L + 1) L
    let hold ← lateMask k z 0 L
    let l := s.late k
    let state := match l with
      | some l => if l.decided then 2 else 1
      | none => if (s.op k).any fun o => o.posts != [] then 1 else 0
    let me := (c.map fun c => c.pkg d.stages).getD 0
    let self := if l.any (·.decided) then b2n !(l.any fun l => l.flags.contains me) else 0
    let live := leBytes 1 state ++ leBytes 1 self ++ leBytes 2 0 ++
      leBytes 4 ((c.map fun c => if state = 0 then 0 else s.slcPresent k c d).getD 0) ++
      leBytes 4 ((c.map fun c => if state = 0 then 0 else c.total d.stages).getD 0) ++
      leBytes 4 (((s.op k).map (·.added)).getD 0) ++ leBytes 8 ((l.map (·.when_)).getD 0) ++ leBytes 4 bucket ++ leBytes 4 hold ++
      List.replicate 32 0
    let got ← tileJournal t 0x0C k.2.1 live
    let tl ← liftEx (cisWrite ((← get).tile t) kx.k (specCis (tl.ctx kx.c) (specA x)) got)
    return .done tl) s tl

/-- LBK FN 1 (R437, R452). -/
def execLbkFlush (t : Nat) (w : IWord) (x : W64) (s : State) : Res :=
  fnInstr 1 w <| deviceInstr s t (.lbkFlush t w x) 0x79 w x fun s tl kx => inDev t (do
    let k : OpKey := ((tl.s kx w.sa).toNat % 65536, (tl.s kx w.sb).toNat % 2 ^ 32, 0)
    let s ← get
    let L := s.staleMax k.1
    let z := s.lateZof k.1 k.2.1
    forAll (List.range (L + 1)) fun i => do
      match (← get).lateSlot k.1 k.2.1 z (L + 1 + i) with
      | none => pure ()
      | some a =>
        let (st, state, _, count) ← lateRead k.1 a
        if state = 2 then upd fun s => s.count (slcReg (k.1 % 4) 0x58) 1
        lateWrite k.1 a (lateHdr st 0 0 count)
    return .done ((← get).tile t).effect) s tl

/-- JRN (R437, R477, R478). -/
def execJrn (t : Nat) (w : IWord) (x : W64) (s : State) : Res :=
  deviceInstr s t (.jrn t w x) 0x7A w x fun s tl kx => inDev t (do
    let v := tl.s kx w.sa
    let got ← tileJournal t 0x0B 0 (leBytes 8 v.toNat)
    return .done (((← get).tile t).putS kx w.dst (BitVec.ofNat 64 (leNat got)))) s tl

end Sys2Proof.Machine
end

