-- ==== Sys2Proof/Machine/Publish.lean ====
section
/-! DEFINITION. The publish engine (R454 to R460), the snapshot engines (R462 to R471) and the registers of the replay
journal (R472). -/

namespace Sys2Proof.Machine

/-! ### Publish -/

/-- A read of a command's table by DPA, for its queue's partition: its bytes, or `none` after a denial. -/
def queueTable (q a n : Nat) : Dev (Option (List Byte)) := do
  let s ← get
  let p := s.qPart q
  match (pieces a n).findSome? fun x => (s.headgate (.queue q) p false x.1).map fun c => (c, x.1) with
  | some (cause, bad) => do
    upd fun s => s.deny (.queue q) p cause bad bad
    return none
  | none => do
    let (bs, _) ← dpaRead p 0 a n
    return some bs

/-- Entries of 16 bytes of a table. -/
def entries16 (bs : List Byte) (n : Nat) : List (List Byte) := (List.range n).map fun i => (bs.drop (16 * i)).take 16

/-- A bit of HGT_ASn_PUBRUN or PUBPEND. -/
def State.setPubBit (s : State) (off n b : Nat) (on : Bool) : State := s.setF (asReg n off) b b (b2n on)

/-- Steps 1 and 2 of R456: the mirrors are made equal, and the selector flips, unless the address space is still busy with
a flip or an invalidation. -/
def pubFlip (u : Pub) : Dev Unit := do
  let s ← get
  if s.asBusy u.as then pure ()
  else
    let v := setFld (s.rn (asReg u.as 0x10)) u.sel u.sel u.value
    logWrite Origin.engine 1 (asReg u.as 0x10) v
    putReg (asReg u.as 0x10) v
    upd fun s => s.setF (asReg u.as 0x20) 1 1 1
    upd fun s => { s with pubs := s.pubs.map fun w => if w = u then { w with flipped := true } else w }

/-- A publish starts (R456, R457). -/
def pubStart (u : Pub) : Dev Unit := do
  let p := (← get).qPart u.queue
  forAll u.extents fun e => forAll (frameRun e.1 e.2) (syncMirror p)
  let u := { u with running := true }
  upd fun s => ({ s with pubs := s.pubs ++ [u] }).setPubBit 0x28 u.as u.sel true
  pubFlip u

/-- The extents of a PUBLISH, or the code that refuses it (R455). -/
def pubExtents (q : Nat) (c : QCmd) : Dev (Except Nat (List (Nat × Nat))) := do
  let n := c.f 4 4
  let fields := decide (c.f 1 1 < 64) && decide (c.f 2 1 < 64) && decide (c.f 3 1 ≤ 1) && decide (n ≤ 256) &&
    c.f 0x10 8 % 64 == 0 && c.zero 0x18 40
  if !fields then return .error 0xB08
  match ← queueTable q (c.f 0x10 8) (16 * n) with
  | none => return .error 0xB09
  | some bs =>
    let es := entries16 bs n
    let ext := es.map fun e => (leNat (e.take 8), leNat ((e.drop 8).take 4))
    let frames := ext.flatMap fun e => frameRun e.1 e.2
    let s ← get
    if es.any (fun e => leNat (e.drop 12) != 0) || frames.any (fun a => a % 65536 != 0 || !s.dpaOk a || !(s.frame (frameOf a)).mirror)
    then return .error 0xB08
    else if !s.asOk (c.f 1 1) (s.qPart q) || frames.any (fun a => !s.granted (s.qPart q) a) then return .error 0xB09
    else return .ok ext

/-- PUBLISH (R455, R457): checked, and started, left pending, or taking the place of a pending one. -/
def execPublish (q : Nat) (s : State) : Res := Dev.run' (do
  let c ← takeCmd q 0x40
  match ← pubExtents q c with
  | .error code => completeWith q c.seqno 0x40 code 0
  | .ok ext => do
    let u : Pub :=
      { as := c.f 1 1, sel := c.f 2 1, value := c.f 3 1, version := c.f 8 8, queue := q, seqno := c.seqno, extents := ext
        running := false, flipped := false }
    let same := (← get).pubs.filter fun w => w.as == u.as && w.sel == u.sel
    match same.find? fun w => !w.running with
    | some w => do
      upd fun s => { s with pubs := s.pubs.map fun x => if x = w then u else x }
      completeWith w.queue w.seqno 0x40 0xB02 (u.version % 2 ^ 32)
    | none =>
      if same = [] then pubStart u
      else upd fun s => ({ s with pubs := s.pubs ++ [u] }).setPubBit 0x30 u.as u.sel true) s

/-- PUBLISH_COMPLETE (R456, steps 3 and 4): the running publish of selector `b` of address space `n` completes once VBUSY
is clear, and a pending one starts. One that found the address space busy flips first. -/
def execPublishComplete (n b : Nat) (s : State) : Res := Dev.run' (do
  match (← get).pubs.find? fun w => w.as == n && w.sel == b && w.running with
  | none => pure ()
  | some u =>
    if !u.flipped then pubFlip u
    else if (← get).rb (asReg n 0x20) 1 then pure ()
    else
      putReg (asReg n (0x200 + 8 * b)) u.version
      upd fun s => ({ s with pubs := s.pubs.erase u }).setPubBit 0x28 n b false
      completeWith u.queue u.seqno 0x40 0 0
      match (← get).pubs.find? fun w => w.as == n && w.sel == b with
      | none => pure ()
      | some w => do
        upd fun s => ({ s with pubs := s.pubs.erase w }).setPubBit 0x30 n b false
        pubStart w) s

/-! ### Snapshots -/

/-- A hub's MIG_SNAP_STATUSn. -/
def snapReg (h p : Nat) : Nat := hubReg h (0x30000 + 8 * p)

/-- The snapshot or restore of a partition. -/
def State.snapOf (s : State) (p : Nat) : Option Snap := s.snaps.find? fun n => n.part == p

/-- A snapshot replaced. -/
def State.setSnap (s : State) (n : Snap) : State :=
  { s with snaps := s.snaps.map fun m => if m.part = n.part then n else m }

/-- MIG_SNAP_STATUSn.STATE of every hub. -/
def State.snapState (s : State) (p v : Nat) : State := (List.range 4).foldl (fun s h => s.setF (snapReg h p) 63 62 v) s

/-- The sectors of a mask. -/
def sectorsIn (m : Nat) : Nat := popcount 16 m

/-- MIG_SNAP_STATUSn at the start: LEFT counts the sectors of each hub's frames, DONE is 0 (R470). -/
def State.snapBegin (s : State) (n : Snap) : State :=
  (List.range 4).foldl (fun s h =>
    let left := n.todo.foldl (fun k e => if s.hubOf (e.1 * 65536) = h then k + sectorsIn e.2 else k) 0
    s.setReg (snapReg h n.part) (BitVec.ofNat 64 (setFld (setFld 0 63 62 (if n.restore then 2 else 1)) 59 30 left))) s

/-- A request of a snapshot to its peer (R463, R466, R499). -/
def snapSend (n : Snap) (va : Nat) (write : Bool) (len : Nat) (data : List Byte) : Dev Unit := do
  if ← sendPeer (.snap n.part n.num) n.part n.ports n.peer va 0 write len data then pure ()
  else upd fun s => match s.snapOf n.part with
    | some m => s.setSnap { m with err := 0xB05 }
    | none => s

/-- The 64-byte image header (R466). -/
def snapHeader (s : State) (n : Snap) (st : Nat) : List Byte :=
  leBytes 4 0x50414E53 ++ leBytes 4 n.id ++ leBytes 4 n.step ++ leBytes 1 st ++ List.replicate 3 0 ++ leBytes 16 s.uid ++
    leBytes 8 (if st = 2 then n.acked else 0) ++ leBytes 8 (if st = 2 then s.time else 0) ++ leBytes 4 n.set.length ++
    List.replicate 12 0

/-- The table of a set read and checked (R463): its frames with their image frames, or a code. -/
def snapSet (q : Nat) (c : QCmd) (restore : Bool) : Dev (Except Nat (List (Nat × Nat))) := do
  let n := c.f 0x10 4
  let flags := c.f 1 1
  let fields := decide (flags < 4) && (!restore || (!bit flags 0 && c.f 0x20 8 == 0)) && c.zero 6 2 && c.f 8 8 % 64 == 0 &&
    decide (1 ≤ n) && decide (n ≤ 65536) && c.f 0x18 8 % 65536 == 0 && decide (c.f 0x18 8 < 2 ^ 48) && c.f 0x20 8 % 64 == 0 &&
    c.f 0x28 8 % 64 == 0 && c.zero 0x34 12
  if !fields then return .error 0xB03
  match ← queueTable q (c.f 8 8) (16 * n) with
  | none => return .error 0xB04
  | some bs =>
    let es := (entries16 bs n).map fun e => (leNat (e.take 8), leNat ((e.drop 8).take 4), leNat (e.drop 12))
    let s ← get
    let frames := es.flatMap fun e => frameRun e.1 e.2.1
    if es.any (fun e => e.1 % 65536 != 0 || e.2.1 == 0 || e.2.2 == 0) || frames.any (fun a => !s.dpaOk a) then
      return .error 0xB03
    else if frames.any (fun a => !s.granted (s.qPart q) a) ||
        (List.range 16).any (fun n => bit (c.f 2 2) n && !(s.leatThere n && s.rf (leatReg n 0) 62 60 == s.qPart q)) then
      return .error 0xB04
    else if (s.snapOf (s.qPart q)).isSome then return .error 0xB01
    else return .ok (es.flatMap fun e => (List.range e.2.1).map fun i => (s.scanFrame (frameOf e.1 + i), e.2.2 + i))

/-- The sector map at MAP_IN, a mask per frame of the set; `none` after a denial. -/
def snapMapIn (q : Nat) (c : QCmd) (n : Nat) : Dev (Option (List Nat)) := do
  if !bit (c.f 1 1) 1 ∨ c.f 0x28 8 = 0 then return some []
  match ← queueTable q (c.f 0x28 8) (2 * n) with
  | none => return none
  | some bs => return some ((List.range n).map fun i => leNat ((bs.drop (2 * i)).take 2))

/-- What SNAP_START and SNAP_RESTORE have in common: the checks of R463, and the snapshot they describe with the sectors
that `pick` gives each frame from its state and the map. -/
def snapBuild (q type : Nat) (restore : Bool) (pick : QCmd → Frame → Option Nat → Nat) :
    Dev (Option (QCmd × Snap)) := do
  let c ← takeCmd q type
  match ← snapSet q c restore with
  | .error code => do
    completeWith q c.seqno type code 0
    return none
  | .ok set =>
    match ← snapMapIn q c set.length with
    | none => do
      completeWith q c.seqno type 0xB04 0
      return none
    | some map =>
      let s ← get
      let cut := (List.range set.length).foldl (fun (m : Sparse Nat) i =>
        let f := (set.getD i (0, 0)).1
        spMod dNat m f fun b => Nat.lor b (pick c (s.frame f) (map[i]?))) []
      upd fun s => { s with nextId := s.nextId + 1 }
      return some (c,
        { part := s.qPart q, num := s.nextId, queue := q, seqno := c.seqno, restore := restore, ports := c.f 2 2, peer := c.f 4 2
          id := c.f 0x14 4, step := c.f 0x30 4, image := c.f 0x18 8, mapOut := c.f 0x20 8, set := set, begun := !restore
          cut := cut, todo := cut, flying := [], acked := 0, err := 0 })

/-- SNAP_START (R462 to R466): the cut. -/
def execSnapStart (q : Nat) (s : State) : Res := Dev.run' (do
  match ← snapBuild q 0x48 false fun c f m => if bit (c.f 1 1) 0 then 0xFFFF else Nat.lor f.dirty (m.getD 0) with
  | none => pure ()
  | some (c, n) => do
    upd fun s => n.cut.foldl (fun s e =>
      let f := s.frame e.1
      s.setFrame e.1 { f with dirty := f.dirty - Nat.land f.dirty e.2 }) s
    upd fun s => { s with snaps := s.snaps ++ [n] }.snapBegin n
    snapSend n n.image true 64 (snapHeader (← get) n 1)
    completeWith q c.seqno 0x48 0 n.id) s

/-- SNAP_RESTORE (R469): checked, and the image header requested. -/
def execSnapRestore (q : Nat) (s : State) : Res := Dev.run' (do
  match ← snapBuild q 0x4B true fun c _ m => if bit (c.f 1 1) 1 then m.getD 0 else 0xFFFF with
  | none => pure ()
  | some (_, n) => do
    upd fun s => { s with snaps := s.snaps ++ [n] }.snapBegin n
    snapSend n n.image false 64 []) s

/-- The peer address of a sector of a snapshot's frame. -/
def Snap.sectorAt (n : Snap) (img k : Nat) : Nat := n.image + 65536 * img + 4096 * k

/-- The frame and sector at a peer address of a snapshot's image. -/
def Snap.sectorOf (n : Snap) (va : Nat) : Option (Nat × Nat) :=
  (n.set.find? fun e => n.image / 65536 + e.2 == va / 65536).map fun e => (e.1, va % 65536 / 4096)

/-- The sectors of a hub that a snapshot holds in its staging memory. -/
def State.snapStaged (s : State) (n : Snap) (h : Nat) : Nat :=
  (n.flying.filter fun va => match n.sectorOf va with
    | some (f, _) => s.hubOf (f * 65536) == h
    | none => false).length

/-- Bytes of an engine's read with free values where they are poisoned. -/
def freeBytes (n : Nat) : Dev (List Byte) := do
  if n = 0 then return []
  let v ← freshBelow (2 ^ 64)
  return (List.range n).map fun i => BitVec.ofNat 8 (Config.freeValue 0x1001 (v + i)).toNat

/-- SNAP_SECTOR_SEND (R465, R466, R469): sector `k` of frame `f` of a partition's set is read into the staging memory and
sent, and the writes that waited for it go on; a restore requests it from the image. -/
def execSnapSectorSend (p f k : Nat) (s : State) : Res := Dev.run' (do
  let s ← get
  match s.snapOf p with
  | none => pure ()
  | some n =>
    match n.set.find? fun e => e.1 == f with
    | none => pure ()
    | some (f, img) =>
      if !n.begun || n.err != 0 || 16 ≤ k || !bit (spGet dNat n.todo f) k || 4096 ≤ s.snapStaged n (s.hubOf (f * 65536)) then pure ()
      else
        let va := n.sectorAt img k
        upd fun s => s.setSnap { n with todo := spMod dNat n.todo f fun m => setFld m k k 0, flying := n.flying ++ [va] }
        if n.restore then snapSend n va false 4096 []
        else
          let rs ← (unitsOf (f * 65536 + 4096 * k) 4096).mapM fun a => do
            let (bs, bad) ← engineRead a
            if bad then freeBytes 64 else pure bs
          engineCharge p (f * 65536) 64
          snapSend n va true 4096 rs.flatten
          releaseWaits) s

/-- A snapshot or restore ends with a status (R466, R467, R469): its command or the SNAP_WAITs that wait get their
records. After a failure the sectors that belonged to it are DIRTY again. -/
def snapFinish (n : Snap) (code : Nat) : Dev Unit := do
  if code ≠ 0 ∧ !n.restore then
    upd fun s => n.cut.foldl (fun s e => s.setFrame e.1 { s.frame e.1 with dirty := Nat.lor (s.frame e.1).dirty e.2 }) s
  upd fun s => ({ s with snaps := s.snaps.filter fun m => m.part != n.part }).snapState n.part 0
  if n.restore then completeWith n.queue n.seqno 0x4B code 0
  let ws := (← get).snapWaits.filter fun w => w.1 == n.part
  upd fun s => { s with snapWaits := s.snapWaits.filter fun w => w.1 != n.part
                        snapEnd := spSet dNat s.snapEnd n.part (if ws = [] then code + 1 else 0) }
  forAll ws fun w => completeWith w.2.1 w.2.2 0x49 code 0
  releaseWaits

/-- The map of the sectors sent, written to MAP_OUT (R463, R466). -/
def snapMapOut (n : Snap) : Dev Unit := do
  let bytes := n.set.flatMap fun e => leBytes 2 (spGet dNat n.cut e.1)
  let s ← get
  if n.mapOut ≠ 0 then
    match (pieces n.mapOut bytes.length).findSome? fun x => (s.headgate (.snap n.part n.num) n.part true x.1).map fun c => (c, x.1) with
    | some (cause, a) => upd fun s => s.deny (.snap n.part n.num) n.part cause a a
    | none => dpaWrite n.part 0 n.mapOut bytes

/-- SNAP_COMPLETE (R466, R467): the snapshot or restore of a partition that has nothing left, or has failed, ends. -/
def execSnapComplete (p : Nat) (s : State) : Res := Dev.run' (do
  match (← get).snapOf p with
  | none => pure ()
  | some n =>
    if n.err ≠ 0 then snapFinish n n.err
    else if !n.begun || n.todo != [] || n.flying != [] then pure ()
    else if n.restore then snapFinish n 0
    else do
      snapMapOut n
      snapSend n n.image true 64 (snapHeader (← get) n 2)
      let n := ((← get).snapOf p).getD n
      snapFinish n n.err) s

/-- The peer's answer to a request of a snapshot (R466, R467, R469, R501). -/
def snapAnswer (p num va : Nat) (ok : Bool) (data : List Byte) : Dev Unit := do
  match (← get).snapOf p with
  | none => pure ()
  | some n =>
    if n.num ≠ num then pure ()
    else if !ok then upd fun s => (s.setSnap { n with err := if n.err = 0 then 0xB05 else n.err }).snapState p 3
    else if va = n.image then
      if n.restore && !n.begun then
        if leNat (data.take 4) = 0x50414E53 ∧ leNat ((data.drop 4).take 4) = n.id ∧ leNat ((data.drop 0xC).take 1) = 2 then
          upd fun s => s.setSnap { n with begun := true }
        else snapFinish n 0xB0C
    else
      match n.sectorOf va with
      | none => pure ()
      | some (f, k) => do
        if n.restore then dpaWrite p 0 (f * 65536 + 4096 * k) (data.take 4096)
        upd fun s =>
          let m := { n with flying := n.flying.erase va, acked := n.acked + 1 }
          let h := s.hubOf (f * 65536)
          let r := snapReg h p
          let s := (s.setSnap m).setReg r (BitVec.ofNat 64
            (setFld (setFld (s.rn r) 59 30 (s.rf r 59 30 - 1)) 29 0 (s.rf r 29 0 + 1)))
          let s := s.perf (hubReg h 0x30120) 1
          if m.todo = [] ∧ m.flying = [] then s.snapState p 3 else s

/-- SNAP_WAIT (R462). -/
def execSnapWait (q : Nat) (s : State) : Res := Dev.run' (do
  let c ← takeCmd q 0x49
  let s ← get
  let p := s.qPart q
  let e := spGet dNat s.snapEnd p
  if !c.zero 1 63 then completeWith q c.seqno 0x49 0xB03 0
  else if (s.snapOf p).isSome then upd fun s => { s with snapWaits := s.snapWaits ++ [(p, q, c.seqno)] }
  else if e ≠ 0 then do
    upd fun s => { s with snapEnd := spSet dNat s.snapEnd p 0 }
    completeWith q c.seqno 0x49 (e - 1) 0
  else completeWith q c.seqno 0x49 0xB07 0) s

/-- SNAP_ABORT (R462). -/
def execSnapAbort (q : Nat) (s : State) : Res := Dev.run' (do
  let c ← takeCmd q 0x4A
  if !c.zero 1 63 then completeWith q c.seqno 0x4A 0xB03 0
  else
    match (← get).snapOf ((← get).qPart q) with
    | some n => snapFinish n 0xB06
    | none => pure ()
    completeWith q c.seqno 0x4A 0 0) s

/-! ### The journal's registers -/

/-- Whether a launch of a partition has started and not completed. -/
def State.partRuns (s : State) (p : Nat) : Bool := s.launches.any fun l => l.phase != 0 && l.part == p

/-- LOG_JRN_CFG_WRITE (R472): a write of partition `n`'s LOG_JRN_CFGn, or of LOG_JRN_BASEn when `base` is true. Without
LIC_REPLAY the register is absent. -/
def execLogJrnCfgWrite (n : Nat) (base : Bool) (v : Nat) (o : Origin) (s : State) : Res := Dev.run' (do
  let s ← get
  let off := jrnReg n (if base then 8 else 0)
  let ok := o.mine n && !s.partRuns n && (base || fld v 63 62 != 3)
  if n < 8 ∧ s.lic 5 then
    plainWrite o off v ok
      (putReg off (keepBits v (if base then maskBits 47 16 else maskBits 63 62 + maskBits 53 40 + maskBits 31 0)))) s

/-- LOG_JRN_STEP_WRITE (R472, R474): a write of LOG_JRN_STEPn opens the step's region; a mode that records writes its
header. -/
def execLogJrnStepWrite (n v : Nat) (o : Origin) (s : State) : Res := Dev.run' (do
  let s ← get
  let off := jrnReg n 0x10
  if n < 8 ∧ s.lic 5 then
    plainWrite o off v (o.mine n && !s.partRuns n) do
      let step := v % 2 ^ 32
      putReg off step
      upd fun s => { s with jseq := s.jseq.filter fun e => e.1 / 2 ^ 27 != n }
      upd fun s => s.setF (jrnReg n 0x18) 31 0 0
      if s.jrnMode n = 1 then
        let _ ← vaWrite (s.jrnView .device n) 0 (s.jrnBase n step) (jrnHeader step 1 0 0 0)) s

end Sys2Proof.Machine
end

