-- ==== Sys2Proof/Machine/Leat.lean ====
section
/-! DEFINITION. The leat ports (R481 to R536): flits, virtual channels and credits, replay, training, retraining and lane
sparing, and memory requests from and to peers. -/

namespace Sys2Proof.Machine

/-! ### Lanes and widths -/

/-- The lanes that a width code names (R530, R531). -/
def lanesOf (code : Nat) : Nat := if code = 0 then 1 else if code = 1 then 2 else 4
/-- The code of a width. -/
def widthCode (lanes : Nat) : Nat := if lanes = 1 then 0 else if lanes = 2 then 1 else 2
/-- The largest of 4, 2 and 1 that a number of lanes allows; 0 when there is none (R513). -/
def widthFor (n : Nat) : Nat := if 4 ≤ n then 4 else if 2 ≤ n then 2 else n
/-- The lowest-numbered lanes of a mask, as many as a width needs (R482). -/
def lowLanes (mask w : Nat) : Nat := (((List.range 5).filter fun k => bit mask k).take w).foldl (fun m k => m + 2 ^ k) 0
/-- MAXW of a port, in lanes. -/
def State.maxWidth (s : State) (n : Nat) : Nat := lanesOf (s.rf (leatReg n 0) 52 51)
/-- The width that this end asks for: min(CTRL.WIDTH, CFG.MAXW) (R523). -/
def State.askWidth (s : State) (n : Nat) : Nat := min (lanesOf (s.rf (leatReg n 8) 2 1)) (s.maxWidth n)
/-- The lanes of a direction that applied soft-defect entries take out of use (R654): direction 0 receive, 1 transmit. -/
def State.deadLanes (s : State) (n dir : Nat) : Nat :=
  (s.defects.filter fun d => d.kind == 6 && d.st == 1 && d.unit == n && d.loc / 256 == dir).foldl
    (fun m d => Nat.lor m (2 ^ (d.loc % 8))) 0
/-- The lanes of a mask that another mask leaves. -/
def lanesLess (a b : Nat) : Nat := (List.range 5).foldl (fun m k => if bit a k && !bit b k then m + 2 ^ k else m) 0
/-- The receive lanes that may be used. -/
def State.goodLanes (s : State) (n : Nat) : Nat := lanesLess 31 (Nat.lor (s.lport n).lfail (s.deadLanes n 0))
/-- The slots of the receive buffers (R502). -/
def bufSlots (v : Nat) : Nat := if v < 3 then 4096 else if v = 3 then 128 else if v = 4 then 64 else 0

/-- LEA_PORTn_ERR_ registers in the order of R535. -/
def leaErr (n i : Nat) : Nat := leatReg n (0x100 + 8 * i)

/-- A port's STATE changes, which raises its interrupt (R536). -/
def State.leaGo (s : State) (n st : Nat) : State := (s.setLport n { s.lport n with st := st }).emit (.fire 1 n)

/-- A port that is in service and whose package has an identity leaves DISABLED (R483, R512). -/
def State.leaWake (s : State) (n : Nat) : State :=
  let id := s.rf 0x70000 15 0
  if s.leaEn n && s.leaState n == 0 && s.rb 0x70000 16 && id != 0 && id != 0xFFFF then s.leaGo n 1 else s

/-! ### Sending flits -/

/-- A flit (R488): its slots, then the trailer with its CRC. -/
def flitBytes (ftype seq ack cvc cred : Nat) (cont : Option Nat) (slots : List Byte) : List Byte :=
  let c := match cont with
    | none => 0
    | some v => 2 ^ 44 + v <<< 45
  let t := ftype + seq <<< 2 + ack <<< 14 + cvc <<< 26 + cred <<< 29 + c
  slots ++ leBytes 10 (t + crc32c (slots ++ leBytes 6 t) <<< 48)

/-- Bytes filled with zeros to the 40 slots of a flit. -/
def fillSlots (bs : List Byte) : List Byte := bs ++ List.replicate (2560 - bs.length) 0

/-- A flit leaves a port with its ACK and the next channel's credit report (R489, R503). -/
def State.leaEmit (s : State) (n ftype seq : Nat) (cont : Option Nat) (slots : List Byte) : State :=
  let p := s.lport n
  (s.setLport n { p with rot := (p.rot + 1) % 5 }).emit
    (.leat n (flitBytes ftype seq p.expect p.rot (p.vc p.rot).freed cont slots))

/-- A CTRL flit with its control record (R511). -/
def State.leaCtrl (s : State) (n ctype : Nat) (fields : List Byte) : State :=
  s.leaEmit n 2 0 none (fillSlots (leBytes 1 ctype ++ List.replicate 7 0 ++ fields))

/-- A retrain starts at this end (R516, R518): a TRAIN_REQ goes out with its width and reason. -/
def State.leaRetrain (s : State) (n reason width : Nat) : State :=
  let p := s.lport n
  let s := s.setLport n { p with req := some width, agreed := 0, good := none, synced := false, swap := none, replay := none }
  ((s.count (leaErr n 5) 1).leaGo n 4).emit (.train n 2 width reason (s.goodLanes n))

/-- Every outstanding flit sent again, in order (R509); a number that has been sent eight times starts a retrain instead
(R510). -/
def State.leaResend (s : State) (n : Nat) : State :=
  let p := s.lport n
  if p.out = [] then s
  else if p.out.any fun f => decide (8 ≤ f.sent) then s.leaRetrain n 3 (s.askWidth n)
  else
    let s := p.out.foldl (fun s f => (s.leaEmit n 1 f.seq f.cont f.slots).count (leaErr n 4) 1) s
    let p := s.lport n
    s.setLport n { p with out := p.out.map (fun f => { f with sent := f.sent + 1 }), lastAdv := s.time }

/-- A REPLAY_REQ goes out (R509). -/
def State.leaAsk (s : State) (n : Nat) : State :=
  let p := s.lport n
  if p.st = 3 ∨ p.st = 5 then
    (s.setLport n { p with replay := some s.time }).leaCtrl n 1 (leBytes 2 p.expect)
  else s

/-- A discarded flit (R491, R509). -/
def State.leaDiscard (s : State) (n : Nat) : State := (s.count (leaErr n 0) 1).leaAsk n

/-- The next number that the partner owes an acknowledgement for (R506). -/
def LPort.oldest (p : LPort) : Nat := (p.next + 4096 - p.out.length) % 4096
/-- Whether an ACK is acceptable (R508). -/
def LPort.acks (p : LPort) (a : Nat) : Bool := decide ((a + 4096 - p.oldest) % 4096 ≤ p.out.length)
/-- An ACK taken (R508). -/
def LPort.ack (p : LPort) (a now : Nat) : LPort :=
  let k := (a + 4096 - p.oldest) % 4096
  if p.acks a then { p with out := p.out.drop k, lastAdv := if k = 0 then p.lastAdv else now } else p
/-- A credit report taken (R503). -/
def LPort.credit (p : LPort) (v cred : Nat) : LPort :=
  if v < 5 then
    let c := p.vc v
    p.setVc v { c with held := c.held + (cred + 32768 - c.last) % 32768, last := cred }
  else p
/-- The ACK and the credit report of a trailer taken. -/
def LPort.trailer (p : LPort) (t now : Nat) : LPort := (p.ack (fld t 25 14) now).credit (fld t 28 26) (fld t 43 29)

/-- The channel and the length in slots of a message, by its first slot (R492). -/
def msgShape (b : List Byte) : Option (Nat × Nat) :=
  let k := (b.headD 0).toNat
  let len := leNat ((b.drop 2).take 2)
  if 1 ≤ k ∧ k ≤ 5 then some (2, 1 + ceilDiv (leNat ((b.drop 0x28).take 4)) 64)
  else if 0x11 ≤ k ∧ k ≤ 0x14 then some (3, 2)
  else if k = 0x20 then some (0, 1)
  else if k = 0x21 then some (0, 1 + ceilDiv len 64)
  else if k = 0x22 then some (1, if (b.drop 0xA).headD 0 = 0 then 1 + ceilDiv len 64 else 1)
  else if k = 0x23 then some (1, 1)
  else if k = 0x30 ∧ len ≤ 960 then some (4, 1 + ceilDiv len 64)
  else none

/-- The slots that a request's response will take at this end (R492, R505). -/
def respSlots (write : Bool) (len : Nat) : Nat := if write then 1 else 1 + ceilDiv len 64

/-- Whether a message can be sent in part now: credits for what it fills of the flit (R503), and for a request room for
its response (R505). -/
def State.mayStart (s : State) (n v room : Nat) (p : LPort) (m : List Byte) (isOpen : Bool) : Bool :=
  decide (min room (m.length / 64) ≤ (p.vc v).held) &&
    (v != 0 || isOpen ||
      decide ((s.peerReqs.filter fun r => r.port == n && r.sent).foldl (fun k r => k + respSlots r.write r.len) 0 +
        respSlots ((m.headD 0).toNat == 0x21) (leNat ((m.drop 2).take 2)) ≤ 4096))

/-- The order in which a port serves its channels (R502). -/
def LPort.order (p : LPort) : List Nat :=
  let open0 := (p.vc 0).sending != []
  let open2 := (p.vc 2).sending != []
  [3, 4, 1] ++ (if open0 || (!open2 && !p.alt) then [0, 2] else [2, 0])

/-- The message that a channel would send next, and whether it is open. -/
def State.nextMsg (s : State) (n v : Nat) (p : LPort) : Option (List Byte × Bool) :=
  let c := p.vc v
  if c.sending ≠ [] then some (c.sending, true) else (spGet dMsgs s.leaQ (n * 8 + v)).head?.map fun m => (m, false)

/-- A flit as it is filled (R490). -/
structure Fill where
  slots  : List Byte
  cont   : Option Nat
  counts : List Nat
  ends   : List Nat
  deriving DecidableEq, Repr

/-- The request of a message that begins to leave is sent (R500). -/
def State.markSent (s : State) (n : Nat) (m : List Byte) : State :=
  let tag := leNat ((m.drop 8).take 2)
  { s with peerReqs := s.peerReqs.map fun r => if r.port = n ∧ r.tag = tag ∧ !r.sent then { r with sent := true, t0 := s.time } else r }

/-- The slots of a flit filled, message by message (R490, R502). -/
def fillFlit (n : Nat) : Nat → Nat → Fill → State → Fill × State
  | 0, _, f, s => (f, s)
  | fuel + 1, room, f, s =>
    let p := s.lport n
    let first := room == 40
    let ok (v : Nat) : Option (Nat × List Byte × Bool) :=
      match s.nextMsg n v p with
      | none => none
      | some (m, op) => if (op && !first) || !s.mayStart n v room p m op then none else some (v, m, op)
    match p.order.findSome? ok with
    | none => (f, s)
    | some (v, m, op) =>
      let k := min room (m.length / 64)
      let rest := m.drop (64 * k)
      let c := p.vc v
      let s := s.setLport n ({ p with alt := if op then p.alt else if v = 0 then true else if v = 2 then false else p.alt }.setVc v
        { c with held := c.held - k, sending := rest })
      let s := if op then s else { s with leaQ := spMod dMsgs s.leaQ (n * 8 + v) (List.drop 1) }
      let s := if v = 0 && !op then s.markSent n m else s
      let s := s.perf (leatReg n 0x200) k
      let f := { slots := f.slots ++ m.take (64 * k), cont := if op then some v else f.cont
                 counts := f.counts.set v (f.counts.getD v 0 + k), ends := if rest = [] then f.ends ++ [v] else f.ends }
      if rest = [] ∧ k < room then fillFlit n fuel (room - k) f s else (f, s)

/-- Whether a message waits at a port for want of credit. -/
def State.starved (s : State) (n : Nat) : Bool :=
  let p := s.lport n
  (List.range 5).any fun v =>
    match s.nextMsg n v p with
    | none => false
    | some (m, _) => decide ((p.vc v).held < min 40 (m.length / 64))

/-- A port at one of its flit periods (R481, R489, R506, R516, R536). -/
def State.leaSlot (s : State) (n : Nat) : State :=
  let p := s.lport n
  let s := s.setLport n { p with txDue := max p.txDue (10 * s.time) + 1024 / lanesOf p.width }
  if p.st = 4 then s.perf (leatReg n 0x220) 1
  else if p.st = 5 then ((s.perf (leatReg n 0x220) 1).perf (leatReg n 0x210) 1).leaEmit n 0 0 none (fillSlots [])
  else
    let s := if s.starved n then s.perf (leatReg n 0x218) 1 else s
    let (f, s) := if p.out.length < 1024 then fillFlit n 41 40 { slots := [], cont := none, counts := [0, 0, 0, 0, 0], ends := [] } s
      else ({ slots := [], cont := none, counts := [0, 0, 0, 0, 0], ends := [] }, s)
    if f.slots = [] then (s.perf (leatReg n 0x210) 1).leaEmit n 0 0 none (fillSlots [])
    else
      let p := s.lport n
      let seq := p.next
      let e : LFlit := { seq := seq, cont := f.cont, slots := fillSlots f.slots, counts := f.counts, ends := f.ends, sent := 1 }
      (s.setLport n { p with next := (seq + 1) % 4096, out := p.out ++ [e]
                             lastAdv := if p.out = [] then s.time else p.lastAdv }).leaEmit n 1 seq f.cont e.slots

/-- Every port whose flit period has come sends (the idle step's part of the links). -/
def State.leaTick (s : State) : State :=
  (s.lports.map Prod.fst).foldl (fun s n =>
    let p := s.lport n
    if 3 ≤ p.st ∧ p.st ≤ 5 ∧ p.txDue ≤ 10 * s.time then s.leaSlot n else s) s

/-! ### Receiving flits -/

/-- A received flit while its slots are taken (R490): the channels, the message that continues, whether the rest is idle,
whether the layout holds, and the messages that have ended. -/
structure RxFlit where
  vcs  : Sparse LVc
  cur  : Option Nat
  idle : Bool
  ok   : Bool
  done : List (Nat × List Byte)
  deriving DecidableEq, Repr

/-- A slot of channel `v` taken. -/
def RxFlit.grow (r : RxFlit) (v : Nat) (b : List Byte) : RxFlit :=
  let c := spGet dLVc r.vcs v
  let m := c.part ++ b
  let need := ((msgShape (m.take 64)).map Prod.snd).getD 1
  if need ≤ m.length / 64 then
    { r with vcs := spSet dLVc r.vcs v { c with part := [] }, cur := none, done := r.done ++ [(v, m)] }
  else { r with vcs := spSet dLVc r.vcs v { c with part := m }, cur := some v }

/-- A slot taken (R490). -/
def RxFlit.slot (r : RxFlit) (b : List Byte) : RxFlit :=
  if !r.ok || r.idle then r
  else match r.cur with
    | some v => r.grow v b
    | none =>
      if b.headD 0 = 0 then { r with idle := true }
      else match msgShape b with
        | none => { r with ok := false }
        | some (v, _) => if (spGet dLVc r.vcs v).part ≠ [] then { r with ok := false } else r.grow v b

/-- The slots of a flit taken, unless they break R490. -/
def LPort.parse (p : LPort) (t : Nat) (flit : List Byte) : Option RxFlit :=
  let v := fld t 47 45
  let cont := bit t 44
  let r : RxFlit := { vcs := p.vcs, cur := if cont then some v else Option.none, idle := false
                      ok := !cont || (decide (v < 5) && (p.vc v).part != []), done := [] }
  let r := (List.range 40).foldl (fun r i => r.slot ((flit.drop (64 * i)).take 64)) r
  if r.ok then some r else Option.none

/-- Where a message's route word lies (R492). -/
def routeAt (m : List Byte) : Nat :=
  let k := (m.headD 0).toNat
  if k ≤ 5 then 0x30 else if k ≤ 0x14 then 0x14 else 4

/-- A received message enters its channel's buffer, with the route word of a sluice or sprinkle message cleared (R493); one
that is not for this package, or not from a partner that is a package, is discarded and counted (R496, R524). -/
def State.leaPlace (s : State) (n : Nat) (e : Nat × List Byte) : State :=
  let (v, m) := e
  let p := s.lport n
  let at' := routeAt m
  let dest := leNat ((m.drop at').take 2)
  let src := leNat ((m.drop (at' + 2)).take 2)
  let c := p.vc v
  if dest = s.rf 0x70000 15 0 ∧ (p.pswitch ∨ src = p.pnode) then
    let m := if v = 2 ∨ v = 3 then routed m at' 0 0 else m
    s.setLport n (p.setVc v { c with ready := c.ready ++ [m] })
  else (s.setLport n (p.setVc v { c with freed := (c.freed + m.length / 64) % 32768 })).count (leaErr n 7) 1

/-- A flit that arrives (R487, R491): corrected symbols count against their lanes, and a flit with an uncorrectable codeword, a
wrong CRC or a reserved FTYPE is discarded whole. -/
def leaRx (n bad : Nat) (corr : List Nat) (flit : List Byte) (body : Nat → Dev Unit) : Dev Unit := do
  let st := (← get).leaState n
  if n < 16 ∧ 2 ≤ st ∧ st ≤ 5 then
    upd fun s => (List.range 5).foldl (fun s k => s.count (leatReg n (0x180 + 8 * k)) (corr.getD k 0)) s
    upd fun s => s.count (leaErr n 1) bad
    upd fun s =>
      let p := s.lport n
      s.setLport n { p with corr := (List.range 5).map (fun k => p.corr.getD k 0 + corr.getD k 0), uncorr := p.uncorr + bad }
    let t := leNat (flit.drop 2560)
    if bad = 0 ∧ flit.length = 2570 ∧ fld t 79 48 = crc32c (flit.take 2560 ++ leBytes 6 t) ∧ fld t 1 0 ≠ 3 then
      upd fun s => s.setLport n { s.lport n with lastFlit := s.time }
      body t
    else upd fun s => s.leaDiscard n

/-- The trailer of a valid flit taken. -/
def leaTrailer (n t : Nat) : Dev Unit := upd fun s => s.setLport n ((s.lport n).trailer t s.time)

/-- A valid DATA flit (R507). -/
def leaData (n t : Nat) (flit : List Byte) : Dev Unit := do
  let p := (← get).lport n
  let d := (fld t 13 2 + 4096 - p.expect) % 4096
  if d = 0 then
    match p.parse t flit with
    | none => upd fun s => s.leaDiscard n
    | some r => do
      upd fun s => s.setLport n { p with vcs := r.vcs, expect := (p.expect + 1) % 4096, replay := none }
      leaTrailer n t
      upd fun s => r.done.foldl (fun s e => s.leaPlace n e) s
  else do
    leaTrailer n t
    if d < 2048 then upd fun s => (s.count (leaErr n 2) 1).leaAsk n else upd fun s => s.count (leaErr n 3) 1

/-- LEAT_DATA_FLIT (R487 to R493, R503, R507, R508). -/
def execLeatDataFlit (n bad : Nat) (corr : List Nat) (flit : List Byte) (s : State) : Res := Dev.run' (
  leaRx n bad corr flit fun t => do
    if fld t 1 0 = 1 ∧ 3 ≤ (← get).leaState n then leaData n t flit) s

/-- LEAT_NULL_FLIT (R489, R503, R508). -/
def execLeatNullFlit (n bad : Nat) (corr : List Nat) (flit : List Byte) (s : State) : Res := Dev.run' (
  leaRx n bad corr flit fun t => do
    if fld t 1 0 = 0 ∧ 3 ≤ (← get).leaState n then leaTrailer n t) s

/-- A valid CTRL flit of a CTYPE, in one of the given states: its record's fields (R489, R511). -/
def leaRecord (n bad : Nat) (corr : List Nat) (flit : List Byte) (ctype : Nat) (states : List Nat) (body : Dev Unit) :
    Dev Unit :=
  leaRx n bad corr flit fun t => do
    let st := (← get).leaState n
    if fld t 1 0 = 2 ∧ (flit.headD 0).toNat = ctype ∧ st ∈ states then do
      if st = 3 ∨ st = 5 then leaTrailer n t
      body

/-- LEAT_REPLAY_REQ (R508, R509). -/
def execLeatReplayReq (n bad : Nat) (corr : List Nat) (flit : List Byte) (s : State) : Res := Dev.run' (
  leaRecord n bad corr flit 1 [3, 5] do
    let e := leNat ((flit.drop 8).take 2)
    let p := (← get).lport n
    if p.acks e then upd fun s => (s.setLport n (p.ack e s.time)).leaResend n) s

/-- LEAT_REPLAY_REQ_REPEAT (R509): 1 µs after the last request, until the expected flit has arrived. -/
def execLeatReplayReqRepeat (n : Nat) (s : State) : Res :=
  .next (match (s.lport n).replay with
    | none => s
    | some t => if t + 1000 ≤ s.time then s.leaAsk n else s)

/-- LEAT_ACK_TIMEOUT (R510): OLDEST has not advanced for 4 µs. -/
def execLeatAckTimeout (n : Nat) (s : State) : Res :=
  let p := s.lport n
  .next (if (p.st = 3 ∨ p.st = 5) ∧ p.out ≠ [] ∧ p.lastAdv + 4000 ≤ s.time then s.leaResend n else s)

/-! ### Responses and the end of requests -/

/-- A request to a peer ends with a status (R501, R520). -/
def peerDone (r : PeerReq) (status : Nat) (data : List Byte) : Dev Unit := do
  upd fun s => { s with peerReqs := s.peerReqs.erase r }
  match r.who with
  | .flume t tag =>
    flumeAnswer t tag (if status = 0 then 0 else if status = 1 then 4 else if status = 3 ∨ 0x10 ≤ status then 1 else 2) data
  | .snap p num => snapAnswer p num r.addr (status == 0) data
  | _ => pure ()

/-- A port ends every message it holds, and its requests complete with LEA_RSP_LINK (R522), as it enters FAILED or
DISABLED. -/
def leaFail (n st : Nat) : Dev Unit := do
  let s ← get
  let p := s.lport n
  let held := [2, 3].foldl (fun k v =>
    let c := p.vc v
    k + (spGet dMsgs s.leaQ (n * 8 + v)).length + b2n (c.sending != []) + c.ready.length +
      (p.out.foldl (fun m f => m + (f.ends.filter (· == v)).length) 0)) 0
  upd fun s => s.count (leaErr n 9) held
  upd fun s => { s with leaQ := s.leaQ.filter fun e => e.1 / 8 != n }
  upd fun s => s.setLport n { p with
    vcs := [], out := [], good := none, req := none, agreed := 0, synced := false, swap := none, replay := none, sizes := []
    lact := 0, tact := 0, failT := s.time }
  upd fun s => s.leaGo n st
  forAll (s.peerReqs.filter fun r => r.port == n) fun r => peerDone r 0x10 []

/-- A response at the head of VC1 (R495, R500, R501): it ends its request, or comes late. -/
def leaResponse (n kind : Nat) : Dev Unit := do
  let s ← get
  match ((s.lport n).vc 1).ready with
  | [] => pure ()
  | m :: _ =>
    if (m.headD 0).toNat = kind then
      upd fun s => s.leaPop n 1
      let tag := leNat ((m.drop 8).take 2)
      match s.peerReqs.find? fun r => r.port == n && r.tag == tag && r.sent && r.write == (kind == 0x23) with
      | none => upd fun s => s.count (leaErr n 8) 1
      | some r =>
        let status := (m.getD 0xA 0).toNat
        let data := (m.drop 64).take r.len
        let more ← freeBytes (if status = 0 ∧ !r.write then r.len - data.length else 0)
        peerDone r status (if status = 0 ∧ !r.write then data ++ more else [])

/-- LEAT_RD_RSP (R495, R500, R501). -/
def execLeatRdRsp (n : Nat) (s : State) : Res := Dev.run' (leaResponse n 0x22) s

/-- LEAT_WR_RSP (R467, R495, R500, R501). -/
def execLeatWrRsp (n : Nat) (s : State) : Res := Dev.run' (leaResponse n 0x23) s

/-- LEAT_RSP_TIMEOUT (R500): RSP_TIMEOUT µs after the send. -/
def execLeatRspTimeout (n tag : Nat) (s : State) : Res := Dev.run' (do
  match s.peerReqs.find? fun r => r.port == n && r.tag == tag && r.sent with
  | none => pure ()
  | some r => if r.t0 + 1000 * s.rf (leatReg n 0) 15 0 ≤ s.time then peerDone r 0x11 []) s

/-! ### Requests from a peer -/

/-- Whether a request keeps R494 and R495. -/
def reqFormat (m : List Byte) : Bool :=
  let f := dfld m
  let zero (off n : Nat) : Bool := ((m.drop off).take n).all (· == 0)
  let len := f 2 2
  let va := f 0x10 8
  decide (f 1 1 < 4) && decide (1 ≤ len) && decide (len ≤ 4096) && decide (f 8 2 < 4096) && zero 0xA 6 &&
    decide (va < 2 ^ 48) && zero 0x18 40 && decide (va % 4096 + len ≤ 4096)

/-- The status that a failed inbound access answers (R496). -/
def rspStatus (c : Nat) : Nat := if c = 0x10 then 2 else if c = 0x11 then 3 else 1

/-- The request at the head of VC0, of a KIND, handled in the order of R496; its response goes out on the same port. A
request that must wait at its hub stays where it is. -/
def leaServe (n kind : Nat) : Dev Unit := do
  let s ← get
  match ((s.lport n).vc 0).ready with
  | [] => pure ()
  | m :: _ =>
    if (m.headD 0).toNat = kind then
      let f := dfld m
      let len := f 2 2
      let src := f 6 2
      let cfg := s.rn (leatReg n 0)
      let as := some (fld cfg 58 53)
      let v : View := { who := .leat n src, part := fld cfg 62 60, as := as, sel := s.vsel as, src := 5, fn := none }
      let (status, data) ←
        if !reqFormat m then pure (6, [])
        else if !bit cfg 59 then pure (4, [])
        else if kind = 0x21 then do
          match ← inWrite v (f 1 1) (f 0x10 8) ((m.drop 64).take len) with
          | .error c => pure (rspStatus c, [])
          | .ok () => pure (0, [])
        else do
          match ← inRead v (f 1 1) (f 0x10 8) len with
          | .error c => pure (rspStatus c, [])
          | .ok bs => pure (0, bs)
      upd fun s => s.leaPop n 0
      let rsp := memHeader (kind + 2) 0 (if kind = 0x20 then len else 0) src (s.rf 0x70000 15 0) (f 8 2) status 0
      upd fun s => s.leaSend n 1 (rsp ++ padSlots data)

/-- LEAT_RD_REQ (R380, R494 to R497). -/
def execLeatRdReq (n : Nat) (s : State) : Res := Dev.run' (leaServe n 0x20) s

/-- LEAT_WR_REQ (R380, R494 to R497): the response leaves after the hub has accepted the write. -/
def execLeatWrReq (n : Nat) (s : State) : Res := Dev.run' (leaServe n 0x21) s

/-- LEAT_MGT_MSG (R493): a management message goes to the ditchrider. -/
def execLeatMgtMsg (n : Nat) (s : State) : Res :=
  .next (match ((s.lport n).vc 4).ready with
    | [] => s
    | m :: _ => (s.leaPop n 4).emit (.mgt n m))

/-! ### Registers -/

/-- Privileged software of the PF of PCIe port 0. -/
def originPf0 (o : Origin) : Bool := o.cls == 3 && o.port == 0 && o.id == 0

/-- LEA_NODE_WRITE (R483, R529, R653): by the ditchrider, or by privileged software of the PF of port 0 until it is
locked. -/
def execLeaNodeWrite (v : Nat) (o : Origin) (s : State) : Res := Dev.run' (
  lockWrite o 0x70000 v 16 0x70FF8 (o.isDrd || originPf0 o) fun locked => do
    if !locked then
      putReg 0x70000 (keepBits v 0x1FFFF)
      upd fun s => (List.range 16).foldl State.leaWake s) s

/-- LEA_PORT_CFG_WRITE (R16, R483, R485, R530). -/
def execLeaPortCfgWrite (n v : Nat) (o : Origin) (s : State) : Res := Dev.run' (do
  let s ← get
  let off := leatReg n 0
  let old := s.rn off
  let new := Nat.lor (keepBits v (maskBits 63 50)) (max 3000 (fld v 15 0))
  let ok := o.mine (fld old 62 60) && (!bit old 63 || fld new 62 53 == fld old 62 53)
  if s.leatThere n then
    plainWrite o off v ok do
      putReg off new
      if bit new 63 then upd fun s => s.leaWake n
      else if bit old 63 then upd fun s => s.setLport n { s.lport n with drainT := s.time }) s

/-- LEA_RETRAIN_REQUEST (R523, R531): a write of LEA_PORTn_CTRL. -/
def execLeaRetrainRequest (n v : Nat) (o : Origin) (s : State) : Res := Dev.run' (do
  let s ← get
  let off := leatReg n 8
  let ok := o.mine (s.rf (leatReg n 0) 62 60) && (!bit v 0 || s.leaState n == 3)
  if s.leatThere n then
    plainWrite o off v ok do
      shadowed off (v % 8)
      putReg off (keepBits v 6)
      if bit v 0 then upd fun s => s.leaRetrain n 0 (s.askWidth n)) s

/-! ### Training -/

/-- LEAT_PARTNER_DETECT (R513 step 1). -/
def execLeatPartnerDetect (n devid : Nat) (s : State) : Res :=
  .next (if s.leaState n = 1 then
      (s.setLport n { s.lport n with pid := devid, lfail := 0, good := none, sizes := [] }).leaGo n 2
    else s)

/-- The IDENT record of a port (R511). -/
def State.identOf (s : State) (n : Nat) : List Byte :=
  leBytes 16 s.uid ++ leBytes 2 (s.rf 0x70000 15 0) ++ leBytes 1 n ++ leBytes 1 (2 * min 2 (s.rf (leatReg n 0) 52 51)) ++
    (List.range 5).flatMap fun v => leBytes 2 (bufSlots v)

/-- A lane failure is reported to the ditchrider (R513, R515, R645). -/
def State.laneFailed (s : State) (n k : Nat) : State := s.defect 6 n k 3

/-- Training ends once both ends have qualified their lanes and the IDENT has come (R513 steps 5 to 7). -/
def State.leaActivate (s : State) (n : Nat) : State :=
  let p := s.lport n
  match p.good with
  | none => s
  | some (g, pg) =>
    if p.sizes = [] then s
    else
      let w := widthFor (min (min (popcount 5 g) (popcount 5 pg)) (min (s.maxWidth n) (lanesOf p.pmaxw)))
      let vcs := (List.range 5).foldl (fun m v => spSet dLVc m v { LVc.none with psize := p.sizes.getD v 0, held := p.sizes.getD v 0 }) []
      (s.setLport n { p with
        width := widthCode w, lact := lowLanes g w, tact := lowLanes pg w, next := 0, expect := 0, out := [], vcs := vcs
        replay := none, lastAdv := s.time, lastFlit := s.time, winT := s.time, txDue := 10 * s.time
        corr := [0, 0, 0, 0, 0], hot := [0, 0, 0, 0, 0], uncorr := 0 }).leaGo n 3

/-- LEAT_TRAINING_DONE (R482, R513 steps 2 to 6, R514, R654): `good` and `pgood` are the lanes that qualified at this end and
at the partner's. -/
def execLeatTrainingDone (n good pgood : Nat) (s : State) : Res := Dev.run' (do
  if s.leaState n = 2 then
    let dead := s.deadLanes n 0
    let failed := lanesLess (lanesLess 31 good) dead
    upd fun s => ((List.range 5).filter fun k => bit failed k).foldl (fun s k => s.laneFailed n k) s
    upd fun s => s.setLport n { s.lport n with lfail := failed, good := some (lanesLess (good % 32) dead, pgood % 32) }
    if lanesLess (good % 32) dead = 0 ∨ pgood % 32 = 0 then leaFail n 6
    else upd fun s => (s.leaCtrl n 7 (s.identOf n)).leaActivate n) s

/-- LEAT_IDENT (R511, R513 step 6, R533). -/
def execLeatIdent (n bad : Nat) (corr : List Nat) (flit : List Byte) (s : State) : Res := Dev.run' (
  leaRecord n bad corr flit 7 [2] do
    let f := dfld flit
    let caps := f 0x1B 1
    upd fun s =>
      let p := { s.lport n with pid := f 8 16, pnode := f 0x18 2, pport := f 0x1A 1 % 16, pswitch := bit caps 0, pmaxw := fld caps 2 1
                                ident := true, sizes := (List.range 5).map fun v => f (0x1C + 2 * v) 2 }
      (s.setLport n p).leaActivate n) s

/-- LEAT_FAILED_RETRY (R512). -/
def execLeatFailedRetry (n : Nat) (s : State) : Res :=
  .next (if s.leaState n = 6 ∧ s.leaEn n ∧ (s.lport n).failT + 100000000 ≤ s.time then s.leaGo n 1 else s)

/-- LEAT_DISABLE_DRAIN_END (R522, R530): EN is 0, and nothing is queued or 1 ms has passed. -/
def execLeatDisableDrainEnd (n : Nat) (s : State) : Res := Dev.run' (do
  let p := s.lport n
  let idle := p.out == [] && (List.range 5).all fun v => (p.vc v).sending == [] && spGet dMsgs s.leaQ (n * 8 + v) == []
  if n < 16 ∧ p.st ≠ 0 ∧ !s.rb (leatReg n 0) 63 ∧ (idle ∨ p.st < 3 ∨ p.st = 6 ∨ p.drainT + 1000000 ≤ s.time) then leaFail n 0) s

/-! ### Retraining -/

/-- A TRAIN_ACK for a width (R518). -/
def State.leaAnswer (s : State) (n width : Nat) : State :=
  let p := s.lport n
  (s.setLport n { p with req := none, agreed := width, leader := false }).emit (.train n 3 width 0 (s.goodLanes n))

/-- LEAT_TRAIN_REQ (R516, R518): the partner starts a retrain, or both ends do and the lower identifier leads. -/
def execLeatTrainReq (n devid width _reason _good : Nat) (s : State) : Res :=
  .next (if width = 1 ∨ width = 2 ∨ width = 4 then
      let p := s.lport n
      let s := if 3 ≤ p.st ∧ p.st ≤ 5 then s.setLport n { p with pid := devid } else s
      let p := s.lport n
      if p.st = 3 ∨ p.st = 5 then
        let s := s.setLport n { p with good := none, synced := false, swap := none, replay := none }
        (((s.count (leaErr n 5) 1).leaGo n 4)).leaAnswer n (min width (s.maxWidth n))
      else if p.st = 4 then
        match p.req with
        | none => s
        | some own =>
          if s.uid < devid ∨ (s.uid = devid ∧ n < p.pport) then s.setLport n { p with req := some (min own width) }
          else s.leaAnswer n (min own width)
      else s
    else s)

/-- LEAT_TRAIN_ACK (R518). -/
def execLeatTrainAck (n devid width _reason _good : Nat) (s : State) : Res :=
  let p := s.lport n
  .next (match p.req with
    | none => s
    | some own =>
      if p.st = 4 ∧ (width = 1 ∨ width = 2 ∨ width = 4) then
        s.setLport n { p with req := none, agreed := min own width, leader := true, pid := devid }
      else s)

/-- A retrain ends once this end has chosen its lanes and the partner's CREDIT_SYNC has come (R517 step 6): every outstanding
flit is sent again. -/
def State.leaResume (s : State) (n : Nat) : State :=
  let p := s.lport n
  if p.good.isSome && p.synced then
    let s := s.setLport n { p with out := p.out.map (fun f => { f with sent := 0 }), req := none, lastFlit := s.time
                                   lastAdv := s.time, txDue := 10 * s.time, corr := [0, 0, 0, 0, 0], hot := [0, 0, 0, 0, 0]
                                   uncorr := 0, winT := s.time }
    (s.leaGo n 3).leaResend n
  else s

/-- LEAT_RETRAIN_DONE (R482, R514, R517 steps 2 to 5, R522): `failed` are the receive lanes that did not lock or pass, `pgood`
the lanes that passed at the partner's end. -/
def execLeatRetrainDone (n failed pgood : Nat) (s : State) : Res := Dev.run' (do
  let p := s.lport n
  if p.st = 4 ∧ p.agreed ≠ 0 ∧ p.good = none then
    upd fun s => s.setLport n { p with lfail := Nat.lor p.lfail (failed % 32) }
    let g := (← get).goodLanes n
    let w := widthFor (min (min (popcount 5 g) (popcount 5 pgood)) p.agreed)
    if w = 0 then leaFail n 6
    else
      upd fun s => s.setLport n { s.lport n with
        good := some (g, pgood % 32), width := widthCode w, lact := lowLanes g w, tact := lowLanes (pgood % 32) w }
      upd fun s =>
        let p := s.lport n
        let occ (c : LVc) : Nat := (c.part.length + (c.ready.map List.length).sum) / 64
        s.leaCtrl n 4 (leBytes 2 p.expect ++ leBytes 2 0 ++
          (List.range 5).flatMap fun v => leBytes 2 (bufSlots v - occ (p.vc v)) ++ leBytes 2 (p.vc v).freed)
      upd fun s => s.leaResume n) s

/-- LEAT_CREDIT_SYNC (R517 step 5, R519). -/
def execLeatCreditSync (n bad : Nat) (corr : List Nat) (flit : List Byte) (s : State) : Res := Dev.run' (
  leaRecord n bad corr flit 4 [4] do
    let f := dfld flit
    upd fun s =>
      let p := (s.lport n).ack (f 8 2) s.time
      let p := (List.range 5).foldl (fun (p : LPort) v =>
        let c := p.vc v
        let sv := p.out.foldl (fun k e => k + e.counts.getD v 0) 0
        p.setVc v { c with held := f (0xC + 4 * v) 2 - sv, last := f (0xE + 4 * v) 2 % 32768 }) p
      (s.setLport n { p with synced := true }).leaResume n) s

/-- LEAT_LINK_LOST (R516): no valid flit for 10 µs. -/
def execLeatLinkLost (n : Nat) (s : State) : Res :=
  let p := s.lport n
  .next (if (p.st = 3 ∨ p.st = 5) ∧ p.lastFlit + 10000 ≤ s.time then s.leaRetrain n 4 (s.askWidth n) else s)

/-- LEAT_LANE_LOCK_LOSS (R514, R515). -/
def execLeatLaneLockLoss (n k : Nat) (s : State) : Res :=
  let p := s.lport n
  .next (if (p.st = 3 ∨ p.st = 5) ∧ k < 5 ∧ bit p.lact k then
      let s := s.setLport n { p with lfail := Nat.lor p.lfail (2 ^ k) }
      (s.laneFailed n k).leaRetrain n 1 (s.askWidth n)
    else s)

/-! ### Lane sparing -/

/-- OLD, NEW and AT of a lane swap (R511). -/
def swapFields (w : LSwap) : List Byte := leBytes 1 w.old ++ leBytes 1 w.new ++ leBytes 2 w.frame

/-- LEAT_ERROR_WINDOW (R514, R515, R521): `spares` are the bit errors of each idle lane in the window. The frame of a swap
is this end's to choose, within 10 µs. -/
def execLeatErrorWindow (n : Nat) (spares : List Nat) (s : State) : Res := Dev.run' (do
  let p := s.lport n
  if (p.st = 3 ∨ p.st = 5) ∧ p.winT + 1000000 ≤ s.time then
    let hot := (List.range 5).map fun k => if bit p.lact k ∧ 20000 < p.corr.getD k 0 then p.hot.getD k 0 + 1 else 0
    upd fun s => s.setLport n { p with corr := [0, 0, 0, 0, 0], uncorr := 0, hot := hot, winT := s.time }
    if 16 < p.uncorr then upd fun s => s.leaRetrain n 2 (s.askWidth n)
    else match (List.range 5).find? fun k => decide (3 ≤ hot.getD k 0) with
      | none => pure ()
      | some old =>
        if p.st = 3 then
          let good := lanesLess (s.goodLanes n) p.lact
          let usable (k : Nat) : Bool := s.rb (leatReg n 0) 50 && bit good k && decide (spares.getD k 2126 ≤ 2125)
          match (List.range 5).find? usable with
          | none => upd fun s => s.leaRetrain n 2 (s.askWidth n)
          | some new => do
            let f ← freshBelow (97 * lanesOf p.width)
            let w : LSwap := { old := old, new := new, frame := f, rx := true, agreed := false }
            upd fun s => (s.setLport n { s.lport n with swap := some w }).leaGo n 5
            upd fun s => s.leaCtrl n 5 (swapFields w)) s

/-- The swap that a record names. -/
def swapOf (flit : List Byte) (rx : Bool) : LSwap :=
  let f := dfld flit
  { old := f 8 1, new := f 9 1, frame := f 0xA 2, rx := rx, agreed := true }

/-- LEAT_LANE_SWAP (R521): this end transmits on the degraded lane. -/
def execLeatLaneSwap (n bad : Nat) (corr : List Nat) (flit : List Byte) (s : State) : Res := Dev.run' (
  leaRecord n bad corr flit 5 [3] do
    let w := swapOf flit false
    upd fun s => (s.setLport n { s.lport n with swap := some w }).leaGo n 5
    upd fun s => s.leaCtrl n 6 (swapFields w)) s

/-- LEAT_LANE_SWAP_ACK (R521). -/
def execLeatLaneSwapAck (n bad : Nat) (corr : List Nat) (flit : List Byte) (s : State) : Res := Dev.run' (
  leaRecord n bad corr flit 6 [5] do
    let w := swapOf flit true
    upd fun s =>
      let p := s.lport n
      if p.swap = some { w with agreed := false } then s.setLport n { p with swap := some w } else s) s

/-- LEAT_LANE_SWAP_APPLY (R521): the agreed frame has come. -/
def execLeatLaneSwapApply (n : Nat) (s : State) : Res :=
  let p := s.lport n
  .next (match p.swap with
    | none => s
    | some w =>
      if p.st = 5 ∧ w.agreed then
        let move (m : Nat) : Nat := Nat.lor (lanesLess m (2 ^ w.old)) (2 ^ w.new % 32)
        ((s.setLport n { p with swap := none, lact := if w.rx then move p.lact else p.lact
                                tact := if w.rx then p.tact else move p.tact
                                hot := if w.rx then p.hot.set w.old 0 else p.hot }).count (leaErr n 6) 1).leaGo n 3
      else s)

end Sys2Proof.Machine
end

