-- ==== Sys2Proof/Machine/Boot.lean ====
section
/-! DEFINITION. The boot flash and its updates (R621, R622, R632 to R639), image manifests (R626 to R631), soft defects
(R644 to R655), cold and warm starts (R623 to R659), service levels (R695, R696) and the control lands that reset the
part (R708, R709, R714). -/

namespace Sys2Proof.Machine

/-! ### The flash -/

/-- Bytes of the flash. -/
def State.fl (s : State) (off n : Nat) : List Byte := spRead dFlash s.flash off n
/-- A little-endian field of the flash. -/
def State.flNat (s : State) (off n : Nat) : Nat := leNat (s.fl off n)
/-- Bytes written to the flash. -/
def State.flWrite (s : State) (off : Nat) (bs : List Byte) : State := { s with flash := spWrite dFlash s.flash off bs }

/-- Which of two copies is current, by the SEQ of each valid copy, compared modulo 2^32 (R622). -/
def newerCopy (a b : Option Nat) : Option Nat :=
  match a, b with
  | none, none => none
  | some _, none => some 0
  | none, some _ => some 1
  | some x, some y =>
    let d := (y + 2 ^ 32 - x) % 2 ^ 32
    some (if 0 < d ∧ d < 2 ^ 31 then 1 else 0)

/-- The SEQ of a valid flash-header copy (R622). -/
def State.hdrSeq (s : State) (k : Nat) : Option Nat :=
  let b := 4096 * k
  if s.flNat b 4 = 0x52444C46 ∧ s.flNat (b + 0x10) 4 = crc32c (s.fl b 16) then some (s.flNat (b + 4) 4) else none

/-- The current flash header (R622): its copy, SEQ, ACTIVE, NEXT and BOOTNO. -/
def State.flashHdr (s : State) : Nat × Nat × Nat × Nat × Nat :=
  match newerCopy (s.hdrSeq 0) (s.hdrSeq 1) with
  | none => (1, 0, 0, 0xFF, 0)
  | some k =>
    let b := 4096 * k
    (k, s.flNat (b + 4) 4, s.flNat (b + 8) 1 % 2, s.flNat (b + 9) 1, s.flNat (b + 0xC) 4)

/-- A new flash header, in the copy that is not current (R622). -/
def State.putHdr (s : State) (active next bootno : Nat) : State :=
  let (k, seq, _) := s.flashHdr
  let h := leBytes 4 0x52444C46 ++ leBytes 4 (seq + 1) ++ leBytes 1 active ++ leBytes 1 next ++ leBytes 2 0 ++ leBytes 4 bootno
  s.flWrite (4096 * (1 - k)) (h ++ leBytes 4 (crc32c h))

/-- The SEQ of a valid licence copy (R622). -/
def State.licSeq (s : State) (k : Nat) : Option Nat :=
  let c := s.fl (0x20000 + 8192 * k) 8192
  if leNat ((c.drop 4).take 4) = crc32c (c.take 4 ++ List.replicate 4 0 ++ c.drop 8) then some (leNat (c.take 4)) else none

/-- The current licence copy: which, its SEQ, and its 32 records. -/
def State.licCopy (s : State) : Nat × Nat × List (List Byte) :=
  match newerCopy (s.licSeq 0) (s.licSeq 1) with
  | none => (1, 0, List.replicate 32 (List.replicate 128 0xFF))
  | some k =>
    let b := 0x20000 + 8192 * k
    (k, s.flNat b 4, (List.range 32).map fun i => s.fl (b + 0x40 + 128 * i) 128)

/-- Whether a licence record is erased. -/
def erased (r : List Byte) : Bool := r.all (· == 0xFF)

/-- Whether a licence record is valid for this part (R637). -/
def State.licOk (s : State) (r : List Byte) : Bool :=
  let f := dfld r
  f 0 4 == 0x43494C4E && f 4 2 == 1 && decide (f 6 1 ≤ 3) && !bit s.revoked (f 6 1) && f 7 1 == 0 && f 8 16 == s.uid &&
    decide (f 0x18 4 < 64) && Config.sigOk (1 + f 6 1) (r.take 0x20) ((r.drop 0x20).take 96)

/-- The records of the flash's soft-defect area as bytes (R644). -/
def defectBytes (d : Defect) : List Byte :=
  leBytes 1 d.kind ++ leBytes 1 d.st ++ leBytes 2 d.unit ++ leBytes 4 d.loc ++ leBytes 4 d.events ++ leBytes 4 d.bootno

/-- A 64 KiB copy of the soft-defect area (R622, R644). -/
def defectCopy (seq : Nat) (ds : List Defect) : List Byte :=
  let body := ds.flatMap defectBytes
  let rest := List.replicate 1016 0 ++ body ++ List.replicate (64512 - body.length) 0xFF
  leBytes 4 seq ++ leBytes 4 (crc32c (leBytes 4 seq ++ List.replicate 4 0 ++ rest)) ++ rest

/-- The soft-defect area: the list's current copy and the one before it. -/
def State.defectArea (s : State) : List Byte :=
  let now := defectCopy s.defSeq s.defects
  let old := if s.defSeq = 0 then List.replicate 65536 0xFF else defectCopy (s.defSeq - 1) s.defPrev
  if s.defSeq % 2 = 0 then now ++ old else old ++ now

/-- A log record as 32 bytes (R699). -/
def logBytes (r : LogRec) : List Byte :=
  leBytes 8 r.time ++ leBytes 1 r.type ++ leBytes 1 r.origin ++ leBytes 1 r.part ++ leBytes 1 r.port ++ leBytes 2 r.id ++
    leBytes 2 r.info ++ leBytes 4 r.seq ++ leBytes 4 r.target ++ leBytes 8 r.value

/-- Bytes read from offset `off` with an area laid over them. -/
def overlay (off : Nat) (raw : List Byte) (base size : Nat) (c : Unit → List Byte) : List Byte :=
  if base + size ≤ off ∨ off + raw.length ≤ base then raw
  else
    let lo := max off base
    let hi := min (off + raw.length) (base + size)
    raw.take (lo - off) ++ ((c ()).drop (lo - base)).take (hi - lo) ++ raw.drop (hi - off)

/-- The flash as READ returns it (R621, R632, R646, R701). -/
def State.flashRead (s : State) (off n : Nat) : List Byte :=
  let log (_ : Unit) : List Byte :=
    let b := s.events.flatMap logBytes
    b ++ List.replicate (2097152 - b.length) 0xFF
  overlay off (overlay off (s.fl off n) 0x30000 131072 fun _ => s.defectArea) 0x100000 2097152 log

/-! ### Images -/

/-- The first byte of an image bank. -/
def bankBase (b : Nat) : Nat := 0x400000 + 0x1E00000 * b

/-- The directory of a bank: OFFSET and LENGTH of its images, if it is valid (R626). -/
def State.bankDir (s : State) (b : Nat) : Option (List (Nat × Nat)) :=
  let base := bankBase b
  let n := s.flNat (base + 4) 1
  let es := (List.range n).map fun i => (s.flNat (base + 0x40 + 16 * i) 4, s.flNat (base + 0x44 + 16 * i) 4)
  if s.flNat base 4 = 0x4B4E4142 ∧ 1 ≤ n ∧ n ≤ 8 ∧
      es.all (fun e => e.1 % 4096 == 0 && decide (272 ≤ e.2) && decide (e.1 + e.2 ≤ 0x1E00000)) then some es
  else none

/-- An image's manifest (R627) with where the image lies. -/
structure Image272 where
  off  : Nat
  len  : Nat
  man  : List Byte
  deriving DecidableEq, Repr

/-- IMAGE, VERSION and ABI of a manifest. -/
def Image272.type (i : Image272) : Nat := dfld i.man 4 1
def Image272.version (i : Image272) : Nat := dfld i.man 8 4
def Image272.abi (i : Image272) : Nat := dfld i.man 0xC 2
/-- Whether STEPPINGS lists a stepping. -/
def Image272.fits (i : Image272) (st : Nat) : Bool := (List.range (min 8 (dfld i.man 5 1))).any fun k => dfld i.man (0x10 + 2 * k) 2 == st
/-- Whether PEERS lists a type at an ABI level. -/
def Image272.knows (i : Image272) (ty abi : Nat) : Bool :=
  (List.range (min 24 (dfld i.man 6 1))).any fun k =>
    let p := dfld i.man (0x20 + 4 * k) 4
    fld p 31 24 == ty && fld p 15 0 == abi

/-- The images of a bank. -/
def State.images (s : State) (b : Nat) : List Image272 :=
  ((s.bankDir b).getD []).map (fun e => { off := bankBase b + e.1, len := e.2, man := s.fl (bankBase b + e.1) 272 }) |>.filter
    fun i => dfld i.man 0 4 == 0x54464E4D

/-- Item 2 of R628. -/
def State.imgSigned (s : State) (i : Image272) : Bool :=
  Config.sigOk 0 (i.man.take 0xB0) ((i.man.drop 0xB0).take 96) &&
    Config.sha384 (s.fl (i.off + 272) (i.len - 272)) == leNat ((i.man.drop 0x80).take 48)

/-- The stepping of every die of the part (R660). -/
def dieStepping : Nat := 0xB0

/-- The image types that the part needs (R628). -/
def State.imgTypes (s : State) : List Nat := [1, 2, 3] ++ if s.variant = 1 then [4] else []

/-- The images that are checked: the first of each needed type. -/
def State.checked (s : State) (b : Nat) : List Image272 :=
  s.imgTypes.filterMap fun t => (s.images b).find? fun i => i.type == t

/-- The ordered pairs of images that item 4 of R628 finds untested. -/
def State.badPairs (s : State) (b : Nat) : List (Image272 × Image272) :=
  (s.checked b).flatMap fun i => (s.checked b).filterMap fun j =>
    if i.type ≠ j.type ∧ !i.knows j.type j.abi then some (i, j) else none

/-- The check of R628: `none` when it passes, otherwise CAUSE, IMAGE, PEER, VERSION and VALUE of R630. -/
def State.bankFault (s : State) (b : Nat) : Option (Nat × Nat × Nat × Nat × Nat) :=
  let is := s.images b
  match s.imgTypes.find? fun t => (is.filter fun i => i.type == t).length != 1 with
  | some t => some (1, t, 0, ((is.find? fun i => i.type == t).map Image272.version).getD 0, 0)
  | none =>
    match (s.checked b).find? fun i => !s.imgSigned i with
    | some i => some (2, i.type, 0, i.version, 0)
    | none =>
      match (s.checked b).find? fun i => !i.fits dieStepping with
      | some i => some (3, i.type, 0, i.version, dieStepping)
      | none => (s.badPairs b).head?.map fun p => (4, p.1.type, p.2.type, p.1.version, p.2.abi)

/-- Whether a bank holds a verifiable ditchrider image (R631). -/
def State.bankBoots (s : State) (b : Nat) : Bool :=
  (s.bankDir b).isSome && ((s.images b).find? fun i => i.type == 1).any s.imgSigned

/-! ### What a start decides -/

/-- A record of the event log by the ditchrider or the boot ROM. -/
def State.noteEvent (s : State) (type origin target value : Nat) : State :=
  s.event { LogRec.none with time := s.time, type := type, origin := origin, part := 0xFF, target := target, value := value % 2 ^ 64 }

/-- GLB_STATE's STAGE. -/
def State.stage (s : State) (n : Nat) : State := s.setF 0x18 31 24 n

/-- An MSI-X message of every PF of a trained port (R624, R733). -/
def State.pfIrq (s : State) (vector : Nat) : State :=
  (List.range 4).foldl (fun s p => if bit s.boot.ports p then s.emit (.msix p 0 vector) else s) s

/-- FAULT_N as it should be driven (R714). -/
def State.setFault (s : State) (b : Bool) : State :=
  if s.pins.fault = b then s else { s with pins := { s.pins with fault := b } }.emit (.pin 1 (b2n !b))

/-- Recovery mode (R629, R630). -/
def State.recover (s : State) (c : Nat × Nat × Nat × Nat × Nat) : State :=
  let (cause, image, peer, version, value) := c
  let s := s.setReg 0x10008 (BitVec.ofNat 64 (cause <<< 60 + image <<< 56 + peer <<< 52 + version <<< 16 + value))
  let s := (s.setF 0x18 23 22 2).setF 0x18 21 20 2
  ({ s with boot := { s.boot with gen := (s.boot.gen + 1) % 2 ^ 32 } }.noteEvent 8 0 0x10008 (s.rn 0x10008)).setFault true

/-- The boot bank (R631): NEXT or ACTIVE, made ACTIVE with the start's BOOTNO; the other bank is tried once. -/
def State.selectBank (s : State) : State × Option Nat :=
  let (_, _, active, next, bootno) := s.flashHdr
  let b := if next < 2 then next else active
  let s := s.putHdr b 0xFF (bootno + 1)
  let s := s.setF 0x18 63 32 (bootno + 1)
  if s.bankBoots b then (s, some b)
  else
    let s := s.noteEvent 8 1 0 (1 - b)
    if s.bankBoots (1 - b) then (s, some (1 - b)) else (s, none)

/-- The licences checked (R637); every record rejected is logged. -/
def State.checkLicences (s : State) : State :=
  let (_, _, rs) := s.licCopy
  let good := rs.filter fun r => !erased r && s.licOk r
  let bad := rs.filter fun r => !erased r && !s.licOk r
  let feat := good.foldl (fun f r => Nat.lor f (dfld r 0x18 4)) 0
  let s := bad.foldl (fun s r => s.noteEvent 8 0 0x2000 (dfld r 0x1C 4)) s
  { s with licences := if s.variant = 1 then feat else setFld feat 4 4 0
           boot := { s.boot with licValid := good.length, licBad := bad.length, licFeat := feat } }

/-- The board record: NODE_ID, BOARD_CH, BOARD_GIB and BOARD_MTS, if it is valid (R653). -/
def State.boardRec (s : State) : Option (Nat × Nat × Nat × Nat) :=
  let b := s.fl 0x10000 128
  let f := dfld b
  if f 0 4 = 0x44524142 ∧ f 0x7C 4 = crc32c (b.take 0x7C) then some (f 4 2, f 6 2, f 8 2, f 0xA 2) else none

/-- NODE_ID from the board record (R653); a locked LEA_NODE keeps its value. -/
def State.takeNode (s : State) : State :=
  match s.boardRec with
  | none => s
  | some (id, _) => if s.rb 0x70000 16 ∨ id = 0 ∨ id = 0xFFFF then s else s.setReg 0x70000 (BitVec.ofNat 64 (0x10000 + id))

/-- The sites that applied soft-defect entries name (R641, R645). -/
def State.listedSites (s : State) : Nat :=
  (s.defects.filter fun d => d.kind == 1 && d.st == 1).foldl (fun m d => Nat.lor m (2 ^ d.unit)) 0

/-- The slots of compute die `d` assigned (R641): slot, site and whether it is OFFLINE, in slot order. -/
def State.assignDie (s : State) (d bad : Nat) : List (Nat × Nat × Bool) :=
  let site (p : Nat → Bool) : Option Nat := ((List.range 5).find? p).map fun k => 5 * d + k
  let spare := site fun k => siteState (s.fuse d) k == 1
  ((List.range (s.dieSlots d)).foldl (fun (a : List (Nat × Nat × Bool) × Bool) j =>
    let holder := (site fun k => siteState (s.fuse d) k == 0 && siteSlot (s.fuse d) k == j).getD (5 * d)
    if !bit bad holder then (a.1 ++ [(j, holder, false)], a.2)
    else match spare with
      | some k => if a.2 || bit bad k then (a.1 ++ [(j, holder, true)], a.2) else (a.1 ++ [(j, k, false)], true)
      | none => (a.1 ++ [(j, holder, true)], a.2)) ([], false)).1

/-- The number of a die's first tile (R643). -/
def State.firstTile (s : State) (d : Nat) : Nat := (List.range d).foldl (fun n e => n + s.dieSlots e) 0

/-- Tile sites assigned (R641, R642, R648, R655, R707): `fails` are the sites that fail self-test, `dead` the compute dies
that do not work or have no rail. -/
def State.assignSites (s : State) (fails dead : Nat) : State :=
  let tested := (List.range 80).filter fun k => bit fails k && siteState (s.fuse (k / 5)) (k % 5) != 2
  let s := tested.foldl (fun s k => s.defect 1 k 0 1) s
  let bad := tested.foldl (fun m k => Nat.lor m (2 ^ k)) s.listedSites
  let s := { s with holders := [], offline := 0, boot := { s.boot with badSites := bad } }
  (List.range 16).foldl (fun s d =>
    (s.assignDie d bad).foldl (fun s e =>
      let (j, k, off) := e
      let t := s.firstTile d + j
      { s with holders := if k = s.fusedSite t then s.holders else spSet dNat s.holders t k
               offline := if off || bit dead d then Nat.lor s.offline (2 ^ t) else s.offline }) s) s

/-- The dies that the part fits, numbered as DIE_OK (R662). -/
def State.fittedDies (s : State) : List Nat :=
  (List.range 40).filter fun i => if 20 ≤ i ∧ i < 32 then s.fittedSites.contains (i - 20) else decide (i < 38) || s.variant == 1

/-- The level of R695: 0 FULL, 1 DEGRADED, 2 NONE. -/
def State.serviceLevel (s : State) : Nat :=
  let tiles := (List.range 64).any s.tileUp
  let hub := (List.range 4).any fun h => !bit s.boot.deadDies (16 + h) && decide (0 < s.hubStacks h)
  let io := [36, 37].any fun i => !bit s.boot.deadDies i
  if !(tiles && hub && io && s.boot.ports != 0) then 2
  else if s.fittedDies.all (fun i => !bit s.boot.deadDies i) && s.offline == 0 && s.sites == s.fittedSites &&
    s.boards == s.boot.declared && s.boot.lostCh == 0 && [0, 1].all (fun d => fld s.medDead (4 * d + 2) (4 * d) != 7) && s.rb 0x10000 2 then 0 else 1

/-- The capability block changes: GEN advances (R663). -/
def State.capChange (s : State) : State := { s with boot := { s.boot with gen := (s.boot.gen + 1) % 2 ^ 32 } }

/-- SERVICE set after a change of the part (R696): on a change of level the enabled partitions are notified and the change is
logged. -/
def State.reservice (s : State) : State :=
  let old := s.rf 0x18 21 20
  let new := s.serviceLevel
  if old = new then s
  else
    let s := s.capChange.setF 0x18 21 20 new
    let s := s.logRec 8 Origin.drd 0 0x18 (s.rn 0x18)
    let s := (List.range 8).foldl (fun s p => if s.rb (partCfg p) 63 then s.rasBit p 2 else s) s
    if new = 2 then s.setFault true else s

/-- Applied kind 3 entries loaded into the row-remap tables (R650). -/
def loadRemaps : Dev Unit := do
  forAll ((← get).defects.filter fun d => d.kind == 3 && d.st == 1) fun d => do
    let s ← get
    if (s.remaps.filter fun r => r.hub == d.unit / 3).length < 1024 then
      let (v, s) := s.fresh
      let e : Remap := { hub := d.unit / 3, stack := d.unit, pch := fld d.loc 25 20, bank := fld d.loc 19 14, row := fld d.loc 13 0
                         target := v.toNat }
      set { s with remaps := s.remaps ++ [e] }

/-- The stacks qualified and each hub's operating point set (R329, R649 to R651). -/
def qualifyStacks (b : Findings) : Dev Unit := do
  upd fun s =>
    let listed := (s.defects.filter fun d => d.kind == 4 && d.st == 1).foldl (fun m d => Nat.lor m (2 ^ d.unit)) 0
    let failed := s.fittedSites.filter fun k => bit b.badStacks k && !bit listed k
    let s := failed.foldl (fun s k => s.defect 4 k 0 2) s
    let noHub := (List.range 12).foldl (fun m k => if bit b.deadDies (16 + k / 3) || bit b.deadDies (20 + k) then Nat.lor m (2 ^ k) else m) 0
    { s with excluded := failed.foldl (fun m k => Nat.lor m (2 ^ k)) (Nat.lor listed noHub) }
  upd fun s => (List.range 4).foldl (fun s h => (s.setF (hubReg h 0) 1 0 (b.hubOp.getD h 3)).setF (hubReg h 0) 31 31 1) s
  loadRemaps
  forAll b.weakRows retireRow
  upd fun s => { s with boot := { s.boot with lost := (s.frames.filter fun e => e.2.state == 3).length } }

/-- The board tier qualified (R366, R367, R652). -/
def State.qualifyBoards (s : State) (b : Findings) : State :=
  let declared := ((s.boardRec).map fun r => r.2.1).getD 0xFFFF
  let listed := (s.defects.filter fun d => d.kind == 5 && d.st == 1).foldl (fun m d => Nat.lor m (2 ^ d.unit)) 0
  let failed := (List.range 16).filter fun c => bit declared c && bit b.badChans c && !bit listed c
  let s := failed.foldl (fun s c => s.defect 5 c 0 2) s
  let bad := failed.foldl (fun m c => Nat.lor m (2 ^ c)) (Nat.land declared listed)
  let left := if bad = 0 then declared else if Nat.land bad 0x3333 = 0 then Nat.land declared 0x3333 else 0
  let left := if left = 0xFFFF ∨ left = 0x3333 then left else 0
  { s with boards := left, boardGib := ((s.boardRec).map fun r => r.2.2.1).getD b.boardGib
           boardMts := min b.boardMts (((s.boardRec).map fun r => r.2.2.2).getD 9600)
           boot := { s.boot with declared := declared } }

/-- The images of the booted bank checked (R628): recovery mode when the check fails. -/
def checkImages (bank : Nat) : Dev Bool := do
  let s ← get
  match s.bankFault bank with
  | some c => do
    upd fun s => (s.badPairs bank).foldl (fun s p => s.noteEvent 8 0 p.1.type (p.2.type <<< 16 + p.2.abi)) s
    upd fun s => s.recover c
    return false
  | none => do
    let is := s.checked bank
    let at' (f : Image272 → Nat) : List Nat := (List.range 4).map fun t => ((is.find? fun i => i.type == t + 1).map f).getD 0
    upd fun s => { s with boot := { s.boot with fwVer := at' Image272.version, fwAbi := at' Image272.abi } }
    return true

/-- The tiles of partition 0 after a start: every exposed tile (R666). -/
def State.exposeTiles (s : State) : State := s.setReg (partTiles 0) (BitVec.ofNat 64 (2 ^ s.nTiles - 1))

/-- The dies that a start finds out of work, a compute die without its rail included. -/
def deadTiles (b : Findings) : Nat := Nat.lor (b.deadDies % 65536) (b.vrDead % 65536)

/-- The end of a start (R624, R663, R695): the capability block, the service level and readiness. -/
def finishStart (b : Findings) : Dev Unit := do
  upd fun s => (s.exposeTiles.setF 0x10000 2 2 (b2n b.pairOk)).capChange
  upd fun s => { s with medDead := (s.defects.filter fun d => d.kind == 8 && d.st == 1).foldl (fun m d => Nat.lor m (2 ^ d.unit)) 0 }
  let s ← get
  let lvl := s.serviceLevel
  if lvl = 2 then upd fun s => s.recover (0, 0, 0, 0, 0)
  else do
    upd fun s => ((s.setF 0x18 21 20 lvl).setF 0x18 23 22 1).stage 0xFF
    upd fun s => (s.logRec 8 Origin.drd 0 0x18 (s.rn 0x18)).pfIrq 0

/-- What a start does from the licences to the package fabric (stages 0x04 to 0x06 of R623). -/
def commonStart (b : Findings) : Dev Unit := do
  upd fun s => s.checkLicences.takeNode
  upd fun s => { s with boot := { s.boot with deadDies := b.deadDies, vrDead := b.vrDead } }

/-- A cold start (R623). -/
def coldStart (b : Findings) : Dev Unit := do
  if b.testLow || !b.fuseOk then upd fun s => s.setFault true
  else do
    upd fun s => s.stage 2
    let (s, bank) := (← get).selectBank
    set s
    upd fun s => { s with boot := { s.boot with ports := b.ports % 16 } }
    match bank with
    | none => upd fun s => s.recover (5, 1, 0, 0, 0)
    | some bank => do
      upd fun s => s.stage 3
      if ← checkImages bank then do
        upd fun s => s.stage 4
        commonStart b
        upd fun s => s.stage 7
        qualifyStacks b
        upd fun s => (s.qualifyBoards b).stage 9
        upd fun s => (s.assignSites b.badSites (deadTiles b)).stage 0xA
        finishStart b

/-- What cold reset leaves of the state: the fuses, the flash, the lands, the commands that wait and what has been sent.
An open staging ends (R634). -/
def State.cleared (s : State) : State :=
  { State.reset with
    pending := s.pending, outs := s.outs, free := s.free, nextId := s.nextId, variant := s.variant, uid := s.uid
    fuses := s.fuses, revoked := s.revoked, flash := s.flash, defects := s.defects, defPrev := s.defPrev, defSeq := s.defSeq
    defDropped := s.defDropped, events := s.events, pins := s.pins
    fw := { FwUnit.none with code := if s.fw.staging.isSome then 0x0E06 else 0 } }

/-- COLD_RESET_RELEASE (R623, R708): COLD_RST_N is released with power good, and the part starts; device time counts from
0. -/
def execColdResetRelease (b : Findings) (s : State) : Res := Dev.run' (do
  if s.pins.cold ∧ s.pins.pwrgd ∧ s.pins.standby then
    upd fun s => { s with time := 0, pins := { s.pins with cold := false } }
    coldStart b) s

/-- The part under cold reset. -/
def State.coldReset (s : State) : State :=
  let s := s.cleared
  let s := if s.pins.trip then s.emit (.pin 2 1) else s
  ({ s with pins := { s.pins with cold := true, trip := false } }).setFault false

/-- COLD_RESET_ASSERT (R709, R717): an assertion held for 10 µs. -/
def execColdResetAssert (us : Nat) (s : State) : Res :=
  .next (if 10 ≤ us ∧ s.pins.standby then s.coldReset else s)

/-- STANDBY_POWER_UP (R708, R714): the always-on island powers up under cold reset and samples SMB_ADDR. -/
def execStandbyPowerUp (strap : Nat) (s : State) : Res :=
  .next (if s.pins.standby then s
    else { s.cleared with pins := { Pins.reset with pwrgd := false, smb := strap % 8 } })

/-- PWRGD_ASSERT (R708): after the rails and clocks, with COLD_RST_N held. -/
def execPwrgdAssert (s : State) : Res :=
  .next (if s.pins.standby ∧ s.pins.cold then { s with pins := { s.pins with pwrgd := true } } else s)

/-- PWRGD_LOSS (R709, R717): a level of at least 1 µs; with COLD_RST_N high it acts as cold reset, drives FAULT_N and is
recorded. -/
def execPwrgdLoss (us : Nat) (s : State) : Res :=
  .next (if us = 0 ∨ !s.pins.pwrgd then s
    else
      let s := { s with pins := { s.pins with pwrgd := false } }
      if s.pins.cold then s else (s.noteEvent 8 0 0 0).coldReset.setFault true)

/-! ### Warm restart -/

/-- A register of the always-on island or of R658's list, kept over a warm restart. -/
def State.warmRegs (s : State) : Sparse W64 :=
  let keep (off hi lo : Nat) (m : Sparse W64) : Sparse W64 :=
    spSet regInit m off (BitVec.ofNat 64 (setFld (spGet regInit m off).toNat hi lo (s.rf off hi lo)))
  let m := [0x40008, 0x40010, 0x40020, 0x70000].foldl (fun m off => keep off 63 0 m) ([] : Sparse W64)
  let m := (List.range 4).foldl (fun m h => keep (hubReg h 0) 63 0 m) m
  let m := (List.range 40).foldl (fun m i => keep (0x30400 + 8 * i) 15 8 m) m
  (List.range 12).foldl (fun m k => keep (hubReg (k / 3) (0x200 + 8 * (k % 3))) 3 1 m) m

/-- What a warm restart keeps (R658): memory, page states, the change log, device time, memory qualification, the PCIe
links, and the power brake and clamp of the always-on island. Records of an overflow region that is no longer configured
are lost. -/
def State.warmCleared (s : State) : State :=
  let k := s.cleared
  let head := s.rn 0x40008
  let tail := max (s.rn 0x40010) (head - 65536)
  { k with
    regs := spSet regInit s.warmRegs 0x40010 (BitVec.ofNat 64 tail)
    mem := s.mem, units := s.units, frames := s.frames, remaps := [], log := s.log.filter (fun e => decide (tail ≤ e.1))
    time := s.time, excluded := s.excluded, boards := s.boards, boardGib := s.boardGib, boardMts := s.boardMts
    pcieDown := s.pcieDown, jseq := s.jseq
    power := { Power.none with brake := s.power.brake, clamp := s.power.clamp }
    boot := { Boot.none with ports := s.boot.ports, gen := s.boot.gen, lost := s.boot.lost
                             declared := s.boot.declared, lostCh := s.boot.lostCh } }

/-- A warm restart (R657 to R659): from step 0x13 in recovery mode. -/
def warmStart (b : Findings) : Dev Unit := do
  if (← get).ready then forAll (← get).msc fun e => flushLine (e.1 * 256)
  upd fun s => ((s.warmCleared.setF 0x18 19 19 1).stage 0x13)
  upd fun s => if s.power.brake then s.setF 0x30008 61 61 1 else s
  let (s, bank) := (← get).selectBank
  set s
  match bank with
  | none => upd fun s => s.recover (5, 1, 0, 0, 0)
  | some bank => do
    upd fun s => s.stage 0x14
    if ← checkImages bank then do
      commonStart b
      upd fun s => s.stage 0x15
      loadRemaps
      upd fun s => s.stage 0x16
      upd fun s => (s.assignSites b.badSites (deadTiles b)).stage 0x17
      finishStart b

/-- WARM_RESTART (R656 to R659, R717): from GLB_RESET (`v`), from the pin held for 10 µs, or by the ditchrider's own
decision. One during LIC_ADD or DEFECT_CLEAR waits. -/
def execWarmRestart (v : Option Nat) (us : Nat) (o : Origin) (b : Findings) (s : State) : Res := Dev.run' (do
  let go : Dev Unit := do
    match (← get).fw.busy with
    | some (5, _) => stall
    | some (6, _) => stall
    | _ => warmStart b
  if s.pins.cold ∨ s.pins.trip ∨ s.rf 0x18 31 24 = 1 then pure ()
  else match v with
    | some v => do
      let ok := fld v 31 16 == 0xA5C3 && (o.isDrd || originPf0 o)
      logWrite o (if ok then 1 else 2) 0x20 v
      if ok then shadowed 0x20 (v % 2 ^ 32)
      if ok ∧ bit v 0 then go
    | none =>
      if o.isDrd then do
        logWrite o 8 0x20 0
        go
      else if 10 ≤ us then go) s

/-! ### Updating the flash -/

/-- The register DRD_FW_CTRL starts an operation (R632 to R635). -/
def fwStart (op len : Nat) (o : Origin) : Dev Unit := do
  let s ← get
  let v := op <<< 60 + len % 2 ^ 32
  regWrite o 0x10010 v ((originPf0 o || o.cls == 4) && s.fw.busy.isNone) do
    shadowed 0x10010 v
    upd fun s => { s with fw := { s.fw with busy := some (op, len % 2 ^ 32) } }

/-- FW_BEGIN (R632, R634). -/
def execFwBegin (len : Nat) (o : Origin) (s : State) : Res := Dev.run' (fwStart 1 len o) s
/-- FW_CHUNK (R632, R634). -/
def execFwChunk (len : Nat) (o : Origin) (s : State) : Res := Dev.run' (fwStart 2 len o) s
/-- FW_COMMIT (R632, R634). -/
def execFwCommit (len : Nat) (o : Origin) (s : State) : Res := Dev.run' (fwStart 3 len o) s
/-- FW_ABORT (R632, R634). -/
def execFwAbort (len : Nat) (o : Origin) (s : State) : Res := Dev.run' (fwStart 4 len o) s
/-- LIC_ADD (R632, R638). -/
def execLicAdd (len : Nat) (o : Origin) (s : State) : Res := Dev.run' (fwStart 5 len o) s
/-- DEFECT_CLEAR (R632, R647). -/
def execDefectClear (len : Nat) (o : Origin) (s : State) : Res := Dev.run' (fwStart 6 len o) s
/-- FW_READ (R632): OP 7. -/
def execFwRead (len : Nat) (o : Origin) (s : State) : Res := Dev.run' (fwStart 7 len o) s

/-- The bytes of DRD_FW_WIN. -/
def State.fwWin (s : State) (n : Nat) : List Byte := ((List.range (ceilDiv n 8)).flatMap fun i => leBytes 8 (s.rn (0x20000 + 8 * i))).take n
/-- Bytes put into DRD_FW_WIN. -/
def State.putWin (s : State) (bs : List Byte) : State :=
  (List.range 8192).foldl (fun s i => s.setReg (0x20000 + 8 * i) (BitVec.ofNat 64 (leNat ((bs.drop (8 * i)).take 8)))) s
/-- The bank that is staged: the one that is not ACTIVE. -/
def State.stagedBank (s : State) : Nat := 1 - s.flashHdr.2.2.1

/-- A licence record added to the area (R622, R638). -/
def State.addLicence (s : State) (r : List Byte) : Option State :=
  let (k, seq, rs) := s.licCopy
  match (List.range 32).find? fun i => erased (rs.getD i []) with
  | none => none
  | some i =>
    let body := List.replicate 56 0 ++ (rs.set i r).flatten ++ List.replicate 4032 0xFF
    let h := leBytes 4 (seq + 1)
    some (s.flWrite (0x20000 + 8192 * (1 - k)) (h ++ leBytes 4 (crc32c (h ++ List.replicate 4 0 ++ body)) ++ body))

/-- What an operation of the flash unit does, and its CODE (R634, R638, R647). -/
def State.fwOp (s : State) (op len : Nat) (flashOk : Bool) : State × Nat :=
  let ended (s : State) : State := { s with fw := { s.fw with staging := none } }
  if op = 1 then
    if s.fw.staging.isSome then (s, 0x0E01)
    else if len = 0 ∨ 31457280 < len then (s, 0x0E05)
    else if !flashOk then (s, 0x0E04)
    else
      let (_, _, active, next, bootno) := s.flashHdr
      let s := if next = 0xFF then s else s.putHdr active 0xFF bootno
      ({ s with fw := { s.fw with staging := some len, got := 0, pend := false } }, 0)
  else if op = 2 then
    match s.fw.staging with
    | none => (s, 0x0E05)
    | some total =>
      if len = 0 ∨ 65536 < len ∨ total < s.fw.got + len then (s, 0x0E05)
      else if !flashOk then (s, 0x0E04)
      else
        let s := s.flWrite (bankBase s.stagedBank + s.fw.got) (s.fwWin len)
        ({ s with fw := { s.fw with got := s.fw.got + len } }, 0)
  else if op = 3 then
    if s.fw.staging ≠ some s.fw.got then (ended s, 0x0E05)
    else match s.bankFault s.stagedBank with
      | some c => (ended s, if c.1 = 2 then 0x0E02 else 0x0E03)
      | none =>
        if !flashOk then (ended s, 0x0E04)
        else
          let (_, _, active, _, bootno) := s.flashHdr
          let s := ended (s.putHdr active s.stagedBank bootno)
          ({ s with fw := { s.fw with pend := true } }, 0)
  else if op = 4 then (ended s, if s.fw.staging.isSome then 0x0E06 else 0)
  else if op = 5 then
    let r := s.fwWin 128
    if s.fw.staging.isSome then (s, 0x0E01)
    else if !s.licOk r then (s, 0x0E07)
    else match s.addLicence r with
      | none => (s, 0x0E08)
      | some s' => if flashOk then (s', 0) else (s, 0x0E04)
  else if op = 6 then
    if s.fw.staging.isSome then (s, 0x0E01)
    else match s.defects[len]? with
      | none => (s, 0x0E09)
      | some d =>
        if d.kind ≠ 5 ∧ d.kind ≠ 6 then (s, 0x0E09)
        else if !flashOk then (s, 0x0E04)
        else ({ s with defects := s.defects.set len { d with st := 2 }, defPrev := s.defects, defSeq := (s.defSeq + 1) % 2 ^ 32 }, 0)
  else if op = 7 then (if flashOk then (s.putWin (s.flashRead len 65536), 0) else (s, 0x0E04))
  else (s, 0)

/-- FW_OP_COMPLETE (R622, R633, R634, R638, R647): the operation that runs ends; `flashOk` is whether the flash was written
or read without an error. -/
def execFwOpComplete (flashOk : Bool) (s : State) : Res :=
  .next (match s.fw.busy with
    | none => s
    | some (op, len) =>
      let (s, code) := s.fwOp op len flashOk
      { s with fw := { s.fw with busy := none, code := code } })

end Sys2Proof.Machine
end

