-- ==== Sys2Proof/Machine/Sprinkle.lean ====
section
/-! DEFINITION. The sprinkle path (R421 to R429). -/

namespace Sys2Proof.Machine

/-- An operation of R423 on two 32-bit values. -/
def spkOp (op a b : Nat) : Nat :=
  match op with
  | 0 => fp32Bits ((fp32.dec a).add (fp32.dec b))
  | 1 => (a + b) % 2 ^ 32
  | 2 => fp32Bits ((fp32.dec a).max' (fp32.dec b))
  | 3 => fp32Bits ((fp32.dec a).min' (fp32.dec b))
  | 4 => max a b
  | 5 => min a b
  | 6 => Nat.land a b
  | 7 => Nat.lor a b
  | _ => 0

/-- Values reduced in the order given, each with its PRESENT (R424). -/
def spkReduce (op : Nat) : List (Nat × List Nat) → Nat × List Nat
  | [] => (0, [])
  | x :: xs => xs.foldl (fun a b => (a.1 + b.1, List.zipWith (spkOp op) a.2 b.2)) x

/-- The key of an epoch: COMM, slot, and epoch counted from when the communicator was enabled. -/
abbrev SpkKey := Nat × Nat × Nat
/-- An epoch at this package. -/
def State.spkAt (s : State) (k : SpkKey) : Option SpkOp :=
  s.spkOps.find? fun o => o.comm == k.1 && o.slot == k.2.1 && o.epoch == k.2.2
/-- An epoch changed, or begun. -/
def State.modSpk (s : State) (k : SpkKey) (f : SpkOp → SpkOp) : State :=
  if (s.spkAt k).isSome then
    { s with spkOps := s.spkOps.map fun o => if o.comm == k.1 && o.slot == k.2.1 && o.epoch == k.2.2 then f o else o }
  else
    let o : SpkOp := { comm := k.1, slot := k.2.1, epoch := k.2.2, stages := 0, op := 0, count := 0, posts := [], recv := []
                       up := 0, result := none, closed := false }
    { s with spkOps := s.spkOps ++ [f o] }

/-- Where the posts of a tile on a communicator and slot are counted; tile 64 stands for the epoch that the engine expects
(R426). -/
def spkCountKey (t comm slot : Nat) : Nat := t * 512 + comm * 8 + slot
/-- The epoch that the engine expects on a communicator and slot: the first that has no result yet. -/
def State.spkNext (s : State) (comm slot : Nat) : Nat := spGet dNat s.spkEpoch (spkCountKey 64 comm slot)

/-- The result record (R425). -/
def spkRecord (vals : List Nat) (status epoch present time : Nat) : List Byte :=
  let vs := vals.flatMap (leBytes 4)
  vs ++ List.replicate (64 - vs.length) 0 ++ leBytes 2 status ++ leBytes 2 epoch ++ leBytes 4 present ++ leBytes 8 time ++
    List.replicate 48 0

/-- A post's result record written (R425, R429, R477). -/
def spkWrite (k : SpkKey) (i status present : Nat) (vals : List Nat) : Dev Unit := do
  let s ← get
  match (s.spkAt k).bind fun o => o.posts[i]? with
  | none => pure ()
  | some p =>
    if p.wrote then pure ()
    else
      let live := spkRecord vals status (k.2.2 % 65536) present s.time
      let r ← attempt (jrnPass (.tile p.tile) (s.tilePart p.tile) p.jmode p.jstep 5 2 (k.1 % 4) k.1 live)
      upd fun s => s.modSpk k fun o => { o with posts := o.posts.modify i fun p => { p with wrote := true } }
      match r with
      | .ok bs => upd fun s => (s.setTile p.tile ((s.tile p.tile).cisPut p.dst bs)).perf (slcReg (k.1 % 4) 0x128) 1
      | .error (code, _) => upd fun s => abortTile s p.tile (s.tile p.tile) code 0

/-- Results sent down to the members of the stages below `top` that this package leads (R424). -/
def spkDown (k : SpkKey) (c : SlcComm) (o : SpkOp) (top present : Nat) (vals : List Nat) : Dev Unit :=
  forAll ([3, 2, 1].filter fun l => decide (l < top) && bit o.stages l) fun l =>
    forAll ((List.range (c.nOf o.stages l)).filter (· != c.rankIn o.stages l)) fun q => upd fun s =>
      s.spkTo c l q (spkMsg 0x12 o.op (o.count - 1) k.2.1 k.1 (k.2.2 % 65536) (c.global o.stages 0) present l
        (vals.flatMap (leBytes 4)))

/-- An epoch's result becomes known at this package, from stage `top`: it goes down, and every post gets its record (R424,
R427). -/
def spkResult (k : SpkKey) (c : SlcComm) (top present : Nat) (vals : List Nat) : Dev Unit := do
  match (← get).spkAt k with
  | none => pure ()
  | some o =>
    let status := if present < c.total o.stages then 0xA21 else 0
    upd fun s => s.modSpk k fun o => { o with result := some (status, present, vals), closed := true }
    upd fun s => { s with spkEpoch := spSet dNat s.spkEpoch (spkCountKey 64 k.1 k.2.1) (max (s.spkNext k.1 k.2.1) (k.2.2 + 1)) }
    spkDown k c o top present vals
    forAll (List.range o.posts.length) fun i => spkWrite k i status present vals

/-- The value of the package stage: its tiles in ascending order (R424). -/
def spkPackage (c : SlcComm) (o : SpkOp) : Nat × List Nat :=
  let l := (List.range 64).flatMap fun t => o.posts.filter fun p => p.tile == t
  spkReduce o.op (((if bit o.stages 0 then l.filter fun p => bit c.mask p.tile else l.take 1)).map fun p => (1, p.vals))

/-- What an epoch can do now: reduce, send up, or end (R424). `force` ends it at the top leader with what has arrived
(R427). -/
def spkStep (k : SpkKey) (force : Bool) : Dev Unit := do
  let s ← get
  match s.comm k.1, s.spkAt k with
  | some c, some o =>
    let st := o.stages
    let posted := if bit st 0 then (List.range 64).all fun t => !bit c.mask t || o.posts.any fun p => p.tile == t
      else o.posts != []
    if o.closed || o.posts == [] || !(posted || force) then pure ()
    else
      -- the stages that this package leads, up to the one where it is a member
      let top := ([1, 2, 3].find? fun l => bit st l && c.rankIn st l != 0).getD 4
      let led := [1, 2, 3].filter fun l => decide (l < top) && bit st l
      let missing := led.any fun l => (List.range (c.nOf st l)).any fun q =>
        q != c.rankIn st l && !(o.recv.any fun r => r.1 == l && r.2.1 == q)
      if missing && !force then pure ()
      else
        let (present, vals) := led.foldl (fun a l =>
          spkReduce o.op (a :: (List.range (c.nOf st l)).filterMap fun q =>
            (o.recv.find? fun r => r.1 == l && r.2.1 == q).map fun r => r.2.2)) (spkPackage c o)
        if top = 4 then spkResult k c 4 present vals
        else if o.up = 0 then do
          upd fun s => s.spkTo c top 0 (spkMsg 0x11 o.op (o.count - 1) k.2.1 k.1 (k.2.2 % 65536) (c.global st 0) present top
            (vals.flatMap (leBytes 4)))
          upd fun s => s.modSpk k fun o => { o with up := 1 }
  | _, _ => pure ()

/-- SPK FN 0 (R422, R423, R426): the check of the communicator comes before that of OP. -/
def execSpkPost (t : Nat) (w : IWord) (x : W64) (s : State) : Res :=
  fnInstr 0 w <| deviceInstr s t (.spkPost t w x) 0x72 w x fun s tl kx => inDev t (do
    let sa := (tl.s kx w.sa).toNat
    let comm := fld sa 15 0
    let stages := fld sa 19 16
    let slot := fld w.imm.toNat 2 0
    let op := fld w.imm.toNat 7 4
    let count := fld w.imm.toNat 11 8 + 1
    let s ← get
    must (decide (comm < 64) && s.slcCommOk (s.tilePart t) (some t) { slcD [] with comm := comm, stages := stages }) 0xA02
    must (decide (op ≤ 8)) 0xA01
    let ctx := tl.ctx kx.c
    let bytes ← liftEx (if op = 8 then .ok [] else cisRead tl kx.k (specCis ctx (specA x)) 64)
    liftEx (inAlloc kx.k (specCis ctx (specB x)) 128)
    let held := (s.spkOps.filter fun o => o.slot == slot).flatMap fun o => o.posts.filter fun p => p.tile == t && !p.waited
    if 256 ≤ held.length then stall
    let key := spkCountKey t comm slot
    let n := spGet dNat s.spkEpoch key
    let k : SpkKey := (comm, slot, n)
    let run := tl.run
    let p : SpkPost := { tile := t, t0 := s.time, dst := kx.k.cisOff + specCis ctx (specB x), jmode := (run.map (·.jmode)).getD 0
                         jstep := (run.map (·.jstep)).getD 0, vals := if op = 8 then [] else (wordsOf 4 count bytes)
                         wrote := false, waited := false }
    upd fun s => { s with spkEpoch := spSet dNat s.spkEpoch key (n + 1) }
    let late := (s.spkAt k).bind fun o => o.result
    upd fun s => s.modSpk k fun o => { o with stages := stages, op := op, count := count, posts := o.posts ++ [p] }
    match late with
    | some (status, present, vals) => do
      -- the result was sent down without this member: its values come too late
      upd fun s => s.count (slcReg (comm % 4) 0x40) 1
      spkWrite k ((((← get).spkAt k).map fun o => o.posts.length).getD 1 - 1) status present vals
    | none => spkStep k false
    return .done ((← get).tile t).effect) s tl

/-- SPK FN 1 (R422). -/
def execSpkWait (t : Nat) (w : IWord) (x : W64) (s : State) : Res :=
  fnInstr 1 w <| deviceInstr s t (.spkWait t w x) 0x72 w x fun s tl _ =>
    let slot := fld w.imm.toNat 2 0
    let held := s.spkOps.flatMap fun o => (o.posts.filter fun p => o.slot == slot && p.tile == t && !p.waited).map fun p => (o, p)
    match held with
    | [] => (s, .done tl)
    | h :: hs =>
      let (o, p) := hs.foldl (fun a b => if b.2.t0 < a.2.t0 then b else a) h
      if p.wrote then
        (s.modSpk (o.comm, o.slot, o.epoch) fun o =>
          { o with posts := o.posts.map fun q => if q == p then { q with waited := true } else q }, .done tl)
      else (s, .wait tl [])

/-- SPRINKLE_MESSAGE_RECEIVE (R424, R426, R427). -/
def execSprinkleMessageReceive (msg : List Byte) (s : State) : Res := Dev.run' (do
  let f := dfld msg
  let kind := f 0 1
  let comm := f 4 2
  let slot := f 3 1
  let stage := f 0x10 1
  let count := f 2 1 + 1
  let h := comm % 4
  upd fun s => s.leaTake 3 msg
  let s ← get
  match s.comm comm with
  | none => pure ()
  | some c =>
    let next := s.spkNext comm slot
    let diff := (f 6 2 + 65536 - next % 65536) % 65536
    let vals := if f 1 1 = 8 then [] else wordsOf 4 count (msg.drop 0x20)
    if kind ≠ 0x11 ∧ kind ≠ 0x12 then pure ()
    else if 32768 ≤ diff then
      let e := next + diff - 65536
      let o := if next + diff < 65536 then none else s.spkAt (comm, slot, e)
      let missed := kind == 0x11 && o.any fun o => (o.result.map (·.1)) == some 0xA21 &&
        !(o.recv.any fun r => r.1 == stage && r.2.1 == c.rankOf o.stages stage (f 8 4))
      upd fun s => s.count (slcReg h (if missed then 0x40 else 0x30)) 1
    else if 256 ≤ diff then upd fun s => s.count (slcReg h 0x38) 1
    else
      let k : SpkKey := (comm, slot, next + diff)
      let st := ((s.spkAt k).map fun o => if o.posts = [] then 0 else o.stages).getD 0
      let st := if st = 0 then [1, 2, 3].foldl (fun v l => if c.alg l = 0xFF then v else v + 2 ^ l) 1 else st
      let q := c.rankOf st stage (f 8 4)
      if ((s.spkAt k).any fun o => o.closed || (kind == 0x11 && o.recv.any fun r => r.1 == stage && r.2.1 == q)) then
        upd fun s => s.count (slcReg h 0x30) 1
      else if kind = 0x11 then do
        upd fun s => s.modSpk k fun o => { o with recv := o.recv ++ [(stage, q, f 0xC 4, vals)] }
        spkStep k false
      else do
        upd fun s => s.modSpk k fun o => if o.posts = [] then { o with stages := st, op := f 1 1, count := count } else o
        spkResult k c stage (f 0xC 4) vals) s

/-- TIMEOUT_US of a communicator's partition in ns (R433). -/
def State.spkTimeout (s : State) (comm : Nat) : Nat := s.rf (0x50400 + 8 * s.commPart comm) 15 0 * 1000

/-- SPK_LEADER_TIMEOUT (R427). -/
def execSpkLeaderTimeout (comm slot epoch : Nat) (s : State) : Res := Dev.run' (do
  let k : SpkKey := (comm, slot, epoch)
  let s ← get
  match s.comm comm, s.spkAt k with
  | some c, some o =>
    let leads := [1, 2, 3].all fun l => !bit o.stages l || c.rankIn o.stages l == 0
    if leads && !o.closed && (o.posts.head?.any fun p => decide (p.t0 + s.spkTimeout comm ≤ s.time)) then spkStep k true
  | _, _ => pure ()) s

/-- SPK_MEMBER_TIMEOUT (R427): 2 × TIMEOUT_US after its post, a member without a result completes it. -/
def execSpkMemberTimeout (t comm slot epoch : Nat) (s : State) : Res := Dev.run' (do
  let k : SpkKey := (comm, slot, epoch)
  let s ← get
  match s.spkAt k with
  | none => pure ()
  | some o =>
    match o.posts.findIdx? fun p => p.tile == t && !p.wrote && decide (p.t0 + 2 * s.spkTimeout comm ≤ s.time) with
    | none => pure ()
    | some i => spkWrite k i 0xA21 0 ((List.range o.count).map fun _ => 0)) s

/-- The sprinkle posts of a tile dropped when it is frozen (R674). -/
def State.spkCancel (s : State) (t : Nat) : State :=
  { s with spkOps := s.spkOps.map fun o =>
      { o with posts := o.posts.map fun p => if p.tile == t then { p with wrote := true, waited := true } else p } }

end Sys2Proof.Machine
end

