-- ==== Sys2Proof/Machine/Loader.lean ====
section
/-! DEFINITION. The commands of target 0 (R75 to R80, R115 to R135, R754, R755): launches, the loader, context switches,
and the registers that configure contexts. -/

namespace Sys2Proof.Machine

/-! ### Registers of contexts -/

/-- A tile's register by its offset in the normal view (R738). -/
def tileReg (t off : Nat) : Nat := 0x1000000 + 0x40000 * t + off

/-- SEQ_TILE_STATUS.CFG_ERR set. -/
def Tile.cfgErr (tl : Tile) : Tile :=
  tl.setReg 0x1020 (BitVec.ofNat 64 (setFld (tl.reg 0x1020).toNat 32 32 1))

/-- Whether a context is active or has kernels loaded (R755). -/
def Tile.inUse (tl : Tile) (c : Nat) : Bool := tl.act == some c || (tl.ctx c).kernels != []

/-- Whether SEQ_CTX_CFGc may take a value (R77). -/
def Tile.cfgOk (tl : Tile) (c v : Nat) : Bool :=
  let lo := fld v 13 0
  let hi := lo + fld v 29 16
  (!tl.inUse c || v == ctxCfg tl c) &&
  (!bit v 63 || (decide (161 ≤ fld v 29 16) && decide (hi ≤ 12288) &&
    (List.range 4).all fun d => d == c || !bit (ctxCfg tl d) 63 ||
      (let a := fld (ctxCfg tl d) 13 0
       decide (hi ≤ a) || decide (a + fld (ctxCfg tl d) 29 16 ≤ lo))))

/-- SEQ_CTX_CFG_WRITE (R77, R135, R309): enabling a context ends its poison mark, and its save area is unspecified. -/
def execSeqCtxCfgWrite (t c v : Nat) (o : Origin) (s : State) : Res := Dev.run' (do
  let s ← get
  if s.tileUp t ∧ c < 4 then
    let tl := s.tile t
    let new := keepBits v (maskBits 63 63 + maskBits 29 16 + maskBits 13 0)
    let mine := o.mine (s.tilePart t)
    let ok := mine && tl.cfgOk c new
    regWrite o (tileReg t (0x1000 + 8 * c)) v ok do
      let fresh := bit new 63 && !bit (ctxCfg tl c) 63
      let tl := tl.setReg (0x1000 + 8 * c) (BitVec.ofNat 64 new)
      upd fun s => s.setTile t (if fresh then tl.setCtx c { tl.ctx c with poison := false, saved := false } else tl)
    if mine && !tl.cfgOk c new then upd fun s => s.setTile t (s.tile t).cfgErr) s

/-- TIL_CTX_AS_WRITE (R348). -/
def execTilCtxAsWrite (t v : Nat) (o : Origin) (s : State) : Res := Dev.run' (do
  let s ← get
  if s.tileUp t then
    let tl := s.tile t
    let new := keepBits v 0xBFBFBFBF
    let old := (tl.reg 0).toNat
    let mine := o.mine (s.tilePart t)
    let fits := (List.range 4).all fun c => !tl.inUse c || fld new (8 * c + 7) (8 * c) == fld old (8 * c + 7) (8 * c)
    regWrite o (tileReg t 0) v (mine && fits) (upd fun s => s.setTile t (tl.setReg 0 (BitVec.ofNat 64 new)))
    if mine && !fits then upd fun s => s.setTile t (s.tile t).cfgErr) s

/-! ### The loader -/

/-- Reads of a command of target 0 (R551, R754): the address space that the tile binds to the queue's context. -/
def State.cmdView (s : State) (q t : Nat) : View :=
  let as := s.tileAs t (s.rf (qReg q 0) 49 48)
  { who := .queue q, part := s.qPart q, as := as, sel := s.vsel as, src := 1, fn := none }

/-- The tiles of a mask in ascending order. -/
def tilesOf (mask : Nat) : List Nat := (List.range 64).filter fun t => bit mask t

/-- Check 1 of R117, without the CRC. -/
def hdrOk (h : List Byte) : Bool :=
  let f (off n : Nat) : Nat := leNat ((h.drop off).take n)
  f 0 4 == 0x4B5A4B48 && f 4 2 == 1 && f 8 4 % 8 == 0 && decide (8 ≤ f 8 4 ∧ f 8 4 ≤ 262144) && f 0xC 4 % 8 == 0 &&
  decide (f 0xC 4 < f 8 4) && f 0x10 8 % 4096 == 0 && decide (f 0x18 1 < 16) && (f 0x19 1 &&& f 0x18 1) == f 0x19 1 &&
  decide (f 0x1A 1 ≤ 32 ∧ f 0x1B 1 ≤ 16 ∧ f 0x1C 1 ≤ 16 ∧ f 0x1D 1 ≤ 8 ∧ f 0x1E 1 ≤ 16) && f 0x1F 1 == 0 &&
  decide (1 ≤ f 0x20 1 ∧ f 0x20 1 ≤ 64 ∧ f 0x20 1 ≤ f 0x21 1 ∧ f 0x21 1 ≤ 64) && decide (f 0x22 2 < 4) &&
  ((h.drop 0x30).take 76).all (· == 0) && f 0x7C 4 == crc32c (h.take 0x7C)

/-- The instructions of a code image as (offset, first word, second word). -/
def kzParse : Nat → List W64 → Option (List (Nat × W64 × W64))
  | _, [] => some []
  | off, [v] => if kzExt v then none else some [(off, v, 0)]
  | off, v :: x :: rest =>
    if kzExt v then (kzParse (off + 16) rest).map fun l => (off, v, x) :: l
    else (kzParse (off + 8) (x :: rest)).map fun l => (off, v, 0) :: l

/-- Check 6 of R117, without the CRC: defined encodings, and branch targets, loop ends and ENTRY at instruction starts. -/
def codeOk (is : List (Nat × W64 × W64)) (entry : Nat) : Bool :=
  let start (a : Int) : Bool := is.any fun i => (i.1 : Int) == a
  start entry && is.all fun i =>
    kzInstrOk i.2.1 i.2.2 &&
    (let w := kzFields i.2.1
     match (kzOpc i.2.1).toNat with
     | 0x06 => start (i.1 + 8 * w.imm.toInt)
     | 0x08 => start (i.1 + 8 * w.imm.toNat)
     | _ => true)

/-- Check 7 of R117. -/
def refsOk (h : List Byte) (is : List (Nat × W64 × W64)) : Bool :=
  let n (off : Nat) : Nat := ((h.drop off).headD 0).toNat
  is.all fun i => (kzRefs (kzOpc i.2.1).toNat (kzFields i.2.1) i.2.2).all fun r =>
    match r.1 with
    | 0 => decide (r.2 < n 0x1A)
    | 1 => decide (r.2 < n 0x1C)
    | 2 => decide (r.2 < n 0x1D)
    | 3 => decide (r.2 < n 0x1B)
    | 4 => decide (r.2 < n 0x1E)
    | 5 => bit (n 0x18) r.2
    | _ => bit (n 0x22) 0

/-- The free ranges of `[lo, hi)` beside ranges in use: starts and lengths. -/
def freeRanges (lo hi : Nat) (used : List (Nat × Nat)) : List (Nat × Nat) :=
  ((lo :: used.map fun u => u.1 + u.2).filter fun a =>
    decide (lo ≤ a) && decide (a < hi) && !(used.any fun u => decide (u.1 ≤ a ∧ a < u.1 + u.2))).map fun a =>
    (a, (used.foldl (fun e u => if a ≤ u.1 ∧ u.2 ≠ 0 then min e u.1 else e) hi) - a)

/-- The place of `n` units in a free range, or the shortfall against the largest (R118): the lowest range that holds
them. -/
def placeIn (lo hi : Nat) (used : List (Nat × Nat)) (n : Nat) : Except Nat Nat :=
  let fr := freeRanges lo hi used
  if n = 0 then .ok lo
  else match (fr.filter fun r => decide (n ≤ r.2)).map Prod.fst with
    | [] => .error (n - fr.foldl (fun m r => max m r.2) 0)
    | a :: as => .ok (as.foldl min a)

/-- The lowest `n` free numbers below `size`, or how many are missing. -/
def takeFree (size : Nat) (used : List Nat) (n : Nat) : Except Nat (List Nat) :=
  let free := (List.range size).filter fun k => !used.contains k
  if n ≤ free.length then .ok (free.take n) else .error (n - free.length)

/-- Every kernel loaded on a tile. -/
def Tile.allKernels (tl : Tile) : List LKernel := (List.range 4).flatMap fun c => (tl.ctx c).kernels

/-- A check of R117 with its code: the shortfall makes the refusal. -/
def orShort {α : Type} (code : Nat) (r : Except Nat α) : Except (Nat × Nat) α :=
  match r with
  | .ok a => .ok a
  | .error n => .error (code, min n 0xFFFFFF)

/-- Checks 8 to 15 of R117 on a tile: the kernel as the tile would hold it, or the code and shortfall. -/
def Tile.reserve (tl : Tile) (c mask handle : Nat) (h : List Byte) : Except (Nat × Nat) LKernel := do
  let f (off n : Nat) : Nat := leNat ((h.drop off).take n)
  let all := tl.allKernels
  let mine := (tl.ctx c).kernels
  let pages (r : Except Nat Nat) : Except Nat Nat :=
    match r with
    | .ok a => .ok a
    | .error n => .error (ceilDiv n 4096)
  let code ← orShort 0x308 (pages (placeIn 0 262144 (all.map fun k => (k.codeOff, k.codeBytes)) (f 8 4)))
  let lo := ctxBase tl c
  let cis ← orShort 0x309 (pages (placeIn lo (lo + ctxSize tl c - 655360) (mine.map fun k => (k.cisOff, k.cisBytes)) (f 0x10 8)))
  let kept := mine.foldl (fun m k => Nat.lor m k.accKeep) 0
  let clash := popcount 4 (Nat.land kept (f 0x19 1))
  orShort 0x30A (if clash = 0 then .ok () else .error clash)
  let sfu ← orShort 0x30B (takeFree 16 (all.flatMap (·.sfuMap)) (f 0x1B 1))
  let slc ← orShort 0x30C (takeFree 16 (all.flatMap (·.slcMap)) (f 0x1C 1))
  let spk ← orShort 0x30D (takeFree 8 (all.flatMap (·.spkMap)) (f 0x1D 1))
  let kvp ← orShort 0x30E (takeFree 16 (all.flatMap (·.kvpMap)) (f 0x1E 1))
  orShort 0x30F (if mine.length < 64 then .ok () else .error 1)
  return { handle := handle, kernelId := f 0x28 8, accMask := f 0x18 1, accKeep := f 0x19 1, flags := f 0x22 2
           channels := f 0x1A 1, codeOff := code, codeBytes := f 8 4, entry := f 0xC 4, cisOff := cis, cisBytes := f 0x10 8
           sfuMap := sfu, slcMap := slc, spkMap := spk, kvpMap := kvp, group := mask }

/-- The tile with a kernel loaded: the code is copied, and its table slots are empty (R120, R197). -/
def Tile.install (tl : Tile) (c : Nat) (k : LKernel) (code : List Byte) : Tile :=
  let tl := tl.setCtx c { tl.ctx c with kernels := (tl.ctx c).kernels ++ [k] }
  { tl with code := spWrite dByte tl.code k.codeOff code
            sfu := k.sfuMap.foldl (fun m i => spSet dSfu m i .none) tl.sfu }

/-- Checks 8 to 15 over the tiles of a mask in ascending order: the tiles as they will be, or the refusal (R118). -/
def reserveAll (s : State) (c mask handle : Nat) (h code : List Byte) : List Nat → Except (Nat × Nat) State
  | [] => .ok s
  | t :: ts =>
    match (s.tile t).reserve c mask handle h with
    | .error (e, n) => .error (e, t <<< 24 + n)
    | .ok k => reserveAll (s.setTile t ((s.tile t).install c k code)) c mask handle h code ts

/-- The outcome of a LOAD: its code and DETAIL (R117, R118, R120). -/
def loadKernel (q c mask image : Nat) (ext : Option (List Byte)) : Dev (Nat × Nat) := do
  let s ← get
  let ts := tilesOf mask
  let v := s.cmdView q (ts.headD 0)
  match ← vaRead v 0 image 128 ext with
  | .error e => return (0x312, e)
  | .ok h =>
    let f (off n : Nat) : Nat := leNat ((h.drop off).take n)
    if !hdrOk h then return (0x301, 0)
    if f 6 2 ≠ 1 then return (0x302, 0)
    match ts.find? fun t => s.tilePart t != s.qPart q with
    | some t => return (0x303, t <<< 24)
    | none =>
    if ts.length < f 0x20 1 ∨ f 0x21 1 < ts.length then return (0x304, 0)
    match ts.find? fun t => !bit (ctxCfg (s.tile t) c) 63 with
    | some t => return (0x305, t <<< 24)
    | none =>
    match ← vaRead v 0 (image + 128) (f 8 4) (ext.map (·.drop 128)) with
    | .error e => return (0x312, e)
    | .ok code =>
      let ws := (List.range (code.length / 8)).map fun i => BitVec.ofNat 64 (leNat ((code.drop (8 * i)).take 8))
      match kzParse 0 ws with
      | none => return (0x306, 0)
      | some is =>
        if f 0x24 4 ≠ crc32c code ∨ !codeOk is (f 0xC 4) then return (0x306, 0)
        if !refsOk h is then return (0x307, 0)
        let s ← get
        let handle := s.nextId % 2 ^ 32
        match reserveAll s c mask handle h code ts with
        | .error (e, d) => return (e, d)
        | .ok s' => do
          upd fun _ => { s' with nextId := s.nextId + 1 }
          return (0, handle)

/-- Why a command of target 0 on the tiles of a mask is refused or ends before it starts: HIF_TILE_MASK, UNIT_ABSENT and
HGT_FROZEN (R18, R551, R674, R692); 0 when it may go on. -/
def State.tilesBlock (s : State) (q mask : Nat) (frozen : Bool) : Nat :=
  let ts := tilesOf mask
  if Nat.land mask (s.rn (qReg q 8)) ≠ mask then 0xC03
  else if ts.any fun t => !s.tileUp t then 0x10
  else if frozen && ts.any s.tileFrozen then 0xF01
  else 0

/-- LOAD (R117 to R120, R122, R551, R754). `ext` is what host memory or a peer holds at the image address. -/
def execLoad (q : Nat) (ext : Option (List Byte)) (s : State) : Res := Dev.run' (do
  let c ← takeCmd q 2
  let s ← get
  let mask := c.f 8 8
  let (code, d) ← (
    if !(c.zero 2 6 && c.zero 0x18 40 && c.f 1 1 == s.rf (qReg q 0) 49 48) then pure (0x311, 0)
    else
      let b := s.tilesBlock q mask true
      if b ≠ 0 then pure (b, 0) else loadKernel q (c.f 1 1) mask (c.f 0x10 8) ext)
  -- the failing tile stands in DETAIL for the checks that concern a tile
  let ft := if code = 0x303 ∨ code = 0x305 ∨ (0x308 ≤ code ∧ code ≤ 0x30F) then d / 2 ^ 24 else 0xFF
  complete q c.seqno (recordBytes c.seqno code 2 ft 0 0 d (← get).time)) s

/-- A kernel of the queue's context on tiles of its partition, by its handle (R122). -/
def State.kernelOf (s : State) (q handle : Nat) : Option LKernel :=
  (List.range 64).findSome? fun t =>
    if s.tilePart t = s.qPart q then findKernel ((s.tile t).ctx (s.rf (qReg q 0) 49 48)) handle else none

/-- UNLOAD (R121, R122, R419). -/
def execUnload (q : Nat) (s : State) : Res := Dev.run' (do
  let c ← takeCmd q 3
  let s ← get
  let handle := c.f 4 4
  let ctx := s.rf (qReg q 0) 49 48
  let code ← (match (if c.zero 1 3 && c.zero 8 56 then s.kernelOf q handle else none) with
    | none => pure 0x311
    | some k =>
      if Nat.land k.group (s.rn (qReg q 8)) ≠ k.group then pure 0xC03
      else if s.launches.any fun l => l.handle == handle && l.part == s.qPart q then pure 0x310
      else do
        slcCancel fun p => p.handle == handle
        forAll (tilesOf k.group) fun t => upd fun s =>
          let tl := s.tile t
          let maps := (findKernel (tl.ctx ctx) handle).map (·.sfuMap)
          let tl := { tl with sfu := (maps.getD []).foldl (fun m i => spSet dSfu m i .none) tl.sfu }
          s.setTile t (tl.setCtx ctx { tl.ctx ctx with kernels := (tl.ctx ctx).kernels.filter fun k => k.handle != handle })
        pure 0)
  completeWith q c.seqno 3 code 0) s

/-! ### Launches -/

/-- LAUNCH (R122, R551): accepted into the command arbiter, or refused. -/
def execLaunch (q : Nat) (s : State) : Res := Dev.run' (do
  let c ← takeCmd q 1
  let s ← get
  let fin (code : Nat) : Dev Unit := do
    complete q c.seqno (recordBytes c.seqno code 1 0xFF (c.f 0x10 8) 0 0 s.time)
  match (if c.zero 1 3 && c.zero 0x1C 36 && c.f 8 8 % 64 == 0 then s.kernelOf q (c.f 4 4) else none) with
  | none => fin 0x311
  | some k =>
    let b := s.tilesBlock q k.group false
    if b ≠ 0 then fin b
    else
      let l : Launch :=
        { id := s.nextId, queue := q, seqno := c.seqno, part := s.qPart q, ctx := s.rf (qReg q 0) 49 48, handle := k.handle
          mask := k.group, args := c.f 8 8, tag := c.f 0x10 8, timeout := c.f 0x18 4, phase := 0, sels := [], flush := [], t0 := 0 }
      upd fun s => { s with launches := s.launches ++ [l], nextId := s.nextId + 1 }) s

/-- A launch by its number. -/
def State.launch (s : State) (id : Nat) : Option Launch := s.launches.find? fun l => l.id == id
/-- A launch replaced. -/
def State.setLaunch (s : State) (l : Launch) : State :=
  { s with launches := s.launches.map fun m => if m.id = l.id then l else m }

/-- Whether a tile has ended its kernel and drained (R127). -/
def Tile.drained (tl : Tile) : Bool :=
  (match tl.run with
   | none => false
   | some r => r.ended) && tl.flights == [] && (List.range 32).all fun e => (tl.crumb e).st != 2

/-- Whether a launch may start on a tile now (R124), or again once the tile has drained (R689). -/
def State.startOk (s : State) (l : Launch) (t : Nat) : Bool :=
  let tl := s.tile t
  !(s.launches.any fun m => decide (m.id < l.id) && bit m.mask t) &&
  !(s.switches.any fun c => decide (c.id < l.id) && bit c.todo t) &&
  tl.act == some l.ctx && tl.switch.isNone && (if l.phase = 3 then tl.drained else tl.run.isNone)

/-- A tile's registers at the start of a launch (R80, R153, R155, R210), before the arguments. -/
def Tile.begin (tl : Tile) (l : Launch) (k : LKernel) (sel jmode jstep now : Nat) : Tile :=
  let x := tl.ctx l.ctx
  let tl := tl.setCtx l.ctx { Ctx.reset with pc := k.entry, poison := x.poison, saved := x.saved, kernels := x.kernels }
  let tl := tl.setReg 0x1028 0
  { tl with
    chans := [], flights := [], crumbs := [], queues := [], issued := 0, aborting := false
    run := some { launch := l.id, ctx := l.ctx, handle := l.handle, t0 := now, ended := false, status := 0, detail := 0, exc := 0
                  ports := 0, effects := false, sel := sel, jmode := jmode, jstep := jstep } }

/-- The argument block read by a tile into s1 to s16, through the journal (R80, R475, R754). -/
def readArgs (l : Launch) (t : Nat) (ext : Option (List Byte)) : Dev Unit := do
  let s ← get
  let sel := ((s.tile t).run.map (·.sel)).getD 0
  match ← vaRead { s.cmdView l.queue t with sel := sel } 0 l.args 128 ext with
  | .error e => upd fun s => abortTile s t (s.tile t) 0x312 e
  | .ok bs =>
    match ← attempt (tileJournal t 1 l.handle bs) with
    | .error (code, d) => upd fun s => abortTile s t (s.tile t) code d
    | .ok bs => upd fun s =>
        let tl := s.tile t
        let x := (List.range 16).foldl (fun (x : Ctx) i =>
          x.sSet (i + 1) (BitVec.ofNat 64 (leNat ((bs.drop (8 * i)).take 8)))) (tl.ctx l.ctx)
        s.setTile t (tl.setCtx l.ctx x)

/-- The record of a launch that did not start, or did not start again: what it had posted is cancelled. -/
def endUnstarted (l : Launch) (code failTile : Nat) : Dev Unit := do
  if l.phase = 3 then slcCancel fun p => p.launch == l.id
  upd fun s => { s with launches := s.launches.filter fun m => m.id != l.id }
  complete l.queue l.seqno (recordBytes l.seqno code 1 failTile l.tag 0 0 (← get).time)

/-- LAUNCH_START (R80, R124, R309, R357, R473, R674, R692): a queued launch starts on its tiles, or again after a restart.
`ext` is what host memory or a peer holds at the argument block. -/
def execLaunchStart (id : Nat) (ext : Option (List Byte)) (s : State) : Res := Dev.run' (do
  let s ← get
  match s.launch id with
  | none => pure ()
  | some l =>
    let ts := tilesOf l.mask
    if (l.phase ≠ 0 ∧ l.phase ≠ 3) || !ts.all (s.startOk l) then pure ()
    else
      upd fun s => if l.phase = 3 then
          ts.foldl (fun s t => s.setTile t { s.tile t with run := none, aborting := false, queues := [] }) s
        else s
      match ts.find? fun t => !s.tileUp t with
      | some t => endUnstarted l 0x10 t
      | none =>
      match ts.find? s.tileFrozen with
      | some t => endUnstarted l 0xF01 t
      | none =>
      match ts.find? fun t => ((s.tile t).ctx l.ctx).poison with
      | some t => endUnstarted l 0x801 t
      | none => do
        let jm := s.jrnMode l.part
        let js := s.rf (jrnReg l.part 0x10) 31 0
        let sels := if l.phase = 3 then l.sels else ts.map fun t => (t, s.vsel (s.tileAs t l.ctx))
        forAll ts fun t => upd fun s =>
          let tl := s.tile t
          match findKernel (tl.ctx l.ctx) l.handle with
          | none => s
          | some k => s.setTile t (tl.begin l k (((sels.find? fun e => e.1 == t).map Prod.snd).getD 0) jm js s.time)
        upd fun s => s.setLaunch { l with phase := 1, sels := sels, t0 := s.time }
        forAll ts fun t => readArgs l t ext) s

/-- Status, failing tile and detail of a group (R130). -/
def State.groupStatus (s : State) (ts : List Nat) : Nat × Nat × Nat :=
  match ts.findSome? fun t => (s.tile t).run.bind fun r => if r.status = 0 ∨ r.status = 0x329 then none else some (r.status, t, r.detail) with
  | some x => x
  | none => if ts.all fun t => ((s.tile t).run.map (·.status)) == some 0 then (0, 0xFF, 0) else (0x329, ts.headD 0, 0)

/-- A launch's record written, and its tiles free again (R126, R129, R130, R419, R674, R745): every frozen channel is
released, and the operations of an aborted launch are cancelled. -/
def launchEnd (l : Launch) : Dev Unit := do
  let s ← get
  let ts := tilesOf l.mask
  let (status, ft, detail) := s.groupStatus ts
  let exc := ts.foldl (fun e t => Nat.lor e (((s.tile t).run.map (·.exc)).getD 0)) 0
  if status ≠ 0 then slcCancel fun p => p.launch == l.id
  upd fun s => ts.foldl (fun s t =>
    let tl := s.tile t
    let s := match tl.run with
      | none => s
      | some r => s.setTile t (if r.status = 0 then tl else tl.setReg 0x1028 (BitVec.ofNat 64 (r.detail % 2 ^ 32 * 2 ^ 32 + r.status)))
    let tl := s.tile t
    let s := s.setTile t { tl with run := none, aborting := false, queues := [] }
    if s.tileFrozen t then s.spkCancel t else s) s
  upd fun s => { s with launches := s.launches.filter fun m => m.id != l.id }
  complete l.queue l.seqno (recordBytes l.seqno status 1 ft l.tag exc (detail % 2 ^ 32) s.time)

/-- LAUNCH_COMPLETE (R126 to R130, R559): once every tile of the group has ended and drained, flush reads go out on the
ports to which the group wrote host memory, and the record is written when they have returned. -/
def execLaunchComplete (id : Nat) (s : State) : Res := Dev.run' (do
  let s ← get
  match s.launch id with
  | none => pure ()
  | some l =>
    let ts := tilesOf l.mask
    if l.phase = 2 then
      if s.hostReqs.any fun r => l.flush.contains r.tag then pure () else launchEnd l
    else if l.phase ≠ 1 || !ts.all fun t => (s.tile t).drained then pure ()
    else
      let ports := ts.foldl (fun m t => Nat.lor m (((s.tile t).run.map (·.ports)).getD 0)) 0
      let ps := (List.range 4).filter fun p => bit ports p && s.rb (flushReg p l.part) 7
      if ps = [] then launchEnd l
      else do
        upd fun s => s.setLaunch { l with phase := 2, flush := (List.range ps.length).map fun i => s.nextId + i }
        forAll ps fun p => do
          let s ← get
          let r := s.rn (flushReg p l.part)
          sendHostRead (.queue l.queue) p (fld r 5 0) (fld r 63 8 * 256) 0) s

/-- WATCHDOG_EXPIRY (R128). -/
def execWatchdogExpiry (id : Nat) (s : State) : Res :=
  .next (match s.launch id with
    | none => s
    | some l =>
      if l.phase = 1 ∧ l.timeout ≠ 0 ∧ l.t0 + 1000 * l.timeout ≤ s.time then
        (tilesOf l.mask).foldl (fun s t =>
          let tl := s.tile t
          match tl.running with
          | none => s
          | some _ => s.setTile t (tl.abortTask 0x326 0 s.time)) s
      else s)

/-! ### Context switches -/

/-- CTX_SWITCH (R122, R132). -/
def execCtxSwitch (q : Nat) (s : State) : Res := Dev.run' (do
  let c ← takeCmd q 4
  let s ← get
  let mask := c.f 8 8
  if !(c.zero 2 6 && c.zero 0x10 48 && decide (c.f 1 1 < 4)) then completeWith q c.seqno 4 0x311 0
  else if s.tilesBlock q mask false ≠ 0 then completeWith q c.seqno 4 (s.tilesBlock q mask false) 0
  else if mask = 0 then completeWith q c.seqno 4 0 0
  else upd fun s =>
    { s with switches := s.switches ++ [{ id := s.nextId, queue := q, seqno := c.seqno, ctx := c.f 1 1, todo := mask }]
             nextId := s.nextId + 1 }) s

/-- The context switch that is next on a tile. -/
def State.nextSwitch (s : State) (t : Nat) : Option CtxCmd := s.switches.find? fun c => bit c.todo t

/-- A context switch has taken effect on a tile; its record follows the last one. -/
def switchDone (c : CtxCmd) (t : Nat) : Dev Unit := do
  let todo := setFld c.todo t t 0
  upd fun s => { s with switches := (
    if todo = 0 then s.switches.filter fun d => d.id != c.id
    else s.switches.map fun d => if d.id = c.id then { c with todo := todo } else d) }
  if todo = 0 then completeWith c.queue c.seqno 4 0 0

/-- FLM_CHn_STATUS (R295). -/
def Tile.chanStatus (tl : Tile) (n : Nat) : Nat :=
  let c := tl.chan n
  let g := c.ring
  let flags := (List.range g.sl.length).foldl (fun m i => if g.flagged i then m + 2 ^ i else m) 0
  flags <<< 56 + g.pslot % 8 <<< 53 + g.kslot % 8 <<< 50 + g.countIn 1 <<< 46 + g.countIn 0 <<< 42 + g.sl.length <<< 38 +
    (tl.flights.filter fun f => f.chan == n).length <<< 24 + c.st <<< 16 + leNat (c.done.take 2)

/-- The 2,048 bytes of flume channel state that a switch saves (R299). -/
def Tile.flumeState (tl : Tile) : List Byte :=
  (List.range 32).flatMap fun n =>
    leBytes 8 (tl.chanStatus n) ++ ((tl.chan n).done ++ List.replicate 32 0).take 32 ++ List.replicate 24 0

/-- The save area of a context (R78); `none` for a region that has none. -/
def saveAt (tl : Tile) (c : Nat) : Option Nat := if ctxSize tl c < 659456 then none else some (ctxBase tl c + ctxSize tl c - 655360)

/-- Step 2 of R133: the registers kept once per tile go to the save area of context `c`. -/
def Tile.save (tl : Tile) (c : Nat) : Tile :=
  match saveAt tl c with
  | none => tl
  | some a =>
    let v := (spRead dW32 tl.v 0 16384).flatMap fun x => leBytes 4 x.toNat
    let acc := (spRead dW32 tl.acc 0 131072).flatMap fun x => leBytes 4 x.toNat
    let st := (spRead dW64 tl.st 0 1024).flatMap fun x => leBytes 8 x.toNat
    let tl := (((tl.cisPut a v).cisPut (a + 65536) acc).cisPut (a + 589824) st).cisPut (a + 598016) tl.flumeState
    tl.setCtx c { tl.ctx c with saved := true }

/-- Values from bytes, one of `n` bytes at each index. -/
def ofBytes {w : Nat} (n count : Nat) (bs : List Byte) : Sparse (BitVec w) :=
  spWrite (fun _ => 0) [] 0 ((List.range count).map fun i => BitVec.ofNat w (leNat ((bs.drop (n * i)).take n)))

/-- Step 4 of R133 (R135, R309): the registers come from the save area of context `c`; the contents of an area that no
switch has written are free values, and a poisoned word marks the context. -/
def Tile.restore (tl : Tile) (t c : Nat) : Tile :=
  let free : List Byte := (List.range 600064).map fun i => BitVec.ofNat 8 (Config.freeValue (0x2000 + t) (tl.free + i)).toNat
  let a := (saveAt tl c).getD 0
  let ok := (saveAt tl c).isSome && (tl.ctx c).saved
  let bs := if ok then tl.cisBytes a 600064 else free
  let bad := ok && badWords tl a 600064 != []
  let x := tl.ctx c
  let tl := tl.setCtx c { x with poison := x.poison || bad
                                 flmSaved := spWrite dByte [] 0 ((bs.drop 598016).take 2048) }
  { tl with v := ofBytes 4 16384 bs, acc := ofBytes 4 131072 (bs.drop 65536), st := ofBytes 8 1024 (bs.drop 589824)
            chans := [], free := if ok then tl.free else tl.free + 600064 }

/-- CTX_SWITCH_EFFECT (R132, R133, R674, R755): the next context switch of a tile begins once no kernel runs and the
launches before it for the active context have completed. -/
def execCtxSwitchEffect (t : Nat) (s : State) : Res := Dev.run' (do
  let s ← get
  let tl := s.tile t
  match s.nextSwitch t with
  | none => pure ()
  | some c =>
    if tl.run.isSome || tl.switch.isSome ||
        s.launches.any fun l => decide (l.id < c.id) && bit l.mask t && tl.act == some l.ctx then pure ()
    else if s.tileFrozen t then do
      upd fun s => { s with switches := s.switches.filter fun d => d.id != c.id }
      completeWith c.queue c.seqno 4 0xF01 0
    else if tl.act = some c.ctx then switchDone c t
    else
      let tl := match tl.act with
        | none => tl
        | some a => { tl.save a with chans := [] }
      let v : W64 := BitVec.ofNat 64 (0xC0 + c.ctx)
      let tl := (tl.toInbox 0 v).getD tl
      upd fun s => s.setTile t { tl with switch := some { cmd := c.id, dest := c.ctx, step := 3, t0 := s.time } }) s

/-- Whether a post is the acknowledgement of a switch to context `c` (R114). -/
def isHookAck (c : Nat) (e : List W64) : Bool := e.headD 0 == BitVec.ofNat 64 (0x80000000000000C0 + c)

/-- CTX_SWITCH_FINISH (R114, R133 to R135): after the acknowledgement, or its timeout, the new context is restored and
becomes active. -/
def execCtxSwitchFinish (t : Nat) (s : State) : Res := Dev.run' (do
  let s ← get
  let tl := s.tile t
  match tl.switch with
  | none => pure ()
  | some w =>
    match tl.post.findIdx? (isHookAck w.dest), w.step with
    | none, 3 => pure ()
    | i, _ =>
      let post := match i with
        | some i => if w.step = 3 then tl.post.eraseIdx i else tl.post
        | none => tl.post
      let tl := { tl.restore t w.dest with post := post, act := some w.dest, switch := none, tlb := [] }
      upd fun s => s.setTile t tl
      match (← get).switches.find? fun c => c.id == w.cmd with
      | none => pure ()
      | some c => switchDone c t) s

/-- HOOK_TIMEOUT (R133, R134): 40 µs without an acknowledgement. -/
def execHookTimeout (t : Nat) (s : State) : Res :=
  let tl := s.tile t
  .next (match tl.switch with
    | none => s
    | some w =>
      if w.step = 3 ∧ w.t0 + 40000 ≤ s.time ∧ !(tl.post.any (isHookAck w.dest)) then
        s.setTile t { tl.setReg 0x1020 (BitVec.ofNat 64 (setFld (tl.reg 0x1020).toNat 33 33 1)) with
          switch := some { w with step := 4 } }
      else s)

end Sys2Proof.Machine
end

