-- ==== Sys2Proof/Machine/Host.lean ====
section
/-! DEFINITION. PCIe ports (R537 to R543), command queues (R544 to R551), flush reads (R556 to R559) and mailboxes (R561 to
R565). -/

namespace Sys2Proof.Machine

/-- HIF_PORTp_ERR_INB, OUTB or DB (R580). -/
def portErr (p off : Nat) : Nat := hifReg (0x2000 + 0x20 * p + off)

/-- An access that a port ignores, counted in HIF_PORTp_ERR_DB (R541). -/
def dbErr (p : Nat) : Dev Unit := upd fun s => s.count (portErr p 0x10) 1

/-! ### BAR0 -/

/-- How a function reaches memory (R538, R539). -/
def State.fnView (s : State) (p f : Nat) : View :=
  let c := s.rn (fnCfg p f)
  let as := if bit c 59 then some (fld c 58 53) else none
  { who := .fn p f, part := fld c 62 60, as := as, sel := s.vsel as, src := 4, fn := some f }

/-- Check 1 of R539, once the part is ready (R624). -/
def State.fnOpen (s : State) (p f : Nat) : Bool := s.ready && s.rb (fnCfg p f) 63 && s.rb (fnCfg p f) 59

/-- PCIE_BAR0_READ (R539, R553): the completion carries the data (0), Unsupported Request (1), or poison (2). -/
def execPcieBar0Read (p f va len : Nat) (s : State) : Res := Dev.run' (do
  let s ← get
  if p < 4 ∧ f < 64 then
    let r ← if s.fnOpen p f then inRead (s.fnView p f) 0 va len else pure (.error 0)
    upd fun s => { s with pcieDown := setFld s.pcieDown p p 0 }
    match r with
    | .ok bs => upd fun s => s.emit (.completion p 0 bs)
    | .error c => upd fun s => s.emit (.completion p (if c = 0x11 then 2 else 1) [])) s

/-- PCIE_BAR0_WRITE (R539, R552). -/
def execPcieBar0Write (p f va : Nat) (data : List Byte) (s : State) : Res := Dev.run' (do
  let s ← get
  if p < 4 ∧ f < 64 then
    let r ← if s.fnOpen p f then inWrite (s.fnView p f) 0 va data else pure (.error 0)
    upd fun s => { s with pcieDown := setFld s.pcieDown p p 0 }
    match r with
    | .ok () => pure ()
    | .error _ => upd fun s => s.count (portErr p 0) 1) s

/-- PCIE_FLR (R542): a function's posted writes that wait are discarded. Its configuration space and MSI-X table lie
outside this model, and no state of the device changes. -/
def execPcieFlr (p f : Nat) (s : State) : Res :=
  .next { s with waits := s.waits.filter fun w => !(w.req.who == .fn p f && w.req.write) }

/-- PCIE_LINK_DOWN (R542, R543): a hot reset, or the loss of the link, acts as an FLR of every function of the port. -/
def execPcieLinkDown (p : Nat) (lost : Bool) (s : State) : Res :=
  .next { s with
    waits := s.waits.filter fun w => !(w.req.write && match w.req.who with
      | .fn q _ => q == p
      | _ => false)
    pcieDown := if p < 4 then setFld s.pcieDown p p (b2n lost) else s.pcieDown }

/-! ### Reads of host memory -/

/-- The last flush read of a tile's HFLUSH is back (R557). -/
def hflushDone (t : Nat) : Dev Unit := upd fun s =>
  let tl := s.tile t
  let es := spGet dQueue tl.queues 4
  let back (e : QEntry) : Bool := e.started && (match e.instr with
      | .hflush _ _ => true
      | _ => false) &&
    !(s.hostReqs.any fun r => r.who == .tile t && decide (e.ref ≤ r.tag))
  if es.any back then s.setTile t (tl.setQueue 4 (es.filter fun e => !back e)) else s

/-- A read of host memory ends (R543): with its data, or as poison. -/
def hostReadEnd (tag : Nat) (ok : Bool) (data : List Byte) : Dev Unit := do
  match (← get).hostReqs.find? fun r => r.tag == tag with
  | none => pure ()
  | some r => do
    upd fun s => { s with hostReqs := s.hostReqs.erase r, pcieDown := if ok then setFld s.pcieDown r.port r.port 0 else s.pcieDown }
    match r.who with
    | .flume t ft => flumeAnswer t ft (if ok then 0 else 1) (if ok then (data ++ List.replicate r.len 0).take r.len else [])
    | .tile t => hflushDone t
    | _ => pure ()

/-- HOST_READ_COMPLETION (R543): `ok` is false for an error completion or poisoned data. -/
def execHostReadCompletion (tag : Nat) (ok : Bool) (data : List Byte) (s : State) : Res := Dev.run' (hostReadEnd tag ok data) s

/-- HOST_READ_TIMEOUT (R543): 50 ms without a completion. -/
def execHostReadTimeout (tag : Nat) (s : State) : Res := Dev.run' (do
  match (← get).hostReqs.find? fun r => r.tag == tag with
  | none => pure ()
  | some r => if r.t0 + 50000000 ≤ (← get).time then hostReadEnd tag false []) s

/-- HFLUSH (R557): a zero-length read to the flush target of each masked port, after every earlier instruction. -/
def execHflush (t : Nat) (w : IWord) (s : State) : Res :=
  deviceInstr s t (.hflush t w) 0x74 w 0 fun s tl kx =>
    let ports := (List.range 4).filter fun p => bit w.imm.toNat p
    let part := s.tilePart t
    if tl.outstanding.any fun e => decide (e.seq < kx.seq) then (s, .wait tl [])
    else if !bit kx.k.flags 1 then (s, .abort tl 0x708 0)
    else if ports.any fun p => !s.rb (flushReg p part) 7 then (s, .abort tl 0xC01 0)
    else inDev t (do
      let ref := (← get).nextId
      forAll ports fun p => do
        let r := (← get).rn (flushReg p part)
        sendHostRead (.tile t) p (fld r 5 0) (fld r 63 8 * 256) 0
      let tl := (← get).tile t
      return if ports = [] then .done tl else .started tl ref) s tl

/-- HFLUSH_READ_RETURN (R558): a flush read returns. -/
def execHflushReadReturn (tag : Nat) (s : State) : Res := Dev.run' (do
  match (← get).hostReqs.find? fun r => r.tag == tag && r.len == 0 with
  | none => pure ()
  | some _ => hostReadEnd tag true []) s

/-! ### Command queues -/

/-- QUEUE_DOORBELL (R541, R546, R547, R674): a write of a queue's doorbell through a function. -/
def execQueueDoorbell (q v p f : Nat) (s : State) : Res := Dev.run' (do
  let s ← get
  if q < 8192 ∧ p < 4 ∧ s.ready then
    let cfg := s.rn (qReg q 0)
    if fld cfg 47 46 ≠ p ∨ fld cfg 45 40 ≠ f ∨ s.fnFrozen p f then dbErr p
    else if !bit cfg 63 then pure ()
    else
      let v := v % 2 ^ 32
      let pi := s.rf (qReg q 0x20) 63 32
      let cons := s.rf (qReg q 0x20) 31 0
      if 2 ^ 31 ≤ (v + 2 ^ 32 - pi) % 2 ^ 32 then pure ()
      else if 2 ^ fld cfg 39 35 < (v + 2 ^ 32 - cons) % 2 ^ 32 then dbErr p
      else upd fun s => s.setF (qReg q 0x20) 63 32 v) s

/-- Whether a TARGET serves a command type (R545). -/
def targetTakes (target ty : Nat) : Bool :=
  match target with
  | 0 => decide (1 ≤ ty ∧ ty ≤ 4)
  | 1 => decide (0x10 ≤ ty ∧ ty ≤ 0x13)
  | 2 => decide (0x20 ≤ ty ∧ ty ≤ 0x25)
  | 3 => ty == 0x30
  | 4 => ty == 0x40
  | 5 => decide (0x48 ≤ ty ∧ ty ≤ 0x4B)
  | 6 => decide (0x50 ≤ ty ∧ ty ≤ 0x53)
  | 7 => decide (0x60 ≤ ty ∧ ty ≤ 0x65)
  | 8 => ty == 0x68
  | _ => false

/-- QUEUE_COMMAND_FETCH (R18, R122, R545, R548, R549, R674): the queue's next command is read from its ring and accepted.
`ext` is what host memory or a peer holds there. A command that cannot be read is not accepted. -/
def execQueueCommandFetch (q : Nat) (ext : Option (List Byte)) (s : State) : Res := Dev.run' (do
  let s ← get
  let cfg := s.rn (qReg q 0)
  let size := 2 ^ fld cfg 39 35
  let cons := s.rf (qReg q 0x20) 31 0
  let c := s.cq q
  let room := (s.rf (qReg q 0x28) 63 32 + c.owed.length + 2 ^ 32 - s.rf (qReg q 0x28) 31 0) % 2 ^ 32
  if !(decide (q < 8192) && bit cfg 63) || cons == s.rf (qReg q 0x20) 63 32 || decide (size ≤ room) || s.isFrozen 2 q then pure ()
  else
    match ← vaRead (s.queueView q 4) 0 (s.rf (qReg q 0x10) 47 6 * 64 + 64 * (cons % size)) 64 ext with
    | .error _ => pure ()
    | .ok bytes => do
      let ty := (bytes.headD 0).toNat
      let target := fld cfg 53 50
      upd fun s => s.setF (qReg q 0x20) 31 0 (cons + 1)
      upd fun s =>
        let c := s.cq q
        s.setCq q { c with owed := c.owed ++ [(cons, none)] }
      if !targetTakes target ty then completeWith q cons ty 0x311 0
      else if decide (6 ≤ target) && !s.lic 2 then completeWith q cons ty 0x10 0
      else upd fun s =>
        let c := s.cq q
        s.setCq q { c with cmds := c.cmds ++ [{ seqno := cons, bytes := bytes }] }) s

/-- QUEUE_IRQ_TIMER (R550): TIME_US after the first record that no interrupt has reported. -/
def execQueueIrqTimer (q : Nat) (s : State) : Res :=
  let irq := s.rn (qReg q 0x30)
  let c := s.cq q
  .next (if bit irq 63 ∧ c.unrep ≠ 0 ∧ c.since + 1000 * fld irq 15 0 ≤ s.time then s.queueIrq q else s)

/-- HIF_Q_CFG_WRITE (R545, R546): a write of HIF_Qn_CFG (`k` 0), TMASK (1), RING (2) or CRING (3). -/
def execHifQCfgWrite (q k v : Nat) (o : Origin) (s : State) : Res := Dev.run' (do
  let s ← get
  let off := qReg q (8 * k)
  let old := s.rn (qReg q 0)
  let new := match k with
    | 0 => keepBits v (maskBits 63 35)
    | 1 => v
    | _ => keepBits v (maskBits 47 6)
  let en := bit old 63
  let may := o.isDrd || (o.isPf && o.part == fld (if k = 0 ∧ !en then new else old) 62 60) || (o.cls == 3 && o.isPmf)
  let ok := may && (if en then k == 0 && new == setFld old 63 63 0
    else k != 0 || (decide (fld new 53 50 ≤ 8) &&
      (!bit new 63 || (decide (4 ≤ fld new 39 35) && decide (fld new 39 35 ≤ 16)))))
  if q < 8192 ∧ k < 4 then
    regWrite o off v ok do
      putReg off new
      if k = 0 && bit new 63 then
        putReg (qReg q 0x20) 0
        putReg (qReg q 0x28) 0) s

/-- HIF_CCONS_WRITE (R546, R549, R586): by privileged software of the bound function or of a PF of the partition; a number from
8,192 on is a media ring's. -/
def execHifCconsWrite (q v : Nat) (o : Origin) (s : State) : Res := Dev.run' (do
  let s ← get
  let cfg := s.rn (qReg q 0)
  let v := v % 2 ^ 32
  let ahead := (s.rf (qReg q 0x28) 63 32 + 2 ^ 32 - v) % 2 ^ 32
  let may := o.manages || (o.isPf && o.part == fld cfg 62 60) || (o.cls == 3 && o.port == s.qPort q && o.id == s.qFn q)
  if q < 8192 ∨ (s.variant = 1 ∧ q < 8224) then
    plainWrite o (qReg q 0x28) v (may && decide (ahead < 2 ^ 31)) (upd fun s => s.setF (qReg q 0x28) 31 0 v)) s

/-- HIF_FN_CFG_WRITE (R538). The PF's EN always reads 1, and the lock of PART, BV and AS under EN holds for VFs. -/
def execHifFnCfgWrite (p f v : Nat) (o : Origin) (s : State) : Res := Dev.run' (do
  let s ← get
  let off := fnCfg p f
  let old := s.rn off
  let new := if f = 0 then setFld (keepBits v (maskBits 63 53)) 63 63 1 else keepBits v (maskBits 63 53)
  let ok := (o.isDrd || (o.isPf && o.port == p)) && (f == 0 || !bit old 63 || fld new 62 53 == fld old 62 53)
  if p < 4 ∧ f < 64 then regWrite o off v ok (putReg off new)) s

/-! ### Mailboxes -/

/-- Tile, context and number of mailbox `m`. -/
def mbxOf (m : Nat) : Nat × Nat := (m / 16, m % 16)
/-- The mailboxes of a context and number. -/
def Tile.mbxAt (tl : Tile) (k : Nat) : Mailbox := spGet dMbx tl.mbx k
/-- The mailboxes of a context and number replaced. -/
def Tile.setMbx (tl : Tile) (k : Nat) (m : Mailbox) : Tile := { tl with mbx := spSet dMbx tl.mbx k m }
/-- MBX_INc_i, or MBX_OUTc_i, by 4c + i. -/
def mbxReg (k : Nat) (out : Bool) : Nat := 0xC000 + 0x40 * (k / 4) + 8 * (k % 4) + (if out then 0x20 else 0)
/-- Whether a mailbox is bound to a function. -/
def Tile.mbxBound (tl : Tile) (k : Nat) (out : Bool) (p f : Nat) : Bool :=
  let r := (tl.reg (mbxReg k out)).toNat
  bit r 63 && fld r 62 61 == p && fld r 60 55 == f

/-- MBX_INBOUND_WRITE (R541, R562): a write of `data` at byte `off` of inbound mailbox `m`. -/
def execMbxInboundWrite (p f m off : Nat) (data : List Byte) (s : State) : Res := Dev.run' (do
  let s ← get
  let (t, k) := mbxOf m
  let tl := s.tile t
  if m < 1024 ∧ off + data.length ≤ 64 ∧ s.ready then
    if !tl.mbxBound k false p f || s.fnFrozen p f then dbErr p
    else
      let b := tl.mbxAt k
      let buf := spWrite dByte b.buf off data
      if off + data.length < 64 ∨ data = [] then upd fun s => s.setTile t (tl.setMbx k { b with buf := buf })
      else if 16 ≤ b.msgs.length then
        let tl := tl.setMbx k { b with buf := [] }
        upd fun s => s.setTile t (tl.setReg 0xC100 (satCount (tl.reg 0xC100) 1))
      else
        let m := spRead dByte buf 0 64
        upd fun s => s.setTile t (tl.setMbx k { b with buf := [], msgs := b.msgs ++ [m], committed := (b.committed + 1) % 2 ^ 32 })) s

/-- The mailbox that an MBX names: 4 × context + number. -/
def mbxK (kx : Kx) (w : IWord) : Nat := 4 * kx.c + fld w.imm.toNat 1 0

/-- MBX_RECV (R475, R477, R563): the oldest inbound message into the cistern. -/
def execMbxRecv (t : Nat) (w : IWord) (s : State) : Res :=
  fnInstr 0 w <| deviceInstr s t (.mbxRecv t w) 0x73 w 0 fun s tl kx =>
    let k := mbxK kx w
    let a := ((tl.ctx kx.c).aGet w.sa.toNat).toNat
    let b := tl.mbxAt k
    if !bit (tl.reg (mbxReg k false)).toNat 63 then (s, .abort tl 0xC02 0)
    else if a % 64 ≠ 0 ∨ kx.k.cisBytes < a + 64 then (s, .abort tl 0x321 0)
    else match b.msgs with
      | [] => (s, .wait tl [])
      | m :: rest => inDev t (do
          upd fun s => s.setTile t (tl.setMbx k { b with msgs := rest, taken := (b.taken + 1) % 2 ^ 32 })
          let got ← tileJournal t 9 (fld w.imm.toNat 1 0) m
          let tl := ((← get).tile t).effect
          return .done (tl.cisPut (kx.k.cisOff + a) got)) s tl

/-- MBX_SEND (R563). -/
def execMbxSend (t : Nat) (w : IWord) (s : State) : Res :=
  fnInstr 1 w <| tileInstr s t (.mbxSend t w) 0x73 w 0 fun tl kx =>
    let k := mbxK kx w
    let a := ((tl.ctx kx.c).aGet w.sa.toNat).toNat
    let b := tl.mbxAt k
    if !bit (tl.reg (mbxReg k true)).toNat 63 then .abort tl 0xC02 0
    else if a % 64 ≠ 0 then .abort tl 0x321 0
    else if 16 ≤ b.sent - b.consumed then .wait tl []
    else match cisRead tl kx.k a 64 with
      | .error (.abort c d) => .abort tl c d
      | .error .wait => .wait tl []
      | .ok bs => .done (tl.setMbx k { b with outbox := b.outbox ++ [bs], sent := b.sent + 1 }).effect

/-- MBX_COUNT (R563). -/
def execMbxCount (t : Nat) (w : IWord) (s : State) : Res :=
  fnInstr 2 w <| tileInstr s t (.mbxCount t w) 0x73 w 0 fun tl kx =>
    let k := mbxK kx w
    if !bit (tl.reg (mbxReg k false)).toNat 63 then .abort tl 0xC02 0
    else .done (tl.putS kx w.dst (BitVec.ofNat 64 (tl.mbxAt k).msgs.length))

/-- MBX_OUTBOUND_DELIVER (R560, R564): the oldest message of an outbound mailbox is written to its ring. -/
def execMbxOutboundDeliver (t k : Nat) (s : State) : Res := Dev.run' (do
  let s ← get
  let tl := s.tile t
  let b := tl.mbxAt k
  let r := (tl.reg (mbxReg k true)).toNat
  match b.outbox with
  | [] => pure ()
  | m :: rest =>
    if k < 16 ∧ bit r 63 then
      upd fun s => s.setTile t (tl.setMbx k { b with outbox := rest, delivered := b.delivered + 1 })
      upd fun s => s.toHost (fld r 62 61) (fld r 60 55) (fld r 42 6 * 64 + 64 * (b.delivered % 16)) m
      if bit r 43 then upd fun s => s.emit (.msix (fld r 62 61) (fld r 60 55) (fld r 54 44))) s

/-- MBX_CONSUMED_WRITE (R541, R564). -/
def execMbxConsumedWrite (p f m v : Nat) (s : State) : Res := Dev.run' (do
  let s ← get
  let (t, k) := mbxOf m
  let tl := s.tile t
  if m < 1024 ∧ s.ready then
    if !tl.mbxBound k true p f || s.fnFrozen p f then dbErr p
    else
      let b := tl.mbxAt k
      let left := (b.sent + 2 ^ 32 - v % 2 ^ 32) % 2 ^ 32
      if left ≤ b.sent - b.consumed then upd fun s => s.setTile t (tl.setMbx k { b with consumed := b.sent - left })) s

/-- MBX_CFG_WRITE (R561): a write of MBX_INc_i, or of MBX_OUTc_i, by 4c + i. -/
def execMbxCfgWrite (t k : Nat) (out : Bool) (v : Nat) (o : Origin) (s : State) : Res := Dev.run' (do
  let s ← get
  let tl := s.tile t
  let off := mbxReg k out
  let old := (tl.reg off).toNat
  let new := keepBits v (if out then maskBits 63 6 else maskBits 63 55)
  let b := tl.mbxAt k
  let holds := if out then b.sent != b.consumed else b.msgs != []
  let ok := o.mine (s.tilePart t) && s.rf (fnCfg (fld new 62 61) (fld new 60 55)) 62 60 == s.tilePart t &&
    (!holds || new == setFld old 63 63 0 || new == old)
  if s.tileUp t ∧ k < 16 then
    plainWrite o (tileReg t off) v ok (upd fun s => s.setTile t (tl.setReg off (BitVec.ofNat 64 new)))) s

end Sys2Proof.Machine
end

