-- ==== Sys2Proof/Machine/Kv.lean ====
section
/-! DEFINITION. KV pools: pool commands, KVW and KVT (R230 to R249). -/

namespace Sys2Proof.Machine

/-- A register of pool `n` (R235, R237). -/
def kvReg (n off : Nat) : Nat := hubReg (n / 16) (0x40000 + 0x40 * (n % 16) + off)
/-- H of a pool. -/
def State.kvHeads (s : State) (n : Nat) : Nat := s.rf (kvReg n 0) 59 56 + 1
/-- PAGES of a pool. -/
def State.kvPages (s : State) (n : Nat) : Nat := s.rf (kvReg n 0) 27 0
/-- A pool beyond its registers. -/
def State.pool (s : State) (n : Nat) : KvPool := spGet dKvPool s.pools n
/-- A sequence of a pool. -/
def State.kvSeq (s : State) (n q : Nat) : KvSeq := spGet dKvSeq (s.pool n).seqs q
/-- A page's body. -/
def State.kvBody (s : State) (n i : Nat) : Nat := s.rn (kvReg n 8) + 4096 * s.kvHeads n * i
/-- A page's side record. -/
def State.kvSide (s : State) (n i : Nat) : Nat := s.rn (kvReg n 0x10) + (64 + 256 * s.kvHeads n) * i

/-- An access of the pool controller: one that fails ends what it serves with KVP_POOL_DENIED. -/
def kvAcc {α : Type} (m : Dev (Acc α)) : Dev α := do
  match ← m with
  | .ok a => return a
  | .error c => refuse 0x615 c

/-- Bytes the pool controller reads. -/
def kvGet (v : View) (va n : Nat) : Dev (List Byte) := kvAcc (vaRead v 0 va n none)
/-- Bytes the pool controller writes. -/
def kvPut (v : View) (va : Nat) (bs : List Byte) : Dev Unit := kvAcc (vaWrite v 0 va bs)

/-- A sequence descriptor (R239). -/
def kvDesc (q : KvSeq) : List Byte :=
  leBytes 4 (b2n q.isOpen) ++ leBytes 4 q.maxpg ++ leBytes 8 q.ptBase ++ leBytes 4 q.reserved ++ leBytes 4 q.inUse ++
    leBytes 4 q.tokens ++ List.replicate 36 0

/-- A sequence of a pool changed, and its descriptor written. -/
def kvSetSeq (v : View) (n q : Nat) (e : KvSeq) : Dev Unit := do
  upd fun s => { s with pools := spMod dKvPool s.pools n fun p => { p with seqs := spSet dKvSeq p.seqs q e } }
  kvPut v ((← get).rn (kvReg n 0x18) + 64 * q) (kvDesc e)

/-- The counts of a pool updated: USE first, then FREE published with the next EPOCH (R237, R238). -/
def kvCounts (n inUse reserved : Nat) : Dev Unit := upd fun s =>
  let s := (s.setF (kvReg n 0x28) 59 32 inUse).setF (kvReg n 0x28) 27 0 reserved
  (s.setF (kvReg n 0x20) 27 0 (s.kvPages n - inUse - reserved)).setF (kvReg n 0x20) 63 32
    (s.rf (kvReg n 0x20) 63 32 + 1)

/-- IN_USE and RESERVED of a pool. -/
def State.kvUse (s : State) (n : Nat) : Nat × Nat := (s.rf (kvReg n 0x28) 59 32, s.rf (kvReg n 0x28) 27 0)
/-- FREE of a pool. -/
def State.kvFree (s : State) (n : Nat) : Nat := s.rf (kvReg n 0x20) 27 0

/-- The checks that come before every other (R242): the pool in service for a partition, and the sequence in range
and in the wanted state. -/
def kvCheck (part n q : Nat) (wantOpen : Bool) : Dev Unit := do
  let s ← get
  must (decide (n < 64) && s.rb (kvReg n 0) 63 && s.rf (kvReg n 0) 62 60 == part) 0x615
  must (decide (q ≤ s.rf (kvReg n 0) 47 28) && (s.kvSeq n q).isOpen == wantOpen) 0x614

/-- A pool command: the oldest of its queue's, with a body that answers DETAIL (R241 to R243). -/
def kvCommand (q type : Nat) (body : QCmd → View → Nat → Nat → Dev Nat) : Dev Unit := do
  let c ← takeCmd q type
  let s ← get
  let n := c.f 1 1
  let sq := c.f 4 4
  let r ← attempt (do
    kvCheck (s.qPart q) n sq (type != 0x10)
    body c (s.queueView q 3) n sq)
  match r with
  | .ok d => completeWith q c.seqno type 0 d
  | .error (code, d) => completeWith q c.seqno type code d

/-- KV_OPEN (R241). -/
def execKvOpen (q : Nat) (s : State) : Res := Dev.run' (kvCommand q 0x10 fun c v n sq => do
  must (c.zero 2 2 && c.zero 0xC 4 && c.zero 0x18 40 && c.f 0x10 8 % 64 == 0) 0x311
  let maxpg := c.f 8 4
  let pt := c.f 0x10 8
  let entries := (← get).rf (kvReg n 0) 55 48 * maxpg
  forAll (List.range entries) fun i => kvPut v (pt + 8 * i) (leBytes 8 0)
  kvSetSeq v n sq { isOpen := true, maxpg := maxpg, ptBase := pt, reserved := 0, inUse := 0, tokens := 0 }
  let (u, r) := (← get).kvUse n
  kvCounts n u r
  return 0) s

/-- KV_RESERVE (R241): DETAIL carries FREE, whether or not it succeeds. -/
def execKvReserve (q : Nat) (s : State) : Res := Dev.run' (kvCommand q 0x11 fun c v n sq => do
  let k := c.f 8 4
  must (c.zero 2 2 && c.zero 0xC 52 && k != 0) 0x311
  let s ← get
  if s.kvFree n < k then refuse 0x610 (s.kvFree n)
  else
    let e := s.kvSeq n sq
    let (u, r) := s.kvUse n
    kvSetSeq v n sq { e with reserved := e.reserved + k }
    kvCounts n u (r + k)
    return (← get).kvFree n) s

/-- KV_UNRESERVE (R241). -/
def execKvUnreserve (q : Nat) (s : State) : Res := Dev.run' (kvCommand q 0x12 fun c v n sq => do
  must (c.zero 2 2 && c.zero 0xC 52) 0x311
  let s ← get
  let e := s.kvSeq n sq
  let k := min (c.f 8 4) e.reserved
  let (u, r) := s.kvUse n
  kvSetSeq v n sq { e with reserved := e.reserved - k }
  kvCounts n u (r - k)
  return 0) s

/-- KV_CLOSE (R241). -/
def execKvClose (q : Nat) (s : State) : Res := Dev.run' (kvCommand q 0x13 fun c v n sq => do
  must (c.zero 2 2 && c.zero 8 56) 0x311
  let s ← get
  let e := s.kvSeq n sq
  let entries := s.rf (kvReg n 0) 55 48 * e.maxpg
  forAll (List.range entries) fun i => do
    let pte := leNat (← kvGet v (e.ptBase + 8 * i) 8)
    if bit pte 31 then
      upd fun s => { s with pools := spMod dKvPool s.pools n fun p =>
        { p with used := spSet dBool p.used (fld pte 27 0) false } }
    kvPut v (e.ptBase + 8 * i) (leBytes 8 0)
  let (u, r) := s.kvUse n
  kvSetSeq v n sq .none
  kvCounts n (u - e.inUse) (r - e.reserved)
  return 0) s

/-! ### KVW and KVT -/

/-- The first page from `p` on, in a circle, that is not allocated. -/
def freePage (used : Sparse Bool) (pages : Nat) : Nat → Nat → Nat
  | 0, p => p
  | fuel + 1, p => if spGet dBool used p then freePage used pages fuel ((p + 1) % max 1 pages) else p

/-- The pool and view of a KVW or KVT: the handle's binding as sampled, and the tile's own address space. -/
def kvBound (kx : Kx) (w : IWord) (q : Nat) : Dev (View × Nat) := do
  let s ← get
  let b := (spGet dOsm kx.samp.osm (8 + fld w.imm.toNat 3 0)).toNat
  must (bit b 63) 0x615
  let n := fld b 5 0
  kvCheck (s.tilePart kx.t) n q true
  return (s.tileView kx.t kx.c (((s.tile kx.t).run.map (·.sel)).getD 0) 3, n)

/-- The profile of KVW's blocks: MXFP8 E4M3, RNE, no outliers (R246). -/
def kvProf : QProf :=
  { escSlots := 0, escEn := false, errBits := 0, uflMax := 32, outGap := 0, outlEn := false, rnd := 0, fmt := 0 }
/-- The profile of a centroid: MXFP4 E2M1, RNE, no outliers (R234). -/
def kvCentProf : QProf := { kvProf with fmt := 4 }

/-- The blocks of 32 of a row of values. -/
def blocksOf (xs : List Ext) : List (List Ext) := (List.range (xs.length / 32)).map fun b => (xs.drop (32 * b)).take 32

/-- A row of 128 values encoded: its element bytes, its scales, and the events of its blocks. -/
def kvEncode (p : QProf) (xs : List Ext) : List Byte × List Byte × Exc :=
  let bs := (blocksOf xs).map (encodeBlock p fun _ => 0)
  (bs.flatMap fun b => packBlock p.fmt b.codes, bs.map fun b => BitVec.ofNat 8 b.scale,
    Exc.sum (bs.map fun b => { nan := b2n b.nan, ufl := b.ufl, sat := b.sat }))

/-- A row of encoded values read back. -/
def kvDecode (f : Nat) (elems scales : List Byte) : List Ext :=
  (List.range scales.length).flatMap fun b =>
    narrowVals f ((elems.drop (b * blockBytes f)).take (blockBytes f)) (scales.getD b 0).toNat

/-- A finite value divided by a whole number, rounded RNE to fp32. -/
def divRne (e : Ext) (n : Nat) : Ext :=
  match e with
  | .fin d =>
    let m := d.mant <<< 64
    fp32.dec (fp32.round .rne false 0 ⟨d.neg, 2 * (m / n) + b2n (m % n != 0), d.exp - 65⟩).bits
  | e => e

/-- The smallest fp32 value not below the square root of an exact value (R234). -/
def sqrtUp (e : Ext) : Ext :=
  match e with
  | .fin d =>
    if d.mant = 0 then .fin Dy.zero
    else
      let q : Int := max (d.log2 / 2) (-126) - 23
      let sh := d.exp - 2 * q
      let n := if 0 ≤ sh then d.mant <<< sh.toNat else ceilDiv d.mant (2 ^ (-sh).toNat)
      let r := Nat.sqrt n
      fp32.dec (fp32.round .rne false 0 ⟨false, if r * r = n then r else r + 1, q⟩).bits
  | e => e

/-- The exact sum of squares of a row. -/
def sqSum (xs : List Ext) : Ext := xs.foldl (fun a x => a.add (x.mul x)) (.fin Dy.zero)

/-- The larger of two values, NaN when either is. -/
def maxOf (xs : List Ext) : Ext := xs.foldl Ext.max' (.fin Dy.zero)

/-- An estimate line from a page's valid keys (R233, R234). -/
def estimateLine (keys : List (List Ext)) (valid flags : Nat) : List Byte :=
  let ks := keys.map fun k => k.map fun x => fp32.dec (exactBits fp32 x)
  let mean := (List.range 128).map fun i =>
    divRne (ks.foldl (fun a k => fp32.dec (exactBits fp32 (a.add (k.getD i (.fin Dy.zero))))) (.fin Dy.zero)) (max 1 ks.length)
  let (ce, cs, _) := kvEncode kvCentProf mean
  let c := kvDecode 4 ce cs
  let dist := ks.map fun k => sqrtUp (sqSum (List.zipWith Ext.sub k c))
  let norms := (c :: ks).map fun k => sqrtUp (sqSum k)
  ce ++ cs ++ List.replicate 12 0 ++ leBytes 4 (exactBits fp32 (maxOf dist)) ++ leBytes 4 (exactBits fp32 (maxOf norms)) ++
    leBytes 1 valid ++ leBytes 1 flags ++ List.replicate 38 0

/-- Every head's estimate line of a page recomputed from its valid tokens (R234). -/
def kvEstimate (v : View) (n page valid flags : Nat) : Dev Unit := do
  let s ← get
  let H := s.kvHeads n
  let body := s.kvBody n page
  let side := s.kvSide n page
  forAll (List.range H) fun h => do
    let keys ← (List.range valid).mapM fun t => do
      let es ← kvGet v (body + 4096 * h + 128 * t) 128
      let ss ← kvGet v (side + 0x40 + 128 * H + 64 * h + 4 * t) 4
      return kvDecode 0 es ss
    kvPut v (side + 0x40 + 128 * h) (estimateLine keys valid flags)

/-- A page for a token: the entry's, or one allocated in two phases (R247). -/
def kvPageFor (v : View) (n sq layer lp slot : Nat) : Dev Nat := do
  let s ← get
  let e := s.kvSeq n sq
  must (decide (lp < e.maxpg)) 0x616
  let at' := e.ptBase + 8 * (layer * e.maxpg + lp)
  let pte := leNat (← kvGet v at' 8)
  if bit pte 31 then return fld pte 27 0
  must (e.reserved != 0) 0x611
  must (slot == 0) 0x618
  let used := (s.pool n).used
  let p := freePage used (s.kvPages n) (used.length + 1) (← freshBelow (s.kvPages n))
  upd fun s => { s with pools := spMod dKvPool s.pools n fun k => { k with used := spSet dBool k.used p true } }
  let (u, r) := s.kvUse n
  let side := s.kvSide n p
  let gen := (leNat (← kvGet v side 4) + 1) % 2 ^ 32
  kvPut v side (leBytes 4 gen ++ leBytes 4 sq ++ leBytes 2 layer ++ leBytes 1 0 ++ leBytes 1 0 ++ leBytes 4 lp ++
    List.replicate 48 0)
  kvPut v at' (leBytes 8 (gen <<< 32 + 2 ^ 31 + p))
  kvSetSeq v n sq { e with reserved := e.reserved - 1, inUse := e.inUse + 1 }
  kvCounts n (u + 1) (r - 1)
  return p

/-- One token's element rows of one kind written for every head: `base` is the body offset within a head, `sbase` the
offset of the scales. -/
def kvRows (v : View) (body side slot base sbase : Nat) (rows : List (List Ext)) : Dev Exc := do
  let es ← (rows.zipIdx).mapM fun (xs, h) => do
    let (e, sc, ev) := kvEncode kvProf xs
    kvPut v (body + 4096 * h + base + 128 * slot) e
    kvPut v (side + sbase + 64 * h + 4 * slot) sc
    return ev
  return Exc.sum es

/-- One token written at a position (R245 to R247); its events. -/
def kvToken (v : View) (n sq layer nsk pos : Nat) (bytes : List Byte) : Dev Exc := do
  let s ← get
  let H := s.kvHeads n
  let slot := pos % 16
  let p ← kvPageFor v n sq layer (pos / 16) slot
  let body := s.kvBody n p
  let side := s.kvSide n p
  let hd ← kvGet v (side + 8) 4
  let valid := leNat ((hd.drop 2).take 1)
  must (decide (slot ≤ valid)) 0x618
  let row (i : Nat) : List Ext := bf16Vals 128 (bytes.drop (256 * i))
  let ev1 ← kvRows v body side slot 0 (0x40 + 128 * H) ((List.range H).map row)
  let ev2 ← kvRows v body side slot 2048 (0x40 + 192 * H) ((List.range H).map fun h => row (H + h))
  let valid := max valid (slot + 1)
  let fl := leNat ((hd.drop 3).take 1)
  let flags := if nsk = 0 then fl else setFld fl 0 0 (b2n (nsk == 1))
  kvPut v (side + 0xA) [BitVec.ofNat 8 valid, BitVec.ofNat 8 flags]
  kvEstimate v n p valid flags
  let e := (← get).kvSeq n sq
  if e.tokens < pos + 1 then kvSetSeq v n sq { e with tokens := pos + 1 }
  return ev1.plus ev2

/-- Token `i` of a KVW of tile `t`: `per` bytes of what it read, and its events counted in context `c`. -/
def kvwToken (t c : Nat) (v : View) (n sq layer nsk pos0 per : Nat) (bytes : List Byte) (i : Nat) : Dev Unit := do
  let ev ← kvToken v n sq layer nsk (pos0 + i) ((bytes.drop (per * i)).take per)
  upd fun s => s.setTile t ((s.tile t).count c ev)

/-- KVW (R243 to R249): tokens before one that fails stay written. -/
def execKvw (t : Nat) (w : IWord) (x : W64) (s : State) : Res :=
  deviceInstr s t (.kvw t w x) 0x57 w x fun s tl kx => inDev t (do
    let sq := (tl.s kx w.sa).toNat
    let (v, n) ← kvBound kx w sq
    let pos0 := (tl.s kx w.sb).toNat
    let count := (tl.s kx w.sc).toNat
    must (decide (1 ≤ count ∧ count ≤ 256)) 0x616
    let per := (← get).kvHeads n * 512
    let imm := w.imm.toNat
    let base := specCis (tl.ctx kx.c) (specA x)
    let bytes ← liftEx (cisRead tl kx.k base (per * count))
    forAll (List.range count) (kvwToken t kx.c v n sq (fld imm 23 16) (fld imm 5 4) pos0 per bytes)
    return .done ((← get).tile t)) s tl

/-- The page-list entry of logical page `lp` of a sequence's layer: its body and side addresses (R248). -/
def kvtEntry (v : View) (n sq layer lp : Nat) : Dev (List Byte) := do
  let s ← get
  let e := s.kvSeq n sq
  must (decide (lp < e.maxpg)) 0x616
  let pte := leNat (← kvGet v (e.ptBase + 8 * (layer * e.maxpg + lp)) 8)
  must (bit pte 31) 0x612
  let p := fld pte 27 0
  let gen := leNat (← kvGet v (s.kvSide n p) 4)
  must (decide (gen = pte / 2 ^ 32)) 0x613
  return leBytes 8 (s.kvBody n p) ++ leBytes 8 (s.kvSide n p)

/-- KVT (R248, R249). -/
def execKvt (t : Nat) (w : IWord) (x : W64) (s : State) : Res :=
  deviceInstr s t (.kvt t w x) 0x58 w x fun s tl kx => inDev t (do
    let sq := (tl.s kx w.sa).toNat
    let (v, n) ← kvBound kx w sq
    let lp0 := (tl.s kx w.sb).toNat
    let count := (tl.s kx w.sc).toNat
    must (decide (1 ≤ count ∧ count ≤ 128)) 0x616
    let entries ← (List.range count).mapM fun i => kvtEntry v n sq (fld w.imm.toNat 23 16) (lp0 + i)
    let tl ← liftEx (cisWrite ((← get).tile t) kx.k (specCis (tl.ctx kx.c) (specA x)) entries.flatten)
    return .done tl) s tl

/-- The bits of a pool register that are kept. -/
def kvMask (i : Nat) : Nat := if i = 0 then maskBits 63 0 else maskBits 63 16

/-- A write of a pool register (R236): `i` is 0 CFG, 1 BODY, 2 SIDE, 3 SEQ. Setting EN frees every page and closes every
sequence. -/
def execKvpPoolCfgWrite (n i v : Nat) (o : Origin) (s : State) : Res := Dev.run' (do
  let off := kvReg n (8 * i)
  let cfg := s.rn (kvReg n 0)
  let open' := (s.pool n).seqs.any fun e => e.2.isOpen
  let clears := i == 0 && decide (v = setFld cfg 63 63 0)
  let mine := o.isDrd || o.owns (if i = 0 ∧ !bit cfg 63 then fld v 62 60 else fld cfg 62 60)
  let ok := decide (n < 64 ∧ i < 4) && mine && (!bit cfg 63 || (clears && !open'))
  regWrite o off v ok do
    putReg off (keepBits v (kvMask i))
    if i = 0 ∧ bit v 63 then
      upd fun s => { s with pools := spSet dKvPool s.pools n (dKvPool n) }
      kvCounts n 0 0) s

end Sys2Proof.Machine
end

