-- ==== Sys2Proof/Machine/Thermal.lean ====
section
/-! DEFINITION. Power limiting, temperature and package protection (R341 to R343, R721 to R733). -/

namespace Sys2Proof.Machine

/-! ### ECLK -/

/-- The ceilings on a tile's ECLK in MHz (R723), in the order of THM_ECLKt.REASON: F_pwr, F_temp of its die, F_prot or
F_brake, and F_clamp. -/
def State.ceilings (s : State) (t : Nat) : List Nat :=
  let p := s.power
  [p.fpwr, spGet dCeil p.ftemp (s.dieOf t).1, if p.prot || p.brake then 400 else 1500, if p.clamp = 0 then 1500 else p.clamp]

/-- The ECLK of a tile in MHz (R723). -/
def State.eclk (s : State) (t : Nat) : Nat := (s.ceilings t).foldl min 1500

/-- THM_ECLKt (R728): MHZ, and REASON for the ceilings below 1,500 MHz that bind the tile. -/
def State.eclkReg (s : State) (t : Nat) : Nat :=
  let m := s.eclk t
  let reason := (List.range 4).foldl (fun n i =>
    let c := (s.ceilings t).getD i 1500
    if c = m ∧ c < 1500 then n + 2 ^ i else n) 0
  reason <<< 16 + m

/-- The highest ECLK among a compute die's tiles, as THM_ECLKt holds it (R707). -/
def State.dieMhz (s : State) (d : Nat) : Nat :=
  (List.range (s.dieSlots d)).foldl (fun m j =>
    let t := s.firstTile d + j
    if s.tileUp t then max m (tileMhz s t) else m) 0

/-- Every tile goes to the lowest of its ceilings (R723), THM_PWR_STATUS follows, and the rail of a die whose highest ECLK
changed is set (R707). -/
def State.reclock (s : State) : State :=
  let new := (List.range s.nTiles).foldl (fun s t => s.setReg (0x30100 + 8 * t) (BitVec.ofNat 64 (s.eclkReg t))) s
  let new := ((new.setF 0x30008 61 61 (b2n s.power.brake)).setF 0x30008 60 60 (b2n (decide (s.power.fpwr < 1500)))).setF
    0x30008 63 63 (b2n s.power.prot)
  (List.range 16).foldl (fun n d => if s.dieMhz d = n.dieMhz d then n else n.emit (.rail d (n.dieMhz d))) new

/-- A change of the ceilings. -/
def State.setPower (s : State) (f : Power → Power) : State := { s with power := f s.power }.reclock

/-! ### Power -/

/-- LIMIT_W. -/
def State.limitW (s : State) : Nat := s.rf 0x30000 15 0

/-- The sum of the last values of NOW, and how many there are: AVG is their mean (R721). -/
def nowSum (l : List Nat) : Nat × Nat := (l.foldl (· + ·) 0, l.length)

/-- F_pwr after a period (R722), from the last values of NOW and whether the clamp keeps it from rising. -/
def nextFpwr (f limit : Nat) (nows : List Nat) (held : Bool) : Nat :=
  let (sum, n) := nowSum nows
  if 105 * limit * n < 100 * sum then max 400 (f - 100)
  else if limit * n < sum then max 400 (f - 25)
  else if n = 10 ∧ nows.all (fun x => decide (100 * x < 97 * limit)) ∧ !held then min 1500 (f + 25)
  else f

/-- POWER_PERIOD_UPDATE (R721, R722, R724): the end of a 100 µs period whose mean power was `now` W. -/
def execPowerPeriodUpdate (now : Nat) (s : State) : Res :=
  .next (
    let p := s.power
    let nows := (now :: p.nows).take 10
    let (sum, n) := nowSum nows
    let calm := if sum ≤ s.limitW * n then p.calm + 1 else 0
    let lift := p.clamp != 0 && decide (10 ≤ calm)
    let f := nextFpwr p.fpwr s.limitW nows (p.clamp != 0)
    let f := if lift then min f p.clamp else f
    let s := (s.setF 0x30008 15 0 (min now 65535)).setF 0x30008 47 32 (min (sum / n) 65535)
    let s := s.setF 0x30008 31 16 (max (s.rf 0x30008 31 16) (min now 65535))
    s.setPower fun p => { p with nows := nows, calm := calm, fpwr := f, clamp := if lift then 0 else p.clamp })

/-- CLAMP_TRIGGER (R724): four consecutive samples above CLAMP_W. -/
def execClampTrigger (samples : List Nat) (s : State) : Res :=
  .next (if 4 ≤ samples.length ∧ samples.all (fun x => decide (s.rf 0x30000 31 16 < x)) then
      (s.setF 0x30008 62 62 1).setPower fun p => { p with clamp := s.rf 0x30000 47 32, calm := 0 }
    else s)

/-- POWER_BRAKE_ASSERT (R717, R725): PWRBRK_N low for `us` µs. -/
def execPowerBrakeAssert (us : Nat) (s : State) : Res :=
  .next (if 1 ≤ us then s.setPower fun p => { p with brake := true } else s)

/-- POWER_BRAKE_RELEASE (R725): PWRBRK_N deasserted for `us` µs; 1 ms after it F_brake is lifted and F_pwr is 400 MHz. -/
def execPowerBrakeRelease (us : Nat) (s : State) : Res :=
  .next (if 1000 ≤ us ∧ s.power.brake then s.setPower fun p => { p with brake := false, fpwr := 400 } else s)

/-- MONITOR_CALIBRATION (R721): the current monitors calibrated against the VRs. -/
def execMonitorCalibration (s : State) : Res :=
  .next { s with power := { s.power with cals := s.power.cals + 1 } }

/-- A write of THM_PWR_CFG (R726). -/
def thmPwrWrite (v : Nat) (o : Origin) : Dev Unit := do
  let limit := max 600 (min 2200 (fld v 15 0))
  let clampW := min 2420 (fld v 31 16)
  let mhz := fld v 47 32
  let ok := o.manages && decide (limit ≤ clampW) && decide (400 ≤ mhz) && decide (mhz ≤ 1500) && mhz % 25 == 0
  lockWrite o 0x30000 v 63 0x30FF8 ok fun locked => do
    if !locked then putReg 0x30000 (b2n (bit v 63) <<< 63 + mhz <<< 32 + clampW <<< 16 + limit)

/-- THM_PWR_CFG_WRITE (R726). -/
def execThmPwrCfgWrite (v : Nat) (o : Origin) (s : State) : Res := Dev.run' (thmPwrWrite v o) s

/-! ### Temperature -/

/-- A logic die of the package that the part fits (R729, R732). -/
def State.logicDie (s : State) (i : Nat) : Bool := !(decide (20 ≤ i) && decide (i < 32)) && s.fittedDies.contains i

/-- Whether every stack is at step 3 or below, and every logic die at 100 °C or below (R730). -/
def State.coolNow (s : State) : Bool :=
  (List.range 12).all (fun k => decide (s.rf (hubReg (k / 3) (0x200 + 8 * (k % 3))) 10 8 ≤ 3)) &&
    (List.range 40).all (fun i => decide (s.rf (0x30400 + 8 * i) 23 16 ≤ 100))

/-- Since when the package has been within the limits that end protection. -/
def State.watchCool (s : State) : State :=
  { s with power := { s.power with cool := if s.coolNow then some (s.power.cool.getD s.time) else none } }

/-- Package protection starts (R730), with the ditchrider's thermal interrupt (R733). -/
def State.protect (s : State) : State :=
  if s.power.prot then s else (s.setPower fun p => { p with prot := true }).pfIrq 2

/-- The thermal trip (R731): every die but the always-on island loses power, THERMTRIP_N and FAULT_N are asserted, and the trip
goes to the event log. -/
def State.thermTrip (s : State) (where_ : Nat) : State :=
  let s := (s.noteEvent 8 0 where_ (s.rn where_)).cleared
  if s.pins.trip then s
  else ({ s with pins := { s.pins with trip := true } }.emit (.pin 2 0)).setFault true

/-- The threshold at which a logic die starts protection (R730). -/
def alarmTemp (i : Nat) : Nat := if i < 16 then 110 else 105

/-- DIE_TEMP_READ (R729 to R733): logic die `i` reports `tj` °C. -/
def execDieTempRead (i tj : Nat) (s : State) : Res :=
  .next (if !s.logicDie i || s.pins.trip then s
    else
      let off := 0x30400 + 8 * i
      let tj := min tj 255
      let alarm := decide (alarmTemp i ≤ tj)
      let old := s.rb off 0
      let s := ((s.setF off 23 16 tj).setF off 15 8 (max (s.rf off 15 8) tj)).setF off 1 1 (b2n (decide (100 ≤ tj)))
      let s := if alarm then s.setF off 0 0 1 else s
      let s := if alarm && !old then s.pfIrq 2 else s
      let s := (if alarm then s.protect else s).watchCool
      if 125 ≤ tj then s.thermTrip off else s)

/-- DIE_TEMP_CEILING_UPDATE (R729): the millisecond's change of F_temp of compute die `d`. -/
def execDieTempCeilingUpdate (d : Nat) (s : State) : Res :=
  .next (if 16 ≤ d then s
    else
      let tj := s.rf (0x30400 + 8 * d) 23 16
      let f := spGet dCeil s.power.ftemp d
      let f := if 100 ≤ tj then max 400 (f - 25) else if tj ≤ 97 then min 1500 (f + 25) else f
      s.setPower fun p => { p with ftemp := spSet dCeil p.ftemp d f })

/-- The entry thresholds of steps 1 to 5 (R341). -/
def stepTemps : List Nat := [85, 95, 100, 105, 110]

/-- A stack's step after a reading (R341). -/
def nextStep (step temp : Nat) : Nat :=
  let e := (stepTemps.filter fun x => decide (x ≤ temp)).length
  if step ≤ e then e
  else if temp + 3 ≤ stepTemps.getD (step - 1) 0 then e else step

/-- STACK_TEMP_READ (R341, R343, R730, R731, R733): the stack of site `site` reads `temp` °C. -/
def execStackTempRead (site temp : Nat) (s : State) : Res :=
  .next (if !s.fittedSites.contains site || s.pins.trip then s
    else
      let off := hubReg (site / 3) (0x200 + 8 * (site % 3))
      let temp := min temp 255
      let step := s.rf off 10 8
      let new := nextStep step temp
      let entered (k : Nat) : Bool := decide (step < new) && decide (k ≤ new)
      let old := s.rb off 0
      let s := ((s.setF off 23 16 temp).setF off 10 8 new).setF off 3 1 (max (s.rf off 3 1) new)
      let s := if entered 4 then s.setF off 0 0 1 else s
      let s := if entered 4 && !old then s.pfIrq 2 else s
      let s := (if entered 5 then s.protect else s).watchCool
      if 115 ≤ temp then s.thermTrip off else s)

/-- PROTECTION_END (R730): after 100 ms within the limits. -/
def execProtectionEnd (s : State) : Res :=
  .next (match s.power.cool with
    | some t => if s.power.prot ∧ t + 100000000 ≤ s.time then s.setPower fun p => { p with prot := false, fpwr := 400 } else s
    | none => s)

/-! ### The lands -/

/-- ALERT_N is asserted (R733). -/
def State.alert (s : State) : Bool :=
  (List.range 12).any (fun k => s.rb (hubReg (k / 3) (0x200 + 8 * (k % 3))) 0) || (List.range 40).any (fun i => s.rb (0x30400 + 8 * i) 0) ||
    s.rb 0x30008 63 || s.rf 0x18 23 22 == 2 || s.rf 0x18 21 20 != 0

/-- SMBUS_ALERT_RESPONSE (R716, R733). -/
def execSmbusAlertResponse (s : State) : Res :=
  .next (if s.pins.standby && s.alert then s.emit (.alertAddr (0x38 + s.pins.smb)) else s)

/-- PPS_PULSE (R714): one pulse per second of reference time. -/
def execPpsPulse (s : State) : Res :=
  .next (
    let ref := wrap 64 ((s.time : Int) + sgn 64 (s.rn 0x38))
    let sec := ref / 1000000000
    if sec = s.pins.pps then s else { s with pins := { s.pins with pps := sec } }.emit (.pin 0 1))

end Sys2Proof.Machine
end

