-- ==== Sys2Proof/Machine/Ras.lean ====
section
/-! DEFINITION. Partitions and their memory, releases and sharing (R665 to R679), faults of memory and of tiles (R683 to
R692), the ditchrider pair (R693), and the log's registers (R700). -/

namespace Sys2Proof.Machine

/-! ### Partitions -/

/-- The bit at which a register outside the tiles carries an owner (R667): the offsets of the PART fields, all of them at
[62:60]. -/
def carriesPart (off : Nat) : Bool :=
  (decide (0x110000 ≤ off ∧ off < 0x150000) && off % 0x1000 == 0) ||
    (decide (hifReg 0x100000 ≤ off ∧ off < hifReg 0x200000) && off % 0x80 == 0) ||
    (decide (hifReg 0x4000 ≤ off ∧ off < hifReg 0x4800) && off % 0x40 == 0) ||
    (decide (hifReg 0 ≤ off ∧ off < hifReg 0x800) && off % 8 == 0) ||
    (decide (0x03000000 ≤ off ∧ off < 0x03400000) && off % 0x40000 == 0) ||
    (decide (0x60000 ≤ off ∧ off < 0x60020) && off % 8 == 0) ||
    (decide (0x50000 ≤ off ∧ off < 0x50200) && off % 8 == 0) ||
    (decide (0x02000000 ≤ off ∧ off < 0x02400000) && decide (0x40000 ≤ off % 0x100000 ∧ off % 0x100000 < 0x40400) &&
      off % 0x40 == 0)

/-- Whether an address space, queue, media ring, port, function, pool or communicator names partition `p` (R667). -/
def State.named (s : State) (p : Nat) : Bool :=
  s.regs.any fun e => carriesPart e.1 && fld e.2.toNat 62 60 == p

/-- The granules of HBM4, or of the board tier, that are available to partitions (R362, R363, R369, R668). -/
def State.granules (s : State) (board : Bool) : Nat :=
  if board then s.boardBytes / 2 ^ 32 else (s.hbmEnd - 2 ^ 32) / 2 ^ 30
/-- The first DPA of a granule. -/
def granBase (board : Bool) (g : Nat) : Nat := if board then boardBase + g * 2 ^ 32 else g * 2 ^ 30
/-- The bytes of a granule. -/
def granSize (board : Bool) : Nat := if board then 2 ^ 32 else 2 ^ 30

/-- Whether partition `p` owns a granule. -/
def State.ownsGranule (s : State) (p : Nat) : Bool :=
  [false, true].any fun b => (List.range (s.granules b)).any fun g =>
    let r := granReg (granBase b g)
    s.rb r 31 && s.rf r 30 28 == p

/-- Whether HGT_PARTn_CFG may take EN (R665, R667). -/
def State.enOk (s : State) (n : Nat) (en : Bool) : Bool :=
  n == 0 || (if en then s.lic 0
    else !s.rb (partCfg n) 63 || (s.rn (partTiles n) == 0 && !s.ownsGranule n && !s.named n))

/-- HGT_PART_CFG_WRITE (R665 to R667). -/
def execHgtPartCfgWrite (n v : Nat) (o : Origin) (s : State) : Res := Dev.run' (do
  let s ← get
  if n < 8 then
    regWrite o (partCfg n) v (o.manages && s.enOk n (bit v 63)) (upd fun s =>
      let s := if n = 0 then s else s.setF (partCfg n) 63 63 (b2n (bit v 63))
      s.setF (partCfg n) 47 0 (fld v 47 0))) s

/-- HGT_PART_TILES_WRITE (R666, R667). -/
def execHgtPartTilesWrite (n v : Nat) (o : Origin) (s : State) : Res := Dev.run' (do
  let s ← get
  if n < 8 then
    let v' := v % 2 ^ s.nTiles
    let busy (t : Nat) : Bool := (List.range 4).any fun c => bit (ctxCfg (s.tile t) c) 63 || ((s.tile t).ctx c).kernels != []
    let ok := (List.range 64).all fun t =>
      if bit v' t then (List.range 8).all fun m => m == n || !s.rb (partTiles m) t
      else !(s.rb (partTiles n) t && busy t)
    regWrite o (partTiles n) v (o.manages && ok) (putReg (partTiles n) v')) s

/-- Whether the change log's overflow region meets a granule (R669). -/
def State.meetsOverflow (s : State) (board : Bool) (g : Nat) : Bool :=
  let a := granBase board g
  let b := s.rf 0x40000 57 32 * 65536
  s.rb 0x40000 63 && decide (a < b + s.rf 0x40000 15 0 * 65536) && decide (b < a + granSize board)

/-- The listed frames of a granule. -/
def State.granFrames (s : State) (board : Bool) (g : Nat) : List (Nat × Frame) :=
  let f := frameOf (granBase board g)
  s.frames.filter fun e => decide (f ≤ e.1) && decide (e.1 < f + granSize board / 65536)

/-- HGT_GRANULE_WRITE (R668, R669): an accepted change waits until it has taken effect at every hub. -/
def execHgtGranuleWrite (board : Bool) (g v : Nat) (o : Origin) (s : State) : Res := Dev.run' (do
  let s ← get
  if g < s.granules board then
    let off := granReg (granBase board g)
    let ok := o.manages && !((s.granFrames board g).any fun e => e.2.shared || e.2.state == 1) && s.rb (partCfg (fld v 30 28)) 63 &&
      !s.meetsOverflow board g
    regWrite o off v ok (upd fun s => { s with grants := s.grants ++ [(off, fld v 31 28)] })) s

/-- GRANULE_CHANGE_DONE (R669): the changes have taken effect, and GBUSY is 0. -/
def execGranuleChangeDone (s : State) : Res :=
  .next { s.grants.foldl (fun s e => s.setF e.1 31 28 e.2) s with grants := [] }

/-- HGT_FRZ_REL (R674, R675). -/
def execHgtFrzRel (v : Nat) (o : Origin) (s : State) : Res := Dev.run' (do
  let s ← get
  let i := fld v 7 0
  let psel := bit v 8
  let e := 0x101000 + 8 * i
  let p := s.rf e 62 60
  let t := s.rf e 55 32
  let still := s.rf e 59 56 == 1 && ((s.tile t).run.any (fun r => !r.ended) || (s.tile t).aborting)
  let ok := if psel then o.manages && s.partFrozen (i % 8)
    else (o.manages || o.owns p) && s.rb e 63 && !still
  regWrite o 0x100008 v ok do
    shadowed 0x100008 (v % 2 ^ 32)
    upd fun s => if psel then s.setF (partCfg (i % 8)) 62 62 0 else s.setReg e 0
    upd fun s => s.logRec 5 { o with part := if psel then i % 8 else p } 0 (if psel then 256 + i % 8 else i) 0) s

/-! ### Sharing -/

/-- The frames of HGT_SHARE_RANGE. -/
def State.shareRange (s : State) : List Nat := (List.range (s.rf 0x100010 16 0)).map fun i => s.rf 0x100010 57 32 + i

/-- The outcome of a sharing operation in HGT_SHARE_STATUS. -/
def State.shareEnd (s : State) (code done : Nat) : State := s.setReg 0x100020 (BitVec.ofNat 64 (code <<< 32 + done % 2 ^ 32))

/-- SHARE (R677, R678). -/
def execShare (v : Nat) (o : Origin) (s : State) : Res := Dev.run' (
  regWrite o 0x100018 v o.manages do
    shadowed 0x100018 v
    upd fun s =>
      let owner := fld v 18 16
      let readers := fld v 15 8
      let fs := s.shareRange
      let denied := fs.any (fun f => !s.granted owner (f * 65536)) ||
        (List.range 8).any fun p => bit readers p && !s.rb (partCfg p) 63
      if denied then s.shareEnd 0xF03 0
      else if fs.any fun f => !(s.frame f).mirror || (s.frame f).mstale != 0 then s.shareEnd 0xF05 0
      else if fs.any fun f => (s.frame f).state != 0 then s.shareEnd 0xF04 0
      else
        let done := (fs.filter fun f => !(s.frame f).shared).length
        (fs.foldl (fun s f =>
          let g := granReg (f * 65536)
          (s.setFrame f { s.frame f with shared := true }).setF g 15 8 (Nat.lor (s.rf g 15 8) readers)) s).shareEnd 0 done) s

/-- The granule of a DPA: its tier and number. -/
def granuleOf (a : Nat) : Bool × Nat := if boardBase ≤ a then (true, (a - boardBase) / 2 ^ 32) else (false, a / 2 ^ 30)

/-- UNSHARE (R677, R679). -/
def execUnshare (v : Nat) (o : Origin) (s : State) : Res := Dev.run' (
  regWrite o 0x100018 v o.manages do
    shadowed 0x100018 v
    upd fun s =>
      let mine := s.shareRange.filter fun f => s.rb (granReg (f * 65536)) 31 && s.rf (granReg (f * 65536)) 30 28 == fld v 18 16
      let done := (mine.filter fun f => (s.frame f).shared).length
      let s := mine.foldl (fun s f => s.setFrame f { s.frame f with shared := false }) s
      let s := ((mine.map fun f => granuleOf (f * 65536)).eraseDups).foldl (fun s g =>
        if (s.granFrames g.1 g.2).any fun e => e.2.shared then s
        else s.setF (granReg (granBase g.1 g.2)) 15 8 0) s
      s.shareEnd 0 done) s

/-! ### A lost channel or stack -/

/-- The frames of a hub in a tier. -/
def State.tierFrames (s : State) (h : Nat) (board : Bool) : List Nat :=
  let base := if board then frameOf boardBase else 0
  let n := (if board then s.boardBytes else s.hbmEnd - 2 ^ 32) / 65536
  ((List.range n).map (base + ·)).filter fun f => s.hubOf (f * 65536) == h

/-- A frame re-homed, dropped or poisoned after its memory is lost (R683). -/
def State.rehome (s : State) (f : Nat) : State :=
  let e := s.frame f
  let s := { s with msc := s.msc.filter fun l => l.1 / 256 != f }
  if e.mcopy then
    let s := s.setFrame f { Frame.zero with state := 3 }
    { s with frames := s.frames.map fun x =>
        if x.2.mirror && x.2.mframe == f then (x.1, { x.2 with mirror := false, mstale := 0, mframe := 0 }) else x }
  else if e.mirror then
    let m := e.mframe
    let s := s.setFrame f { Frame.zero with state := 2, fwd := m }
    let s := s.setFrame m { s.frame m with mcopy := false, dirty := e.dirty, shared := e.shared, mframe := 0 }
    let s := s.logRec 6 Origin.engine 5 f 0
    (List.range 16).foldl (fun s i =>
      if bit e.mstale i then
        (unitsOf (m * 65536 + 4096 * i) 4096).foldl (fun s a => s.engineWrite a (List.replicate 64 0) true) s
      else s) s
  else if e.state = 2 ∨ e.state = 3 then s
  else s.poisonFrame f

/-- MEMORY_CHANNEL_LOSS (R645, R683, R696): board channel `k`, or the stack of site `k`, is lost in operation. -/
def execMemoryChannelLoss (board : Bool) (k : Nat) (s : State) : Res := Dev.run' (do
  let s ← get
  if if board then k < 16 ∧ bit s.boards k = true else s.sites.contains k = true then
    let h := if board then k / 4 else k / 3
    upd fun s => (s.tierFrames h board).foldl State.rehome s
    upd fun s => s.defect (if board then 5 else 4) k 0 2
    upd fun s =>
      if board then { s with boot := { s.boot with lostCh := Nat.lor s.boot.lostCh (2 ^ k) } }
      else { s with boot := { s.boot with deadDies := Nat.lor s.boot.deadDies (2 ^ (20 + k)) } }
    upd fun s => s.capChange.reservice
    releaseWaits) s

/-! ### Tile faults -/

/-- A step whose journal no longer replays (R476, R691). -/
def jrnSpoil (who : Master) (p step : Nat) : Dev Unit := do
  let s ← get
  let v := s.jrnView who p
  match ← vaRead v 0 (s.jrnBase p step) 64 none with
  | .error _ => pure ()
  | .ok h =>
    upd fun s => s.setF (jrnReg p 0x18) 63 63 1
    let f := fun (off : Nat) => leNat ((h.drop off).take 8)
    let _ ← vaWrite v 0 (s.jrnBase p step) (jrnHeader step 2 (f 0x10) (f 0x18) (f 0x20))
    pure ()

/-- A good spare site of a die that is unused. -/
def State.spareOf (s : State) (d : Nat) : Option Nat :=
  ((List.range 5).map (5 * d + ·)).find? fun k =>
    siteState (s.fuse d) (k % 5) == 1 && !bit s.boot.badSites k && !(List.range s.nTiles).any fun t => s.siteOf t == k

/-- A tile on the spare site that takes it over: what step 4 of R689 copies; the register files and banks that it does not
copy hold free values, and words that could not be read are poisoned (R691). -/
def Tile.moveSite (tl : Tile) (t : Nat) (lost : List Nat) : Tile :=
  let keep (off : Nat) : Bool := decide (off < 0x10) || decide (0x1000 ≤ off ∧ off < 0x1020) ||
    decide (0x2000 ≤ off ∧ off < 0x2040) || decide (0xC000 ≤ off ∧ off < 0xC100)
  let fresh (i : Nat) : Nat := (Config.freeValue (0x2000 + t) (tl.free + i)).toNat
  let banks := (match tl.act with
    | none => []
    | some c => (tl.ctx c).kernels).foldl (fun m (k : LKernel) => Nat.lor m k.accKeep) 0
  let acc := (List.range 131072).foldl (fun m i =>
    if bit banks (i / 32768) then m else spSet dW32 m i (BitVec.ofNat 32 (fresh (16384 + i)))) tl.acc
  { tl with
    regs := tl.regs.filter fun e => keep e.1
    ctxs := (List.range 4).foldl (fun m c =>
      let x := tl.ctx c
      spSet dCtx m c { Ctx.reset with kernels := x.kernels, poison := x.poison || lost != [], saved := x.saved }) []
    v := spWrite dW32 [] 0 ((List.range 16384).map fun i => BitVec.ofNat 32 (fresh i))
    acc := acc
    st := spWrite dW64 [] 0 ((List.range 1024).map fun i => BitVec.ofNat 64 (fresh (147456 + i)))
    bad := lost.foldl (fun m w => spSet dBool m w true) tl.bad
    soft := [], lineCe := [], scrub := [], post := [], inbox := [], latch := [], scratch := [], tlb := [], wraps := []
    free := tl.free + 148480 }

/-- A tile fault ends the launch that runs on the tile (R131, R692). -/
def State.faultTile (s : State) (t : Nat) : State :=
  match (s.tile t).run with
  | none => s
  | some r =>
    let tl := (s.tile t).abortTask 0x328 0 s.time
    (abortGroup (s.setTile t tl) r.launch t).rasBit (s.tilePart t) 3

/-- The group of a launch stops to start again (R689): its sluice operations are kept, and a step that it records no longer
replays. -/
def stopGroup (l : Launch) : Dev Unit := do
  forAll (tilesOf l.mask) fun t => upd fun s => s.setTile t ((s.tile t).abortTask 0 0 s.time)
  upd fun s => { s.setLaunch { l with phase := 3 } with
    ops := s.ops.map fun o => { o with posts := o.posts.map fun p => if p.launch = l.id then { p with kept := true } else p } }
  match ((← get).tile ((tilesOf l.mask).headD 0)).run with
  | some r => if r.jmode = 1 then jrnSpoil (.tile ((tilesOf l.mask).headD 0)) l.part r.jstep
  | none => pure ()

/-- TILE_FAULT (R24, R131, R686 to R692): tile `t` faults; `spareOk` is whether the spare site passes its self-test, and
`lost` the cistern words that could not be copied. -/
def execTileFault (t : Nat) (spareOk : Bool) (lost : List Nat) (s : State) : Res := Dev.run' (do
  let s ← get
  if s.tileUp t then
    let old := s.siteOf t
    let (d, _) := s.dieOf t
    let run := s.launches.find? fun l => l.phase == 1 && bit l.mask t
    let again (l : Launch) : Bool := !bit ((s.tile t).reg 8).toNat l.ctx &&
      (tilesOf l.mask).all fun u => !((s.tile u).run.map (·.effects)).getD false
    upd fun s => s.logRec 6 Origin.drd 6 0 t
    let retire (k : Nat) : Dev Unit := upd fun s =>
      { s.defect 1 k 0 1 with boot := { s.boot with badSites := Nat.lor s.boot.badSites (2 ^ k) } }
    let spare := s.spareOf d
    if let some k := spare then
      if !spareOk then retire k
    retire old
    match (if spareOk then spare else none) with
    | some k =>
      match run with
      | some l => if again l then stopGroup l else upd fun s => s.faultTile t
      | none => pure ()
      upd fun s =>
        let s := s.setTile t ((s.tile t).moveSite t lost)
        let s := { s with holders := if k = s.fusedSite t then spErase s.holders t else spSet dNat s.holders t k }
        ((s.logRec 9 Origin.drd 0 t k).logRec 9 Origin.drd 0 t old).capChange
    | none =>
      upd fun s =>
        let s := (s.faultTile t).rasBit (s.tilePart t) 3
        let s := { s with offline := Nat.lor s.offline (2 ^ t) }
        (s.logRec 9 Origin.drd 0 t old).capChange.reservice) s

/-! ### The ditchrider and the log -/

/-- DITCHRIDER_TAKEOVER (R693, R694): the ditchrider of an I/O die reports an error, or the two diverge (`none`). -/
def execDitchriderTakeover (failed : Option Nat) (s : State) : Res :=
  .next (if !s.rb 0x10000 2 || failed.any (fun f => decide (2 ≤ f)) then s
    else
      let active := match failed with
        | some 0 => 1
        | _ => 0
      let s := ((s.setF 0x10000 2 2 0).setF 0x10000 1 1 active).setF 0x10000 31 16 (min (s.rf 0x10000 31 16 + 1) 65535)
      ((s.noteEvent 8 0 0x10000 (s.rn 0x10000)).logRec 6 Origin.drd 0 0x10000 (s.rn 0x10000)).reservice)

/-- LOG_ACK_WRITE (R700). -/
def execLogAckWrite (v : Nat) (o : Origin) (s : State) : Res := Dev.run' (
  regWrite o 0x40018 v (o.manages && decide (v ≤ s.rn 0x40008)) (putReg 0x40018 v)) s

/-- LOG_CFG_WRITE (R700): without the overflow region the log keeps only its ring. -/
def execLogCfgWrite (v : Nat) (o : Origin) (s : State) : Res := Dev.run' (
  let new := keepBits v (maskBits 63 63 + maskBits 57 32 + maskBits 15 0)
  let ok := !s.rb 0x40000 63 || (fld new 57 32 == s.rf 0x40000 57 32 && fld new 15 0 == s.rf 0x40000 15 0)
  regWrite o 0x40000 v (o.manages && ok) (upd fun s =>
    let s := s.setReg 0x40000 (BitVec.ofNat 64 new)
    if bit new 63 then s
    else
      let tail := max (s.rn 0x40010) (s.rn 0x40008 - 65536)
      { (s.setReg 0x40010 (BitVec.ofNat 64 tail)).setF 0x40020 0 0 0 with log := s.log.filter fun e => decide (tail ≤ e.1) })) s

/-- PERF_WRAP_SERVICE (R166, R703): the wraps of a performance counter, named by its register offset, go into the
ditchrider's extension. -/
def execPerfWrapService (off : Nat) (s : State) : Res :=
  .next (if 0x1000000 ≤ off ∧ off < 0x2000000 then
      let t := (off - 0x1000000) / 0x40000
      let tl := s.tile t
      let k := off % 0x40000
      { s.setTile t { tl with wraps := spSet dNat tl.wraps k 0 } with
        telem := spMod dNat s.telem off (· + spGet dNat tl.wraps k) }
    else { s with telem := spMod dNat s.telem off (· + spGet dNat s.wraps off), wraps := spSet dNat s.wraps off 0 })

end Sys2Proof.Machine
end

