-- ==== Sys2Proof/Machine/Media.lean ====
section
/-! DEFINITION. The media unit (R581 to R620): job rings, sessions, decoding into planes and tensors, encoding with its
receiver buffer and slice ring, and faults. What the codec standards make of a bitstream or a frame comes with the
commands. -/

namespace Sys2Proof.Machine

/-! ### Presence -/

/-- A media die of the part that works (R18, R581, R648). -/
def State.medThere (s : State) (d : Nat) : Bool := s.variant == 1 && !bit s.boot.deadDies (38 + d)

/-- The engines of a die that serve a direction (R583, R617, R645): decode engines 0 and 1, encode engine 2. -/
def State.medEngines (s : State) (d : Nat) (enc : Bool) : List Nat :=
  if bit s.medDead (4 * d + 3) then []
  else (if enc then (if s.lic 4 then [2] else []) else [0, 1]).filter fun e => !bit s.medDead (4 * d + e)

/-! ### Rings -/

/-- HIF_MR_DOORBELL (R547, R587). -/
def execHifMrDoorbell (r v : Nat) (o : Origin) (s : State) : Res := Dev.run' (do
  let q := ringQ r
  let cfg := (← get).rn (qReg q 0)
  if r < 32 then
    regWrite o (hifReg (0x4030 + 0x40 * r)) v (o.isPf && o.part == fld cfg 62 60) do
      shadowed (hifReg (0x4030 + 0x40 * r)) (v % 2 ^ 32)
      let s ← get
      let v := v % 2 ^ 32
      let pi := s.rf (qReg q 0x20) 63 32
      let cons := s.rf (qReg q 0x20) 31 0
      if !bit cfg 63 || decide (2 ^ 31 ≤ (v + 2 ^ 32 - pi) % 2 ^ 32) then pure ()
      else if s.qSize q < (v + 2 ^ 32 - cons) % 2 ^ 32 then dbErr o.port
      else upd fun s => s.setF (qReg q 0x20) 63 32 v) s

/-- The sessions of a ring out of service closed once it has no job left (R594). -/
def State.closeRing (s : State) (r : Nat) : State :=
  if s.rb (qReg (ringQ r) 0) 63 || s.jobs.any (fun j => j.ring == r) then s
  else { s with sessions := s.sessions.filter fun x => x.ring != r }

/-- HIF_MR_CFG_WRITE (R546, R586, R594): a write of HIF_MRr_CFG (`k` 0), RING (1) or CRING (2). -/
def execHifMrCfgWrite (r k v : Nat) (o : Origin) (s : State) : Res := Dev.run' (do
  let s ← get
  let q := ringQ r
  let off := hifReg (0x4000 + 0x40 * r + 8 * k)
  let old := s.rn (qReg q 0)
  let new := if k = 0 then keepBits v (maskBits 63 40) else keepBits v (maskBits 47 6)
  let en := bit old 63
  let may := o.isDrd || (o.isPf && o.part == fld (if k = 0 ∧ !en then new else old) 62 60) || (o.cls == 3 && o.isPmf)
  let ok := may && (if en then k == 0 && new == setFld old 63 63 0
    else k != 0 || !bit new 63 || (decide (4 ≤ fld new 44 40) && decide (fld new 44 40 ≤ 12)))
  if r < 32 ∧ k < 3 then
    regWrite o off v ok do
      putReg off new
      if k = 0 && bit new 63 then
        putReg (qReg q 0x20) 0
        putReg (qReg q 0x28) 0
      upd fun s => s.closeRing r) s

/-- A field of a job. -/
def MedJob.f (j : MedJob) (off n : Nat) : Nat := leNat ((j.bytes.drop off).take n)
/-- Whether some bytes of a job are all 0. -/
def MedJob.zero (j : MedJob) (off n : Nat) : Bool := ((j.bytes.drop off).take n).all (· == 0)
/-- TYPE, and the SESSION a job names. -/
def MedJob.type (j : MedJob) : Nat := j.f 0 1
def MedJob.num (j : MedJob) : Nat := j.f 4 4

/-- MEDIA_JOB_FETCH (R582, R587, R588, R590): the ring's next job is read and accepted. -/
def execMediaJobFetch (r : Nat) (ext : Option (List Byte)) (s : State) : Res := Dev.run' (do
  let s ← get
  let q := ringQ r
  let cons := s.rf (qReg q 0x20) 31 0
  let size := s.qSize q
  let room := (s.rf (qReg q 0x28) 63 32 + (s.cq q).owed.length + 2 ^ 32 - s.rf (qReg q 0x28) 31 0) % 2 ^ 32
  if !(decide (r < 32) && s.rb (qReg q 0) 63) || cons == s.rf (qReg q 0x20) 63 32 || decide (size ≤ room) then pure ()
  else
    match ← vaRead (s.queueView q 7) 0 (s.rf (qReg q 0x10) 47 6 * 64 + 128 * (cons % size)) 128 ext with
    | .error _ => pure ()
    | .ok bytes => do
      let j : MedJob := { ring := r, idx := cons, bytes := bytes, t0 := s.time, res := none }
      upd fun s => s.setF (qReg q 0x20) 31 0 (cons + 1)
      upd fun s => s.setCq q { s.cq q with owed := (s.cq q).owed ++ [(cons, none)] }
      let fin (code : Nat) : Dev Unit := do
        complete q cons (recordBytes cons code j.type 0xFF (j.f 8 8) 0 0 (← get).time)
      if !s.medThere (s.rf (qReg q 0) 53 53) then fin 0x10
      else if j.type < 0x70 ∨ 0x73 < j.type then fin 0x311
      else upd fun s => { s with jobs := s.jobs ++ [j] }) s

/-! ### Running a job -/

/-- A result with nothing in it. -/
def MedRes.zero : MedRes :=
  { status := 0, detail := 0, flags := 0, units := 0, frames := 0, bytes := 0, first := 0, last := 0, conc := 0, full := 0 }

/-- A session, its CLASS, and one replaced. -/
def State.session (s : State) (num : Nat) : Option Sess := s.sessions.find? fun x => x.num == num
def Sess.f (x : Sess) (off n : Nat) : Nat := leNat ((x.desc.drop off).take n)
def Sess.cls (x : Sess) : Nat := x.f 0x1D 1
def State.setSession (s : State) (x : Sess) : State :=
  { s with sessions := s.sessions.map fun y => if y.num = x.num then x else y }
/-- A session fails (R616, R617). -/
def State.failSession (s : State) (num : Nat) : State :=
  { s with sessions := s.sessions.map fun x => if x.num = num then { x with failed := true, ready := [], fall := none } else x }

/-- How a session's engine reaches memory (R346, R671). -/
def State.medView (s : State) (x : Sess) : View := { s.queueView (ringQ x.ring) 7 with who := .media x.num }

/-- The code of a media request that failed (R616). -/
def medCode (c : Nat) : Nat := if c = 0x10 then 0xD09 else if c = 0x11 ∨ c = 0x12 then 0xD0A else 0xD08

/-- A read by a media engine. -/
def medRead (x : Sess) (va n : Nat) (ext : Option (List Byte)) : Dev (List Byte) := do
  match ← vaRead ((← get).medView x) 0 va n ext with
  | .ok bs => return bs
  | .error c => refuse (medCode c)
/-- A write by a media engine. -/
def medWrite (x : Sess) (va : Nat) (bs : List Byte) : Dev Unit := do
  match ← vaWrite ((← get).medView x) 0 va bs with
  | .ok () => pure ()
  | .error c => refuse (medCode c)

/-- Whether a job must wait (R588, R594, R613): for an earlier job of its session, or for a job of a more urgent class on its
engine. -/
def State.medWaits (s : State) (j : MedJob) : Bool :=
  (j.type != 0x70 && (s.jobs.takeWhile fun k => !(k.ring == j.ring && k.idx == j.idx)).any fun k =>
    k.res.isNone && k.ring == j.ring && k.type != 0x70 && k.num == j.num) ||
  (match s.session j.num with
   | none => false
   | some x => (j.type == 0x71 || j.type == 0x72) && s.sessions.any fun y =>
      y.die == x.die && y.eng == x.eng && decide (y.cls < x.cls) && !y.failed &&
        s.jobs.any fun k => k.res.isNone && k.ring == y.ring && k.num == y.num && (k.type == 0x71 || k.type == 0x72))

/-- A job of a TYPE runs: its result, or the code with which it ends. -/
def medJob (r i type : Nat) (body : MedJob → Dev MedRes) : Dev Unit := do
  let s ← get
  match s.jobs.find? fun j => j.ring == r && j.idx == i && j.res.isNone && j.type == type with
  | none => pure ()
  | some j =>
    if s.medWaits j then pure ()
    else do
      let res ← (do
        match ← attempt (body j) with
        | .ok x => pure x
        | .error (c, _) => pure { MedRes.zero with status := c })
      upd fun s => { s with jobs := s.jobs.map fun k => if k.ring = r ∧ k.idx = i then { k with res := some res } else k }
      if 0xD08 ≤ res.status ∧ res.status ≤ 0xD0A then upd fun s => s.failSession j.num

/-- The session that a job names, open on its ring and of a direction (R594); a failed one serves no job but MED_CLOSE. -/
def medSession (j : MedJob) (dir : Option Nat) : Dev Sess := do
  match (← get).session j.num with
  | none => refuse 0xD02
  | some x =>
    must (x.ring == j.ring && (match dir with
      | none => true
      | some d => x.f 0x19 1 == d && !x.failed)) 0xD02
    return x

/-- The header fields that every type checks (R590): reserved bytes, and RESULT. -/
def MedJob.hdrOk (j : MedJob) (flags : Nat) : Bool := decide (j.f 1 1 ≤ flags) && j.zero 2 2 && j.f 0x10 8 % 64 == 0

/-! ### Opening -/

/-- The level codes of a codec with the largest picture in luma samples (H.264: in macroblocks), and the largest width and height
where the standard gives them (R584). PRESUMED: the standards' own tables. -/
def medLevels (codec : Nat) : List (Nat × Nat × Nat × Nat) :=
  match codec with
  | 0 => [(9, 99, 0, 0), (10, 99, 0, 0), (11, 396, 0, 0), (12, 396, 0, 0), (13, 396, 0, 0), (20, 396, 0, 0), (21, 792, 0, 0),
      (22, 1620, 0, 0), (30, 1620, 0, 0), (31, 3600, 0, 0), (32, 5120, 0, 0), (40, 8192, 0, 0), (41, 8192, 0, 0),
      (42, 8704, 0, 0), (50, 22080, 0, 0), (51, 36864, 0, 0), (52, 36864, 0, 0)]
  | 1 => [(30, 36864, 0, 0), (60, 122880, 0, 0), (63, 245760, 0, 0), (90, 552960, 0, 0), (93, 983040, 0, 0),
      (120, 2228224, 0, 0), (123, 2228224, 0, 0), (150, 8912896, 0, 0), (153, 8912896, 0, 0), (156, 8912896, 0, 0),
      (180, 35651584, 0, 0), (183, 35651584, 0, 0)]
  | 2 => [(0, 147456, 2048, 1152), (1, 278784, 2816, 1584), (4, 665856, 4352, 2448), (5, 1065024, 5504, 3096),
      (8, 2359296, 6144, 3456), (9, 2359296, 6144, 3456), (12, 8912896, 8192, 4352), (13, 8912896, 8192, 4352),
      (14, 8912896, 8192, 4352), (15, 8912896, 8192, 4352), (16, 35651584, 16384, 8704), (17, 35651584, 16384, 8704)]
  | 3 => [(10, 36864, 512, 512), (11, 73728, 768, 768), (20, 122880, 960, 960), (21, 245760, 1344, 1344),
      (30, 552960, 2048, 2048), (31, 983040, 2752, 2752), (40, 2228224, 4160, 4160), (41, 2228224, 4160, 4160),
      (50, 8912896, 8384, 8384), (51, 8912896, 8384, 8384), (52, 8912896, 8384, 8384), (60, 35651584, 16832, 16832),
      (61, 35651584, 16832, 16832)]
  | 4 => [(0, 67108864, 8192, 8192)]
  | _ => []

/-- Whether a picture is within a level's limits. -/
def medSizeOk (codec level w h : Nat) : Bool :=
  match (medLevels codec).find? fun e => e.1 == level with
  | none => false
  | some (_, ps, mw, mh) =>
    if codec = 0 then
      let a := ceilDiv w 16
      let b := ceilDiv h 16
      decide (a * b ≤ ps) && decide (a * a ≤ 8 * ps) && decide (b * b ≤ 8 * ps)
    else if codec = 1 then decide (w * h ≤ ps) && decide (w * w ≤ 8 * ps) && decide (h * h ≤ 8 * ps)
    else decide (w * h ≤ ps) && decide (w ≤ mw) && decide (h ≤ mh)

/-- Whether codec, profile, level, bit depth and size lie within R584. -/
def medSupported (j : MedJob) : Bool :=
  let codec := j.f 0x18 1
  let prof := j.f 0x1A 1
  let level := j.f 0x1B 1
  let depth := j.f 0x1C 1
  let w := j.f 0x20 2
  let h := j.f 0x22 2
  medSizeOk codec level w h &&
    (if j.f 0x19 1 = 0 then
      decide (64 ≤ w) && decide (64 ≤ h) && w % 2 == 0 && h % 2 == 0 &&
        (match codec with
         | 0 => (prof == 66 || prof == 77 || prof == 100) && depth == 8
         | 1 => ((prof == 1 || prof == 3) && depth == 8) || prof == 2
         | 2 => prof == 0
         | 3 => (prof == 0 && depth == 8) || (prof == 2 && depth == 10)
         | _ => prof == 0 && depth == 8)
    else
      decide (128 ≤ w) && decide (w ≤ 4096) && decide (128 ≤ h) && decide (h ≤ 4096) && w % 8 == 0 && h % 8 == 0 &&
        (match codec with
         | 0 => prof == 100 && depth == 8
         | 1 => ((prof == 1 && depth == 8) || prof == 2) && decide (level ≤ 153)
         | 2 => prof == 0 && decide (level ≤ 13)
         | _ => false))

/-- Whether the fields of MED_OPEN are in range and its reserved bytes 0 (R590, R591, R609, R610). -/
def medOpenOk (j : MedJob) : Bool :=
  let enc := j.f 0x19 1 == 1
  let top := if j.f 0x18 1 = 2 then 255 else 51
  j.hdrOk 0 && decide (j.f 0x19 1 ≤ 1) && (j.f 0x1C 1 == 8 || j.f 0x1C 1 == 10) && decide (j.f 0x1D 1 ≤ 2) && j.zero 0x1E 2 &&
    decide (1 ≤ j.f 0x24 4) && decide (1 ≤ j.f 0x28 4) && j.zero 0x2C 4 && j.f 0x30 8 % 65536 == 0 && j.zero 0x6C 20 &&
    (if enc then
      decide (j.f 0x40 1 ≤ 2) && decide (j.f 0x41 1 ≤ top) && decide (j.f 0x42 1 ≤ top) && decide (j.f 0x43 1 ≤ top) &&
        decide (j.f 0x44 1 ≤ 3) && decide (j.f 0x45 1 ≤ 3) && j.zero 0x59 7 && decide (j.f 0x68 4 ≤ 4096) &&
        (j.f 0x58 1 == 0 || j.f 0x45 1 == 0)
    else j.zero 0x40 44)

/-- The bytes of the picture store of an open (R592). -/
def medStore (j : MedJob) : Nat :=
  let up (n : Nat) : Nat := ceilDiv n 64 * 64
  let s := if j.f 0x19 1 = 1 then 8 else match j.f 0x18 1 with
    | 0 => 17
    | 1 => 17
    | 4 => 1
    | _ => 9
  s * (up (j.f 0x20 2) * up (j.f 0x22 2) * (if j.f 0x1C 1 = 10 then 7 else 4) / 2)

/-- The declared rate of a session in luma samples per second, as a fraction (R591, R614). -/
def medRate (f : Nat → Nat → Nat) : Nat × Nat := (f 0x20 2 * f 0x22 2 * f 0x24 4, f 0x28 4)
/-- The sum of two fractions. -/
def fracAdd (a b : Nat × Nat) : Nat × Nat := (a.1 * b.2 + b.1 * a.2, a.2 * b.2)
/-- The summed rates of the sessions of an engine that a condition picks. -/
def State.medLoad (s : State) (d e : Nat) (p : Sess → Bool) : Nat × Nat :=
  (s.sessions.filter fun x => x.die == d && x.eng == e && p x).foldl (fun a x => fracAdd a (medRate x.f)) (0, 1)

/-- The sustained rate of R585 for a session, in luma samples per second. -/
def medEngineRate (j : MedJob) : Nat :=
  if j.f 0x19 1 = 1 then 1000000000 / 2 ^ j.f 0x44 1
  else match j.f 0x18 1 with
    | 0 => 1200000000
    | 4 => 1000000000
    | _ => if j.f 0x1C 1 = 10 then 1600000000 else 2000000000

/-- MED_OPEN (R582, R591 to R593, R614). -/
def execMedOpen (r i : Nat) (s : State) : Res := Dev.run' (medJob r i 0x70 fun j => do
  let s ← get
  let d := s.rf (qReg (ringQ r) 0) 53 53
  let enc := j.f 0x19 1 == 1
  must (!enc || s.lic 4) 0x10
  must (medOpenOk j) 0xD01
  must (medSupported j) 0xD05
  must (decide ((s.sessions.filter fun x => x.die == d).length < 64)) 0xD03
  must (decide (medStore j ≤ j.f 0x38 8)) 0xD04
  let load (e : Nat) : Nat × Nat := s.medLoad d e fun _ => true
  match s.medEngines d enc with
  | [] => refuse 0x10
  | e0 :: es => do
    let e := es.foldl (fun a e => if (load e).1 * (load a).2 < (load a).1 * (load e).2 then e else a) e0
    let live := fracAdd (s.medLoad d e fun x => x.cls == 0) (medRate j.f)
    must (j.f 0x1D 1 != 0 || decide (10 * live.1 ≤ 8 * medEngineRate j * live.2)) 0xD06
    let rate := if j.f 0x40 1 = 2 then j.f 0x54 4 else j.f 0x48 4
    let x : Sess :=
      { num := s.nextId % 2 ^ 32, ring := r, die := d, eng := e, desc := j.bytes, failed := false, shown := 0, ready := [], coded := 0
        full := min (rate * j.f 0x50 4) (1000 * j.f 0x4C 4) * j.f 0x24 4, seq := 0, fall := none }
    upd fun s => { s with sessions := s.sessions ++ [x], nextId := s.nextId + 1 }
    return { MedRes.zero with detail := x.num }) s

/-- MED_CLOSE (R594). -/
def execMedClose (r i : Nat) (s : State) : Res := Dev.run' (medJob r i 0x73 fun j => do
  must (j.hdrOk 0 && j.zero 0x18 104) 0xD01
  let x ← medSession j none
  upd fun s => { s with sessions := s.sessions.filter fun y => y.num != x.num }
  return MedRes.zero) s

/-! ### Decoding -/

/-- The crop of a frame (R595): CROP, or the codec's conformance window. -/
def medCrop (j : MedJob) (g : MedFrame) : Nat × Nat × Nat × Nat :=
  if j.f 0x64 2 = 0 then g.window else (j.f 0x60 2, j.f 0x62 2, j.f 0x64 2, j.f 0x66 2)

/-- The output size of a frame (R595). -/
def medOutSize (j : MedJob) (g : MedFrame) : Nat × Nat :=
  let (_, _, w, h) := medCrop j g
  (if j.f 0x2C 2 = 0 then w else j.f 0x2C 2, if j.f 0x2E 2 = 0 then h else j.f 0x2E 2)

/-- What a decode job has made of its units: those consumed and their bytes, the frames to write, those that stay ready, the
output frames counted, and the events. -/
structure MedWork where
  units   : Nat
  bytes   : Nat
  out     : List MedFrame
  ready   : List MedFrame
  shown   : Nat
  conceal : Nat
  resync  : Nat
  samples : Nat
  deriving DecidableEq, Repr

/-- Ready frames taken for output while there is room (R596): every OUT_STEP-th is written. -/
def MedWork.drain (step room : Nat) (w : MedWork) : MedWork :=
  w.ready.foldl (fun w g =>
    if room ≤ w.out.length then { w with ready := w.ready ++ [g] }
    else { w with shown := w.shown + 1, out := if (w.shown + 1) % step = 0 then w.out ++ [g] else w.out }) { w with ready := [] }

/-- The units of a job decoded in order (R595, R596). -/
def medUnits (j : MedJob) (w : MedWork) : List MedUnit → MedWork
  | [] => w
  | u :: us =>
    let room := j.f 0x38 4
    if room ≤ w.out.length ∨ (j.f 0x24 4 ≠ 0 ∧ j.f 0x24 4 ≤ w.units) ∨ j.f 0x20 4 ≤ w.bytes then w
    else
      let w := { w with units := w.units + 1, bytes := w.bytes + u.bytes, ready := w.ready ++ u.frames, conceal := w.conceal + u.conceal
                        resync := w.resync + b2n u.resync, samples := w.samples + u.samples }
      medUnits j (w.drain (j.f 0x29 1) room) us

/-- A sample of a plane; outside the picture the spec gives none. -/
def medSample (p : List Nat) (w h x y : Nat) : Nat :=
  if x < w ∧ y < h then p.getD (y * w + x) 0 else (Config.freeValue 0x4000 (y * w + x)).toNat

/-- A row of samples of a plane as bytes (R597). -/
def medRow (depth : Nat) (p : List Nat) (w h x y n : Nat) : List Byte :=
  (List.range n).flatMap fun i => if depth = 8 then leBytes 1 (medSample p w h (x + i) y) else leBytes 2 (medSample p w h (x + i) y % 1024)

/-- The native planes of frame `k` of a job (R597), by the plane record `rec`. -/
def medPlanes (x : Sess) (j : MedJob) (pr : List Byte) (g : MedFrame) (k : Nat) : Dev Unit := do
  let q (off n : Nat) : Nat := leNat ((pr.drop off).take n)
  let depth := x.f 0x1C 1
  let (cx, cy, cw, ch) := medCrop j g
  forAll (List.range ch) fun y =>
    medWrite x (q 0 8 + k * q 0x20 8 + y * q 0x18 4) (medRow depth g.y g.w g.h cx (cy + y) cw)
  forAll [(8, g.u), (0x10, g.v)] fun p => forAll (List.range ((ch + 1) / 2)) fun y =>
    medWrite x (q p.1 8 + k * q 0x20 8 + y * q 0x1C 4)
      (medRow depth p.2 ((g.w + 1) / 2) ((g.h + 1) / 2) (cx / 2) (cy / 2 + y) ((cw + 1) / 2))

/-- A tensor element of a frame as fp32 (R598). -/
def medElem (x : Sess) (j : MedJob) (g : MedFrame) (c row col : Nat) : Nat :=
  let (wx, wy, ww, wh) := g.window
  Config.medPixel j.bytes ([x.f 0x1C 1, g.w, g.h, wx, wy, ww, wh] ++ g.y ++ g.u ++ g.v) c row col

/-- One channel of a frame written as matrix `m` of a tensor (R107, R598): its elements rounded once with RNE, or MXFP8 blocks. -/
def medChannel (x : Sess) (j : MedJob) (d : TD) (g : MedFrame) (c m : Nat) : Dev Unit := do
  let v (row col : Nat) : Ext := fp32.dec (medElem x j g c row col % 2 ^ 32)
  forAll (List.range d.rows) fun row => do
    if d.fmt = 0 then
      forAll (List.range (d.cols / 32)) fun b => do
        let e := encodeBlock (qprofOf 0) (fun _ => 0) ((List.range 32).map fun i => v row (32 * b + i))
        let n := (m * d.rows + row) * (d.cols / 32) + b
        medWrite x (d.elem + 32 * n) (packBlock 0 e.codes)
        medWrite x (d.scale + n) (leBytes 1 e.scale)
    else
      let bs := (List.range d.cols).flatMap fun col =>
        leBytes (scalarBytes d.fmt) ((scalarFmt d.fmt).enc .rne false 0 (v row col)).bits
      medWrite x (d.elem + m * d.matPitch + row * d.rowPitch) bs

/-- A tensor descriptor as a job may name one (R108, R598): its format, SP bits and matrices. -/
def medTdOk (d : TD) (mats : Nat) : Bool :=
  (match d.check with
   | .ok _ => true
   | .error _ => false) && (d.fmt == 0 || d.fmt == 8 || d.fmt == 9 || d.fmt == 10) && d.sp == 0 && decide (mats ≤ d.mats)

/-- Whether the fields of MED_DECODE are in range (R590, R595, R597). -/
def medDecodeOk (j : MedJob) : Bool :=
  j.hdrOk 1 && decide (1 ≤ j.f 0x20 4) && decide (j.f 0x28 1 ≤ 1) && decide (1 ≤ j.f 0x29 1) && decide (j.f 0x2A 1 ≤ 2) &&
    decide (j.f 0x2B 1 % 4 ≤ 2) && decide (j.f 0x2B 1 < 16) && j.f 0x30 8 % 64 == 0 && decide (1 ≤ j.f 0x38 4) && j.zero 0x3C 4 &&
    j.f 0x40 8 % 16 == 0 && j.zero 0x68 24 && (j.f 0x28 1 == 1 || (j.f 0x2A 1 == 0 && j.f 0x2B 1 == 0))

/-- A frame-info entry (R600). -/
def medInfo (g : MedFrame) : List Byte :=
  leBytes 4 g.order ++ leBytes 2 (g.flags % 8) ++ leBytes 1 g.missRef ++ leBytes 1 g.missSlot ++ leBytes 4 g.missOrder ++
    List.replicate 4 0

/-- MED_DECODE (R594 to R604, R616, R619): `us` are the units as the session's standard decodes them, `tail` the frames that
END brings out, `bs` and `rec` what host memory holds of the bitstream and at OUT. -/
def execMedDecode (r i : Nat) (us : List MedUnit) (tail : List MedFrame) (bs rec_ : Option (List Byte)) (s : State) : Res := Dev.run' (
  medJob r i 0x71 fun j => do
    must (medDecodeOk j) 0xD01
    let x ← medSession j (some 0)
    let room := j.f 0x38 4
    let w0 : MedWork := { units := 0, bytes := 0, out := [], ready := x.ready, shown := x.shown, conceal := 0, resync := 0, samples := 0 }
    let w := medUnits j (w0.drain (j.f 0x29 1) room) us
    let w := if j.f 1 1 = 1 ∧ w.out.length < room then { w with ready := w.ready ++ tail }.drain (j.f 0x29 1) room else w
    let used := min w.bytes (j.f 0x20 4)
    let pr ← medRead x (j.f 0x30 8) 64 rec_
    let d := tdOf (BitVec.ofNat 512 (leNat pr))
    must (j.f 0x28 1 == 0 || (medTdOk d (3 * room) && w.out.all fun g => medOutSize j g == (d.cols, d.rows))) 0xD01
    let _ ← medRead x (j.f 0x18 8) used bs
    upd fun s => s.setSession { x with shown := w.shown, ready := w.ready }
    upd fun s => (s.count (medReg x.die 8) w.conceal).count (medReg x.die 0x10) w.resync
    upd fun s => s.perf (medReg x.die 0x100) w.samples
    forAll w.out.zipIdx fun p => do
      if j.f 0x28 1 = 0 then medPlanes x j pr p.1 p.2
      else forAll [0, 1, 2] fun c => medChannel x j d p.1 c (3 * p.2 + c)
      medWrite x (j.f 0x40 8 + 16 * p.2) (medInfo p.1)
    let conc := (w.out.filter fun g => bit g.flags 0).length
    return { MedRes.zero with
      flags := b2n (decide (0 < w.conceal)) + 2 * b2n (decide (0 < w.resync)) + 64 * b2n (decide (room ≤ w.out.length))
      units := w.units, frames := w.out.length, bytes := used, detail := used, conc := conc
      first := (w.out.head?.map (·.order)).getD 0, last := (w.out.getLast?.map (·.order)).getD 0 }) s

/-! ### Encoding -/

/-- Whether the fields of MED_ENCODE are in range for a session (R590, R605). -/
def medEncodeOk (j : MedJob) : Bool :=
  j.hdrOk 3 && j.f 0x18 8 % 64 == 0 && decide (j.f 0x20 1 ≤ 1) && j.zero 0x26 2 && decide (65536 ≤ j.f 0x30 4) && j.zero 0x34 4 &&
    j.f 0x38 8 % 64 == 0 && j.zero 0x42 62 &&
    (j.f 0x38 8 == 0 || [4, 8, 16, 32, 64, 128, 256, 512, 1024].contains (j.f 0x40 2))

/-- Whether a session's job announces slices (R610). -/
def medSlices (x : Sess) (j : MedJob) : Bool := x.f 0x58 1 != 0 && j.f 0x38 8 != 0

/-- What an encode job has done: where its output stands, the session, FLAGS and STATUS, and the luma samples coded. -/
structure MedEnc where
  at_    : Nat
  x      : Sess
  flags  : Nat
  status : Nat
  samples : Nat
  deriving DecidableEq, Repr

/-- The bits of the buffer B, and what arrives in one frame time, times FPS_NUM (R609). -/
def medBuf (x : Sess) : Nat := 1000 * x.f 0x4C 4 * x.f 0x24 4
def medFill (x : Sess) : Nat := 1000 * (if x.f 0x40 1 = 2 then x.f 0x54 4 else x.f 0x48 4) * x.f 0x28 4

/-- The coding of a frame that rules 1 of R609, R606 and R611 choose: its bytes, the flags it sets, and whether the output was
short. -/
def medChoose (x : Sess) (slices : Bool) (left : Nat) (c : MedCode) : List Byte × Nat × Bool :=
  let fits (b : List Byte) : Bool := x.f 0x40 1 == 0 || decide (8 * b.length * x.f 0x24 4 ≤ x.full)
  let (b, fl) :=
    if slices then (c.first, 8 * b2n c.rcSkip)
    else if fits c.first then (c.first, 0)
    else if fits c.again then (c.again, 4)
    else (c.skip, 12)
  if b.length ≤ left then (b, fl, false) else (c.skip, fl, true)

/-- The buffer after a frame of `n` bytes, and the bytes of filler that follow it (rules 2 and 3 of R609). -/
def medBuffer (x : Sess) (n : Nat) : Nat × Nat :=
  if x.f 0x40 1 = 0 then (0, 0)
  else
    let f := x.full - 8 * n * x.f 0x24 4 + medFill x
    if x.f 0x40 1 = 2 then (min f (medBuf x), 0)
    else if f ≤ medBuf x then (f, 0)
    else
      let k := ceilDiv (f - medBuf x) (8 * x.f 0x24 4)
      (f - 8 * k * x.f 0x24 4, k)

/-- A slice entry's bytes (R610). -/
def sliceBytes (e : Slice) (seq : Nat) : List Byte :=
  leBytes 4 e.off ++ leBytes 4 e.bytes ++ leBytes 4 e.frame ++ leBytes 2 e.flags ++ leBytes 2 seq

/-- A slice entry written while the ring has room for it (R610, R612): whether it was. -/
def putSlice (x : Sess) (j : MedJob) (cons : Nat) (e : Slice) : Dev (Sess × Bool) := do
  let n := j.f 0x40 2
  if n ≤ (x.seq + 2 ^ 32 - cons) % 2 ^ 32 then return (x, false)
  medWrite x (j.f 0x38 8 + 64 + 16 * (x.seq % n)) (sliceBytes e x.seq)
  return ({ x with seq := x.seq + 1 }, true)

/-- The slices of a frame announced (R610, R612): when the ring is full, one FALLBACK entry for the unannounced rest waits. -/
def putSlices (j : MedJob) (cons base total : Nat) (rap : Bool) (x : Sess) : List Nat → Nat → Bool → Dev Sess
  | [], _, _ => return x
  | n :: ns, off, first => do
    let e : Slice :=
      { off := base + off, bytes := n, frame := x.coded, flags := b2n ns.isEmpty + 4 * b2n rap + 8 * b2n (rap && first) }
    match ← putSlice x j cons e with
    | (x, true) => putSlices j cons base total rap x ns (off + n) false
    | (x, false) =>
      let rest : Slice := { off := base + off, bytes := total - off, frame := x.coded, flags := 3 + 4 * b2n rap }
      return { x with fall := some (j.idx, rest) }

/-- One frame coded and written out (R606 to R612). -/
def medFrameOut (j : MedJob) (cons : Nat) (st : MedEnc) (c : MedCode) : Dev MedEnc := do
  let x := st.x
  let sl := medSlices x j
  let (b, fl, short) := medChoose x (x.f 0x58 1 != 0) (j.f 0x30 4 - st.at_) c
  let (full, k) := medBuffer x b.length
  let s ← get
  let fill : List Byte := (List.range k).map fun i => BitVec.ofNat 8 (Config.freeValue 0x4001 (s.free + i)).toNat
  set { s with free := s.free + k }
  let out := (b ++ fill).take (j.f 0x30 4 - st.at_)
  medWrite x (j.f 0x28 8 + st.at_) out
  let lens := if b == c.first ∧ c.slices ≠ [] then c.slices.dropLast ++ [out.length - c.slices.dropLast.sum] else [out.length]
  let x ← if sl ∧ x.fall.isNone then putSlices j cons st.at_ out.length c.rap x lens 0 true else pure x
  return { at_ := st.at_ + out.length, x := { x with full := full, coded := (x.coded + 1) % 2 ^ 32 }
           flags := Nat.lor (Nat.lor st.flags fl) (16 * b2n (decide (0 < k)))
           status := if short then 0xD07 else st.status, samples := st.samples + c.samples }

/-- The frames of a job coded in order. -/
def medFrames (j : MedJob) (cons : Nat) (st : MedEnc) : List MedCode → Dev MedEnc
  | [] => return st
  | c :: cs => do medFrames j cons (← medFrameOut j cons st c) cs

/-- The input frame of an encode job read (R605): by a plane record, or a tensor descriptor. -/
def medInput (x : Sess) (j : MedJob) (rec_ pix : Option (List Byte)) : Dev Unit := do
  let pr ← medRead x (j.f 0x18 8) 64 rec_
  let w := j.f 0x22 2
  let h := j.f 0x24 2
  let q (off n : Nat) : Nat := leNat ((pr.drop off).take n)
  let ss := if x.f 0x1C 1 = 8 then 1 else 2
  let rows (base pitch n len : Nat) : Dev Unit := forAll (List.range n) fun y => do
    let _ ← medRead x (base + y * pitch) len pix
  if j.f 0x20 1 = 0 then do
    rows (q 0 8) (q 0x18 4) h (w * ss)
    rows (q 8 8) (q 0x1C 4) ((h + 1) / 2) ((w + 1) / 2 * ss)
    rows (q 0x10 8) (q 0x1C 4) ((h + 1) / 2) ((w + 1) / 2 * ss)
  else
    let d := tdOf (BitVec.ofNat 512 (leNat pr))
    must (medTdOk d 3 && d.rows == h && d.cols == w) 0xD01
    if d.fmt = 0 then do
      let _ ← medRead x d.elem (3 * h * w) pix
      let _ ← medRead x d.scale (3 * h * w / 32) pix
    else forAll [0, 1, 2] fun m => rows (d.elem + m * d.matPitch) d.rowPitch h (w * scalarBytes d.fmt)

/-- MED_ENCODE (R594, R605 to R612, R616, R619): `cs` are the frames as the session's standard codes them, `rec` and `pix` what
host memory holds at IN and of its samples, and `cons` of the slice ring's header. -/
def execMedEncode (r i : Nat) (cs : List MedCode) (rec_ pix cons : Option (List Byte)) (s : State) : Res := Dev.run' (
  medJob r i 0x72 fun j => do
    must (medEncodeOk j) 0xD01
    let x ← medSession j (some 1)
    must (decide (j.f 0x22 2 ≤ x.f 0x20 2) && decide (j.f 0x24 2 ≤ x.f 0x22 2)) 0xD01
    medInput x j rec_ pix
    let c ← if medSlices x j then medRead x (j.f 0x38 8) 4 cons else pure []
    let st ← medFrames j (leNat c) { at_ := 0, x := x, flags := 0, status := 0, samples := 0 } cs
    upd fun s => (s.setSession st.x).perf (medReg x.die 0x108) st.samples
    return { MedRes.zero with
      status := st.status, flags := st.flags, frames := cs.length, bytes := st.at_, detail := st.at_
      first := (cs.head?.map (·.order)).getD 0, last := (cs.getLast?.map (·.order)).getD 0
      full := st.x.full / max 1 (x.f 0x24 4) }) s

/-- SLICE_FALLBACK_ENTRY (R612): the FALLBACK entry of a session's frame, once an entry is free; `cons` is what host memory
holds of the slice ring's header. -/
def execSliceFallbackEntry (num : Nat) (cons : Option (List Byte)) (s : State) : Res := Dev.run' (do
  match (← get).session num with
  | none => pure ()
  | some x =>
    match x.fall with
    | none => pure ()
    | some (idx, e) =>
      match (← get).jobs.find? fun j => j.ring == x.ring && j.idx == idx with
      | none => pure ()
      | some j =>
        match ← attempt (do
          let c ← medRead x (j.f 0x38 8) 4 cons
          putSlice x j (leNat c) e) with
        | .ok (x', true) => upd fun s => s.setSession { x' with fall := none }
        | .ok (_, false) => pure ()
        | .error (code, _) => upd fun s =>
            { s with jobs := s.jobs.map fun (k : MedJob) =>
                if k.ring = x.ring ∧ k.idx = idx then { k with res := some { MedRes.zero with status := code } } else k }.failSession num) s

/-! ### Completion and faults -/

/-- A result record (R618). -/
def MedRes.record (m : MedRes) (time : Nat) : List Byte :=
  leBytes 2 m.status ++ leBytes 2 m.flags ++ leBytes 4 m.units ++ leBytes 4 m.frames ++ leBytes 4 m.bytes ++ leBytes 4 m.first ++
    leBytes 4 m.last ++ leBytes 4 m.conc ++ leBytes 4 0 ++ leBytes 8 m.full ++ leBytes 8 time ++ List.replicate 16 0

/-- MED_JOB_COMPLETE (R588, R594, R612, R616, R618): the result record of a job that has run, then its completion record. -/
def execMedJobComplete (r i : Nat) (s : State) : Res := Dev.run' (do
  match (← get).jobs.find? fun j => j.ring == r && j.idx == i with
  | none => pure ()
  | some j =>
    match j.res with
    | none => pure ()
    | some m => do
      let s ← get
      let q := ringQ r
      let waits (x : Sess) : Bool := x.ring == r && x.fall.any (fun e => e.1 == i)
      let m := if s.sessions.any waits then { m with flags := Nat.lor m.flags 32 } else m
      upd fun s => { s with sessions := s.sessions.map fun x => if waits x then { x with fall := none } else x }
      let a := j.f 0x10 8
      let wr ← if a % 64 = 0 then vaWrite { s.queueView q 7 with who := .media j.num } 0 a (m.record s.time) else pure (.ok ())
      let m ← (match wr with
        | .ok () => pure m
        | .error c => do
          upd fun s => s.failSession j.num
          return { MedRes.zero with status := medCode c })
      upd fun s => { s with jobs := s.jobs.filter fun k => !(k.ring == r && k.idx == i) }
      complete q i (recordBytes i m.status j.type 0xFF (j.f 8 8) m.flags m.detail s.time)
      upd fun s => s.closeRing r) s

/-- MED_ENGINE_FAULT (R617, R645, R663, R696): an engine of die `d` fails, or with `die` the whole die. -/
def execMedEngineFault (d eng : Nat) (die : Bool) (s : State) : Res :=
  .next (if 2 ≤ d ∨ 3 ≤ eng ∨ !s.medThere d then s
    else
      let dead := if die then [0, 1, 2] else [eng]
      let s := dead.foldl (fun s e => { s.defect 8 (4 * d + e) 0 1 with medDead := Nat.lor s.medDead (2 ^ (4 * d + e)) }) s
      let s := { s with medDead := Nat.lor s.medDead (2 ^ (4 * d + 3)) }
      let hit := s.sessions.filter fun x => x.die == d && dead.contains x.eng
      let s := hit.foldl (fun s x => s.failSession x.num) s
      let s := { s with jobs := s.jobs.map fun (j : MedJob) =>
        if j.res.isNone ∧ j.type ≠ 0x70 ∧ hit.any (fun x => x.ring == j.ring && x.num == j.num) then
          { j with res := some { MedRes.zero with status := 0xD0B } } else j }
      (s.logRec 6 Origin.drd 0 (medReg d 0) (4 * d + eng)).capChange.reservice)

end Sys2Proof.Machine
end

