-- ==== Sys2Proof/Machine/Network.lean ====
section
/-! DEFINITION. Ethernet ports (R566 to R568), RoCE v2 (R569 to R575) and the discipline of device time (R576 to R579). -/

namespace Sys2Proof.Machine

/-! ### Ethernet ports -/

/-- ETH_PORT_CFG_WRITE (R18, R567). -/
def execEthPortCfgWrite (n v : Nat) (o : Origin) (s : State) : Res := Dev.run' (do
  let s ← get
  let off := ethReg n
  let old := s.rn off
  let new := keepBits v (maskBits 63 32 + maskBits 13 0)
  let en := bit old 63
  let ok := o.mine (fld (if en then old else new) 62 60) && fld new 59 58 != 3 && (!en || fld new 62 57 == fld old 62 57)
  if n < 4 ∧ s.lic 2 then plainWrite o off v ok (putReg off new)) s

/-- A big-endian field of a frame. -/
def beNat (f : List Byte) (off n : Nat) : Nat := leNat ((f.drop off).take n).reverse

/-- The Ethertype of a frame behind a VLAN tag, and where its payload begins. -/
def etherType (f : List Byte) : Nat × Nat := if beNat f 12 2 = 0x8100 then (beNat f 16 2, 18) else (beNat f 12 2, 14)

/-- The UDP destination port of an IP frame; `none` for another frame. -/
def udpPort (f : List Byte) : Option Nat :=
  let (ty, p) := etherType f
  if ty = 0x0800 ∧ beNat f (p + 9) 1 = 17 then some (beNat f (p + 4 * (beNat f p 1 % 16) + 2) 2)
  else if ty = 0x86DD ∧ beNat f (p + 6) 1 = 17 then some (beNat f (p + 42) 2)
  else none

/-- Whether a frame is RoCE v2 or PTP: UDP port 4791; UDP ports 319 and 320, or Ethertype 0x88F7. -/
def passesOn (f : List Byte) : Bool :=
  (etherType f).1 == 0x88F7 || udpPort f == some 4791 || udpPort f == some 319 || udpPort f == some 320

/-- A record of an RDMA queue (R574). -/
def rdmaRecord (c : QCmd) (code exc detail ft time : Nat) : List Byte :=
  recordBytes c.seqno code (c.f 0 1) ft (c.f 0x10 8) exc detail time

/-- How a local buffer of a queue's entry is reached (R572): by the queue pair when there is one. -/
def State.rdmaView (s : State) (q : Nat) (who : Master) : View := { s.queueView q 6 with who := who, fn := none }

/-- A received message placed into the oldest posted entry of a receive queue: `false` when there is none. The answer says
whether the queue pair fails. -/
def recvInto (q : Nat) (who : Master) (data : List Byte) (imm : Option Nat) : Dev (Option Bool) := do
  let s ← get
  let c := s.cq q
  match c.posted with
  | [] => return none
  | e :: rest => do
    upd fun s => s.setCq q { c with posted := rest }
    let ft := b2n imm.isSome
    let fin (code n : Nat) : Dev (Option Bool) := do
      complete q e.seqno (rdmaRecord e code (imm.getD 0) n (if code = 0 then ft else 0xFF) (← get).time)
      return some (code != 0)
    if e.f 4 4 < data.length then fin 0xC14 0
    else
      match ← vaWrite (s.rdmaView q who) 0 (e.f 8 8) data with
      | .error _ => fin 0xC16 0
      | .ok () => fin 0 data.length

/-- ETH_FRAME_RECEIVE (R567, R568): RoCE v2 and PTP frames go on to their engines, whose own commands carry what they do;
another frame goes to RAWQ, or is dropped and counted. -/
def execEthFrameReceive (n : Nat) (frame : List Byte) (s : State) : Res := Dev.run' (do
  let s ← get
  let cfg := s.rn (ethReg n)
  if 4 ≤ n || !s.lic 2 || !bit cfg 63 || decide (fld cfg 45 32 < frame.length) || passesOn frame then pure ()
  else
    let drop : Dev Unit := upd fun s => s.count (0x60100 + 8 * n) 1
    let q := fld cfg 12 0
    if bit cfg 13 then
      match ← recvInto q (.queue q) frame none with
      | none => drop
      | some _ => pure ()
    else drop) s

/-! ### Queue pairs -/

/-- The queue pair that a send or a receive queue serves (R571). -/
def State.qpOfQueue (s : State) (q : Nat) (send : Bool) : Option Nat :=
  (s.qps.find? fun e => (if send then e.2.sq else e.2.rq) == q).map Prod.fst

/-- A send-queue entry completes (R574). -/
def sendEnd (m : QpMsg) (code detail : Nat) : Dev Unit := do
  match m.cmd with
  | none => pure ()
  | some (q, seqno) => complete q seqno (recordBytes seqno code m.type 0xFF m.tag 0 detail (← get).time)

/-- The entries of a queue pair that can no longer complete get RDMA_FLUSHED (R574). -/
def qpFlush (n : Nat) : Dev Unit := do
  let q := (← get).qp n
  upd fun s => s.setQp n { q with out := [], rnr := false }
  forAll q.out fun m => sendEnd m 0xC15 0
  if q.rq ≠ 0xFFFF then
    let c := (← get).cq q.rq
    upd fun s => s.setCq q.rq { c with posted := [] }
    forAll c.posted fun e => do complete q.rq e.seqno (rdmaRecord e 0xC15 0 0 0xFF (← get).time)

/-- A queue pair enters ERROR (R574). -/
def qpError (n : Nat) : Dev Unit := do
  upd fun s => s.setQp n { s.qp n with state := 4 }
  qpFlush n

/-- Whether a queue may serve a queue pair of a partition under R571. -/
def State.qpQueueOk (s : State) (n part target q : Nat) (send : Bool) : Bool :=
  decide (q < 8192) && s.rf (qReg q 0) 53 50 == target && s.qPart q == part &&
    (match s.qpOfQueue q send with
     | none => true
     | some m => m == n)

/-- The state transitions of R571. -/
def qpStep (old new : Nat) : Bool :=
  new == 0 || new == 4 || (old == 0 && new == 1) || (old == 1 && new == 2) || (old == 2 && new == 3)

/-- Whether the fields of an RDMA_QP_SET obey R570 and R571. -/
def State.qpSetOk (s : State) (q : Nat) (c : QCmd) : Bool :=
  let n := c.f 4 4
  let p := s.qPart q
  let qp := s.qp n
  decide (3 ≤ n ∧ n < 65536 ∧ c.f 1 1 < 4 ∧ c.f 2 1 ≤ 4 ∧ 3 ≤ c.f 3 1 ∧ c.f 3 1 ≤ 5 ∧ c.f 0xC 4 < 2 ^ 24 ∧ c.f 0x28 4 < 2 ^ 24 ∧
    c.f 0x2C 4 < 2 ^ 24 ∧ c.f 0x30 1 < 64 ∧ c.f 0x31 1 < 8 ∧ c.f 0x32 1 ≤ 7 ∧ 1 ≤ c.f 0x33 1 ∧ c.f 0x33 1 ≤ 20 ∧
    1 ≤ c.f 0x34 1 ∧ c.f 0x34 1 ≤ 16 ∧ (c.f 0x26 2 < 4096 ∨ c.f 0x26 2 = 0xFFFF)) &&
  qpStep qp.state (c.f 2 1) && (qp == .none || qp.part == p) && s.rf (ethReg (c.f 1 1)) 62 60 == p &&
  ((c.f 8 2 == 0xFFFF && c.f 0xA 2 == 0xFFFF) || (s.qpQueueOk n p 7 (c.f 8 2) true && s.qpQueueOk n p 8 (c.f 0xA 2) false))

/-- RDMA_QP_SET (R570, R571): a queue pair is created, or changes its state; reaching RTR and RTS sets the packet sequence
numbers. -/
def execRdmaQpSet (q : Nat) (s : State) : Res := Dev.run' (do
  let c ← takeCmd q 0x50
  let s ← get
  let n := c.f 4 4
  let fin (code : Nat) : Dev Unit := completeWith q c.seqno 0x50 code 0
  if !c.zero 0x35 11 then fin 0x311
  else if !s.qpSetOk q c then fin 0xC10
  else
    let old := s.qp n
    let st := c.f 2 1
    let v := s.queueView q 6
    if st = 4 then qpError n
    else if st = 0 then
      qpFlush n
      upd fun s => s.setQp n { Qp.none with port := c.f 1 1, sq := c.f 8 2, rq := c.f 0xA 2, part := v.part, as := v.as.getD 0 }
    else
      let new : Qp :=
        { old with
          state := st, port := c.f 1 1, mtu := c.f 3 1, sq := c.f 8 2, rq := c.f 0xA 2, dqpn := c.f 0xC 4
          dgid := (c.bytes.drop 0x10).take 16, dmac := (c.bytes.drop 0x20).take 6, vlan := c.f 0x26 2, dscp := c.f 0x30 1
          prio := c.f 0x31 1, retry := c.f 0x32 1, timeout := c.f 0x33 1, maxrd := c.f 0x34 1, part := v.part, as := v.as.getD 0
          psn := if st = 3 then c.f 0x28 4 else old.psn, epsn := if st = 2 then c.f 0x2C 4 else old.epsn
          left := c.f 0x32 1 }
      upd fun s => s.setQp n new
    fin 0) s

/-- RDMA_QP_DESTROY (R570). -/
def execRdmaQpDestroy (q : Nat) (s : State) : Res := Dev.run' (do
  let c ← takeCmd q 0x51
  let s ← get
  let n := c.f 4 4
  if !(c.zero 1 3 && c.zero 8 56) then completeWith q c.seqno 0x51 0x311 0
  else if s.qp n == .none || (s.qp n).part != s.qPart q then completeWith q c.seqno 0x51 0xC10 0
  else do
    qpFlush n
    upd fun s => s.setQp n .none
    completeWith q c.seqno 0x51 0 0) s

/-- RDMA_MR_REG (R570, R571). -/
def execRdmaMrReg (q : Nat) (s : State) : Res := Dev.run' (do
  let c ← takeCmd q 0x52
  let s ← get
  let key := c.f 4 4
  if !(c.zero 2 2 && c.zero 0x18 40 && decide (c.f 1 1 < 4)) then completeWith q c.seqno 0x52 0x311 0
  else if (spGet dMr s.mrs key).isSome || c.f 0x10 8 == 0 || decide (65536 ≤ s.mrs.length) then completeWith q c.seqno 0x52 0xC11 0
  else do
    let m : Mr := { access := c.f 1 1, base := c.f 8 8, len := c.f 0x10 8, part := s.qPart q, as := s.rf (qReg q 0) 59 54 }
    upd fun s => { s with mrs := spSet dMr s.mrs key (some m) }
    completeWith q c.seqno 0x52 0 0) s

/-- RDMA_MR_DEREG (R570). -/
def execRdmaMrDereg (q : Nat) (s : State) : Res := Dev.run' (do
  let c ← takeCmd q 0x53
  let s ← get
  let key := c.f 4 4
  if !(c.zero 1 3 && c.zero 8 56) then completeWith q c.seqno 0x53 0x311 0
  else match spGet dMr s.mrs key with
    | none => completeWith q c.seqno 0x53 0xC11 0
    | some m =>
      if m.part ≠ s.qPart q then completeWith q c.seqno 0x53 0xC11 0
      else do
        upd fun s => { s with mrs := spSet dMr s.mrs key none }
        completeWith q c.seqno 0x53 0 0) s

/-! ### Sending -/

/-- The status of a failed access to a local buffer (R574). -/
def localCode (c : Nat) : Nat := if c = 0x11 ∨ c = 0x12 then 0xC17 else 0xC16

/-- A send-queue entry taken and sent (R572, R574). An entry waits while its queue pair is not yet in RTS, behind earlier
READs under FENCE, and, for a READ, while MAXRD of them are outstanding. -/
def sendEntry (q type : Nat) (ext : Option (List Byte)) : Dev Unit := do
  match (← get).qpOfQueue q true with
  | none => stall
  | some n => do
    let c ← takeCmd q type
    let s ← get
    let qp := s.qp n
    let reads := (qp.out.filter fun m => m.type == 0x64).length
    let fin (code d : Nat) : Dev Unit := do complete q c.seqno (rdmaRecord c code 0 d 0xFF (← get).time)
    if qp.state = 4 then fin 0xC15 0
    else if qp.state ≠ 3 then stall
    else if (bit (c.f 1 1) 0 && reads != 0) || (type == 0x64 && decide (qp.maxrd ≤ reads)) then stall
    else
      let m (data : List Byte) : QpMsg :=
        { psn := 0, pkts := 0, type := type, data := data, raddr := c.f 0x18 8, rkey := c.f 0x20 4, len := c.f 4 4, imm := c.f 0x24 4
          cmd := some (q, c.seqno), tag := c.f 0x10 8, laddr := c.f 8 8, got := 0 }
      if type = 0x64 then upd fun s => s.qpPost n (m [])
      else
        match ← vaRead (s.rdmaView q (.qp n)) 0 (c.f 8 8) (c.f 4 4) ext with
        | .error e => do
          fin (localCode e) 0
          qpError n
        | .ok bs => upd fun s => s.qpPost n (m bs)

/-- RDMA_SEND (R572). `ext` is what host memory or a peer holds at LADDR, here and below. -/
def execRdmaSend (q : Nat) (ext : Option (List Byte)) (s : State) : Res := Dev.run' (sendEntry q 0x60 ext) s
/-- RDMA_SEND_IMM (R572). -/
def execRdmaSendImm (q : Nat) (ext : Option (List Byte)) (s : State) : Res := Dev.run' (sendEntry q 0x61 ext) s
/-- RDMA_WRITE (R572). -/
def execRdmaWrite (q : Nat) (ext : Option (List Byte)) (s : State) : Res := Dev.run' (sendEntry q 0x62 ext) s
/-- RDMA_WRITE_IMM (R572). -/
def execRdmaWriteImm (q : Nat) (ext : Option (List Byte)) (s : State) : Res := Dev.run' (sendEntry q 0x63 ext) s
/-- RDMA_READ (R572). -/
def execRdmaRead (q : Nat) (s : State) : Res := Dev.run' (sendEntry q 0x64 none) s

/-- RAW_SEND (R572): a frame on the queue pair's port. -/
def execRawSend (q : Nat) (ext : Option (List Byte)) (s : State) : Res := Dev.run' (do
  match (← get).qpOfQueue q true with
  | none => stall
  | some n => do
    let c ← takeCmd q 0x65
    let s ← get
    let port := (s.qp n).port
    let fin (code d : Nat) : Dev Unit := do complete q c.seqno (rdmaRecord c code 0 d 0xFF (← get).time)
    if (s.qp n).state = 4 then fin 0xC15 0
    else if c.f 4 4 < 60 ∨ s.rf (ethReg port) 45 32 < c.f 4 4 + 4 then fin 0x311 0
    else
      match ← vaRead (s.rdmaView q (.qp n)) 0 (c.f 8 8) (c.f 4 4) ext with
      | .error e => do
        fin (localCode e) 0
        qpError n
      | .ok bs => do
        upd fun s => s.emit (.eth port bs)
        fin 0 bs.length) s

/-- RDMA_RECV_POST (R572, R574). -/
def execRdmaRecvPost (q : Nat) (s : State) : Res := Dev.run' (do
  let c ← takeCmd q 0x68
  let s ← get
  match s.qpOfQueue q false with
  | some n =>
    if (s.qp n).state = 4 then complete q c.seqno (rdmaRecord c 0xC15 0 0 0xFF s.time)
    else upd fun s => s.setCq q { s.cq q with posted := (s.cq q).posted ++ [c] }
  | none => upd fun s => s.setCq q { s.cq q with posted := (s.cq q).posted ++ [c] }) s

/-! ### Receiving -/

/-- An acknowledgement of a responder: syndrome and message number (R569). -/
def qpAck (n syndrome psn : Nat) : Dev Unit := upd fun s =>
  let q := s.qp n
  s.emit (.roce q.port q.dgid q.dqpn 0x11 psn (beBytes 1 syndrome ++ beBytes 3 q.msn))

/-- Whether packet number `a` lies before `b` in the 24-bit sequence. -/
def psnBefore (a b : Nat) : Bool := a != b && decide ((b + 2 ^ 24 - a) % 2 ^ 24 < 2 ^ 23)

/-- The packets of a message of `len` bytes. -/
def Qp.packets (q : Qp) (len : Nat) : Nat := max 1 (ceilDiv len (mtuBytes q.mtu))

/-- A responder's queue pair moves on past a message. -/
def qpServed (n pkts : Nat) : Dev Unit := upd fun s =>
  let q := s.qp n
  s.setQp n { q with epsn := (q.epsn + pkts) % 2 ^ 24, msn := (q.msn + 1) % 2 ^ 24 }

/-- The region that an inbound READ or WRITE names, with checks 1 to 3 of R573. -/
def State.mrFor (s : State) (n key va len access : Nat) : Option Mr :=
  let q := s.qp n
  if q.state = 2 ∨ q.state = 3 then
    (spGet dMr s.mrs key).bind fun m =>
      if m.part = q.part ∧ bit m.access access ∧ m.base ≤ va ∧ va + len ≤ m.base + m.len then some m else none
  else none

/-- How a queue pair reaches a region (R573). -/
def State.mrView (s : State) (n : Nat) (m : Mr) : View :=
  { who := .qp n, part := m.part, as := some m.as, sel := s.vsel (some m.as), src := 6, fn := none }

/-- Whether an inbound message is served now: one ahead of its turn gets a NAK for a sequence error, and `dup` tells what a
repeated one does. -/
def inTurn (n psn : Nat) (dup serve : Dev Unit) : Dev Unit := do
  let q := (← get).qp n
  if psn = q.epsn then serve
  else if psnBefore psn q.epsn then dup
  else qpAck n 0x60 q.epsn

/-- The packets of a READ's response. -/
def State.readResponse (s : State) (n psn : Nat) (bs : List Byte) : State :=
  let q := s.qp n
  let k := q.packets bs.length
  (List.range k).foldl (fun s i =>
    let op := if k = 1 then 0x10 else if i = 0 then 0x0D else if i + 1 = k then 0x0F else 0x0E
    s.emit (.roce q.port q.dgid q.dqpn op ((psn + i) % 2 ^ 24) ((bs.drop (i * mtuBytes q.mtu)).take (mtuBytes q.mtu)))) s

/-- A denied request of a queue pair puts it into ERROR (R672). -/
def qpDenied (n c : Nat) : Dev Unit := if c = 0x10 then qpError n else pure ()

/-- RDMA_INBOUND_READ (R573): a READ request of `len` bytes. -/
def execRdmaInboundRead (n psn key va len : Nat) (s : State) : Res := Dev.run' (do
  let s ← get
  if s.qp n == .none || !s.lic 2 then pure ()
  else
    let serve : Dev Unit := do
      match s.mrFor n key va len 0 with
      | none => qpAck n 0x62 psn
      | some m =>
        match ← inRead (s.mrView n m) 0 va len with
        | .error c => do
          qpAck n (if c = 0x11 then 0x63 else 0x62) psn
          qpDenied n c
        | .ok bs => do
          upd fun s => s.readResponse n psn bs
          if psn = (s.qp n).epsn then qpServed n ((s.qp n).packets len)
    inTurn n psn serve serve) s

/-- RDMA_INBOUND_WRITE (R573, R574): a WRITE message, with its immediate if it has one. -/
def execRdmaInboundWrite (n psn key va : Nat) (data : List Byte) (imm : Option Nat) (s : State) : Res := Dev.run' (do
  let s ← get
  let q := s.qp n
  let pkts := q.packets data.length
  let last := (psn + pkts - 1) % 2 ^ 24
  if q == .none || !s.lic 2 then pure ()
  else inTurn n psn (qpAck n 0x1F last) do
    match s.mrFor n key va data.length 1 with
    | none => qpAck n 0x62 psn
    | some m =>
      if imm.isSome && q.rq != 0xFFFF && (s.cq q.rq).posted == [] then qpAck n 0x20 psn
      else
        match ← inWrite (s.mrView n m) 0 va data with
        | .error c => do
          qpAck n 0x62 psn
          qpDenied n c
        | .ok () => do
          if imm.isSome && q.rq != 0xFFFF then
            match (s.cq q.rq).posted with
            | [] => pure ()
            | e :: rest => do
              upd fun s => s.setCq q.rq { s.cq q.rq with posted := rest }
              complete q.rq e.seqno (rdmaRecord e 0 (imm.getD 0) data.length 1 s.time)
          qpServed n pkts
          qpAck n 0x1F last) s

/-- RDMA_INBOUND_SEND (R408, R571, R573, R574): a SEND message. One on a queue pair of the sluices is a sluice packet. -/
def execRdmaInboundSend (n psn : Nat) (data : List Byte) (imm : Option Nat) (s : State) : Res := Dev.run' (do
  let s ← get
  let q := s.qp n
  let pkts := q.packets data.length
  let last := (psn + pkts - 1) % 2 ^ 24
  if q == .none || !s.lic 2 || (q.state != 2 && q.state != 3) then pure ()
  else inTurn n psn (qpAck n 0x1F last) do
    if q.rq = 0xFFFF then
      upd fun s => match execSluicePacketReceive data s with
        | .next s' => s'
        | _ => s
      qpServed n pkts
      qpAck n 0x1F last
    else
      match ← recvInto q.rq (.qp n) data imm with
      | none => qpAck n 0x20 psn
      | some failed => do
        if failed then
          qpAck n 0x61 psn
          qpError n
        else
          qpServed n pkts
          qpAck n 0x1F last) s

/-! ### Responses and retries -/

/-- The last packet of a message. -/
def QpMsg.last (m : QpMsg) : Nat := (m.psn + m.pkts - 1) % 2 ^ 24

/-- The messages at the front of a queue pair that an acknowledgement up to a packet covers; a READ is covered by its own
response only. -/
def ackedBy (psn : Nat) : List QpMsg → List QpMsg × List QpMsg
  | [] => ([], [])
  | m :: ms =>
    if m.type ≠ 0x64 ∧ (m.last = psn ∨ psnBefore m.last psn) then let (a, b) := ackedBy psn ms; (m :: a, b) else ([], m :: ms)

/-- Progress on a queue pair: its timer and retries start anew. -/
def qpProgress (n : Nat) (out : List QpMsg) : Dev Unit := upd fun s =>
  s.setQp n { s.qp n with out := out, left := (s.qp n).retry, since := s.time, rnr := false }

/-- Everything outstanding on a queue pair is sent again (go-back-N, R569). -/
def qpResend (n : Nat) : Dev Unit := upd fun s => (s.qp n).out.foldl (fun s m => s.sendPackets n m) s

/-- Acknowledged messages complete. -/
def qpAcked (n psn : Nat) : Dev Unit := do
  let (done, rest) := ackedBy psn ((← get).qp n).out
  if done ≠ [] then
    qpProgress n rest
    forAll done fun m => sendEnd m 0 m.len

/-- A failed entry completes with a code, and the queue pair enters ERROR (R574). -/
def qpFail (n code : Nat) : Dev Unit := do
  let q := (← get).qp n
  match q.out with
  | [] => qpError n
  | m :: rest => do
    upd fun s => s.setQp n { s.qp n with out := rest }
    sendEnd m code 0
    qpError n

/-- RDMA_RESPONSE_RECEIVE (R569, R573, R574): kind 0 an acknowledgement up to a packet, 1 a packet of a READ's response, 2 a
NAK for remote access error, 3 a NAK for remote operational error, whose status the spec does not name, 4 an RNR NAK, 5 a
NAK for a sequence error. -/
def execRdmaResponseReceive (n kind psn : Nat) (data : List Byte) (s : State) : Res := Dev.run' (do
  let s ← get
  let q := s.qp n
  if q.state ≠ 3 ∨ q.out = [] then pure ()
  else
    let before := (psn + 2 ^ 24 - 1) % 2 ^ 24
    match kind with
    | 0 => qpAcked n psn
    | 1 => do
      qpAcked n before
      match ((← get).qp n).out with
      | [] => pure ()
      | m :: rest =>
        if m.type = 0x64 ∧ (m.psn + m.got) % 2 ^ 24 = psn then
          match m.cmd with
          | none => pure ()
          | some (sq, _) =>
            match ← vaWrite (s.rdmaView sq (.qp n)) 0 (m.laddr + m.got * mtuBytes q.mtu) data with
            | .error _ => qpFail n 0xC16
            | .ok () =>
              if m.got + 1 = m.pkts then do
                qpProgress n rest
                sendEnd m 0 m.len
              else qpProgress n ({ m with got := m.got + 1 } :: rest)
    | 2 => do
      qpAcked n before
      qpFail n 0xC12
    | 3 => do
      qpAcked n before
      let code ← freshBelow 65536
      qpFail n code
    | 4 => do
      qpAcked n before
      upd fun s => s.setQp n { s.qp n with rnr := true, since := s.time }
    | _ => do
      qpAcked n before
      qpResend n) s

/-- A retry of a queue pair: what is outstanding is sent again, or the entry fails when none is left. -/
def qpRetry (n : Nat) : Dev Unit := do
  let q := (← get).qp n
  if q.left = 0 then qpFail n 0xC13
  else do
    upd fun s => s.setQp n { q with left := q.left - 1, since := s.time, rnr := false }
    qpResend n

/-- RDMA_RNR_RETRY (R573): 10 µs after an RNR NAK. -/
def execRdmaRnrRetry (n : Nat) (s : State) : Res := Dev.run' (do
  let s ← get
  if (s.qp n).rnr && decide ((s.qp n).since + 10000 ≤ s.time) then qpRetry n) s

/-- RDMA_RETRANSMIT_TIMEOUT (R569, R570): 4.096 µs × 2^TIMEOUT without progress. -/
def execRdmaRetransmitTimeout (n : Nat) (s : State) : Res := Dev.run' (do
  let s ← get
  let q := s.qp n
  if q.state == 3 && q.out != [] && !q.rnr && decide (q.since + 4096 * 2 ^ q.timeout ≤ s.time) then qpRetry n) s

/-- SPK_UD_RESEND (R575): the second copy of the oldest message due. -/
def execSpkUdResend (s : State) : Res :=
  .next (match s.udAgain with
    | [] => s
    | (at', port, n, msg) :: rest =>
      if at' ≤ s.time then { s with udAgain := rest }.emit (.roce port (s.qp n).dgid 2 0x64 0 msg) else s)

/-! ### Device time -/

/-- GLB_PTP_CFG_WRITE (R576): by privileged software of a PF or the ditchrider. -/
def execGlbPtpCfgWrite (v : Nat) (o : Origin) (s : State) : Res := Dev.run' (do
  let ok := (o.isDrd || o.isPf) && (fld v 62 61 != 1 || (← get).lic 2)
  regWrite o 0x30 v ok (putReg 0x30 (keepBits v (maskBits 63 49)))) s

/-- A measurement of the discipline (R578, R579): `err` is the reference time in ns less the device's. Beyond 1 ms the offset
is stepped; a smaller error changes only the rate at which device time passes. -/
def discipline (err : Int) : Dev Unit := upd fun s =>
  let mag := err.natAbs
  let good := if mag < 100 then s.ptpGood + 1 else 0
  let locked := if 1000 ≤ mag then 0 else if 16 ≤ good then 1 else s.rf 0x40 63 63
  let s := { s with ptpGood := good }
  let s := s.setReg 0x40 (BitVec.ofNat 64 (locked <<< 63 + wrap 32 err))
  if 1000000 < mag then s.setReg 0x38 (BitVec.ofInt 64 (sgn 64 (s.rn 0x38) + err)) else s

/-- PTP_MESSAGE_RECEIVE (R577 to R579): a measurement from the messages of Ethernet port `n`. -/
def execPtpMessageReceive (n : Nat) (err : Int) (s : State) : Res := Dev.run' (do
  let s ← get
  let c := s.rn 0x30
  if bit c 63 && fld c 62 61 == 1 && fld c 60 59 == n && s.lic 2 then discipline err) s

/-- PTM_RESPONSE_RECEIVE (R578, R579): a measurement from PCIe port `p`. -/
def execPtmResponseReceive (p : Nat) (err : Int) (s : State) : Res := Dev.run' (do
  let s ← get
  let c := s.rn 0x30
  if bit c 63 && fld c 62 61 == 2 && fld c 60 59 == p then discipline err) s

end Sys2Proof.Machine
end

