-- ==== Sys2Proof/Machine/RegIndex.lean ====
section
/-! DEFINITION. The register index (R736 to R745): every register of the normal view with its place, width, writers and
fields. -/

namespace Sys2Proof.Machine

/-- An access code of R8. -/
inductive Access where
  | ro | rw | w1c | wo | rws | rwl
  deriving DecidableEq, Repr

/-- Who may write a register: anyone to whom its block is open, privileged software of the partition it belongs to, of a PF, of
the PF of PCIe port 0, or the partition-management function. -/
inductive Writer where
  | any | own | pf | pf0 | pmf
  deriving DecidableEq, Repr

/-- A register, or an array of them with one or two strides: its first offset in its block, strides and counts, whether it is 64
bits wide, its writers, and its fields. -/
structure RegD where
  base : Nat
  s1   : Nat
  n1   : Nat
  s2   : Nat
  n2   : Nat
  wide : Bool
  who  : Writer
  flds : List (Nat × Nat × Access)
  deriving DecidableEq, Repr

/-- The device blocks (R739). Part 1. -/
def regsDev1 : List RegD := [
  -- GLB_ID (R660)
  ⟨0x0, 0x0, 1, 0x0, 1, true, .any, [(31, 24, .ro), (23, 16, .ro), (15, 8, .ro)]⟩,
  -- GLB_UIDL (R661)
  ⟨0x8, 0x0, 1, 0x0, 1, true, .any, [(63, 0, .ro)]⟩,
  -- GLB_UIDH (R661)
  ⟨0x10, 0x0, 1, 0x0, 1, true, .any, [(63, 0, .ro)]⟩,
  -- GLB_STATE (R625)
  ⟨0x18, 0x0, 1, 0x0, 1, true, .any, [(63, 32, .ro), (31, 24, .ro), (23, 22, .ro), (21, 20, .ro), (19, 19, .ro)]⟩,
  -- GLB_RESET (R656)
  ⟨0x20, 0x0, 1, 0x0, 1, false, .pf0, [(31, 16, .wo), (0, 0, .wo)]⟩,
  -- GLB_TIME (R697)
  ⟨0x28, 0x0, 1, 0x0, 1, true, .any, [(63, 0, .ro)]⟩,
  -- GLB_PTP_CFG (R576)
  ⟨0x30, 0x0, 1, 0x0, 1, true, .pf, [(63, 63, .rw), (62, 61, .rw), (60, 59, .rw), (58, 57, .rw), (56, 49, .rw)]⟩,
  -- GLB_PTP_OFFSET (R578)
  ⟨0x38, 0x0, 1, 0x0, 1, true, .any, [(63, 0, .ro)]⟩,
  -- GLB_PTP_STATUS (R579)
  ⟨0x40, 0x0, 1, 0x0, 1, true, .any, [(63, 63, .ro), (31, 0, .ro)]⟩,
  -- GLB_PAD_CFG (R718)
  ⟨0x48, 0x0, 1, 0x0, 1, false, .pmf,
    [(31, 31, .rw), (9, 8, .rwl), (7, 7, .rwl), (6, 5, .rwl), (4, 4, .rwl), (3, 2, .rwl), (1, 1, .rwl)]⟩,
  -- GLB_LOCKVIOL (R698)
  ⟨0xff8, 0x0, 1, 0x0, 1, true, .any, [(63, 0, .rw)]⟩,
  -- CAP (R662)
  ⟨0x1000, 0x8, 64, 0x0, 1, true, .any, [(63, 0, .ro)]⟩,
  -- LIC_STATUS (R639)
  ⟨0x2000, 0x0, 1, 0x0, 1, true, .any, [(47, 40, .ro), (39, 32, .ro), (21, 16, .ro), (5, 0, .ro)]⟩,
  -- FUS_SITE (R640)
  ⟨0x3000, 0x8, 16, 0x0, 1, false, .any, [(19, 0, .ro)]⟩,
  -- DRD_STATUS (R694)
  ⟨0x10000, 0x0, 1, 0x0, 1, true, .any, [(31, 16, .ro), (2, 2, .ro), (1, 1, .ro)]⟩,
  -- DRD_RECOVERY (R630)
  ⟨0x10008, 0x0, 1, 0x0, 1, true, .any, [(63, 60, .ro), (59, 56, .ro), (55, 52, .ro), (47, 16, .ro), (15, 0, .ro)]⟩,
  -- DRD_FW_CTRL (R632)
  ⟨0x10010, 0x0, 1, 0x0, 1, true, .pf0, [(63, 60, .wo), (31, 0, .wo)]⟩,
  -- DRD_FW_STATUS (R633)
  ⟨0x10018, 0x0, 1, 0x0, 1, true, .any, [(63, 63, .ro), (62, 62, .ro), (61, 61, .ro), (47, 32, .ro), (31, 0, .ro)]⟩,
  -- DRD_DEFECT (R646)
  ⟨0x10020, 0x0, 1, 0x0, 1, true, .any, [(47, 32, .ro), (27, 16, .ro), (11, 0, .ro)]⟩,
  -- DRD_TELEM_SEL (R703)
  ⟨0x10028, 0x0, 1, 0x0, 1, true, .any, [(63, 0, .rw)]⟩,
  -- DRD_TELEM_VAL (R703)
  ⟨0x10030, 0x0, 1, 0x0, 1, true, .any, [(63, 0, .ro)]⟩,
  -- DRD_FW_WIN (R632)
  ⟨0x20000, 0x8, 8192, 0x0, 1, true, .pf0, [(63, 0, .rw)]⟩,
  -- THM_PWR_CFG (R726)
  ⟨0x30000, 0x0, 1, 0x0, 1, true, .pmf, [(63, 63, .rw), (47, 32, .rwl), (31, 16, .rwl), (15, 0, .rwl)]⟩,
  -- THM_PWR_STATUS (R727)
  ⟨0x30008, 0x0, 1, 0x0, 1, true, .any,
    [(63, 63, .ro), (62, 62, .w1c), (61, 61, .ro), (60, 60, .ro), (47, 32, .ro), (31, 16, .rw), (15, 0, .ro)]⟩,
  -- THM_ECLK (R728)
  ⟨0x30100, 0x8, 64, 0x0, 1, false, .any, [(19, 16, .ro), (10, 0, .ro)]⟩,
  -- THM_DIE (R732)
  ⟨0x30400, 0x8, 40, 0x0, 1, false, .any, [(23, 16, .ro), (15, 8, .rws), (1, 1, .ro), (0, 0, .w1c)]⟩,
  -- THM_LOCKVIOL (R698)
  ⟨0x30ff8, 0x0, 1, 0x0, 1, true, .any, [(63, 0, .rw)]⟩,
  -- LOG_CFG (R700)
  ⟨0x40000, 0x0, 1, 0x0, 1, true, .pmf, [(63, 63, .rw), (57, 32, .rw), (15, 0, .rw)]⟩,
  -- LOG_HEAD (R700)
  ⟨0x40008, 0x0, 1, 0x0, 1, true, .any, [(63, 0, .ro)]⟩,
  -- LOG_TAIL (R700)
  ⟨0x40010, 0x0, 1, 0x0, 1, true, .any, [(63, 0, .ro)]⟩,
  -- LOG_ACK (R700)
  ⟨0x40018, 0x0, 1, 0x0, 1, true, .pmf, [(63, 0, .rw)]⟩,
  -- LOG_STATUS (R700)
  ⟨0x40020, 0x0, 1, 0x0, 1, true, .any, [(63, 32, .ro), (0, 0, .ro)]⟩,
  -- LOG_WIN_SEQ (R700)
  ⟨0x40028, 0x0, 1, 0x0, 1, true, .pmf, [(63, 0, .rw)]⟩,
  -- LOG_JRN_CFG (R472)
  ⟨0x40100, 0x20, 8, 0x0, 1, true, .own, [(63, 62, .rw), (53, 48, .rw), (47, 40, .rw), (31, 0, .rw)]⟩,
  -- LOG_JRN_BASE (R472)
  ⟨0x40108, 0x20, 8, 0x0, 1, true, .own, [(47, 16, .rw)]⟩,
  -- LOG_JRN_STEP (R472)
  ⟨0x40110, 0x20, 8, 0x0, 1, false, .own, [(31, 0, .rw)]⟩,
  -- LOG_JRN_STATUS (R472)
  ⟨0x40118, 0x20, 8, 0x0, 1, true, .own, [(63, 63, .w1c), (62, 62, .w1c), (31, 0, .ro)]⟩,
  -- LOG_WIN (R700)
  ⟨0x41000, 0x8, 512, 0x0, 1, true, .any, [(63, 0, .ro)]⟩,
  -- SLC_COMM (R385)
  ⟨0x50000, 0x8, 64, 0x0, 1, true, .own, [(63, 63, .rw), (62, 60, .rw), (59, 54, .rw), (47, 6, .rw)]⟩,
  -- SLC_LATE_CFG (R451)
  ⟨0x50200, 0x8, 64, 0x0, 1, true, .own, [(63, 63, .rw), (62, 60, .rw), (57, 48, .rw), (47, 6, .rw)]⟩]
/-- The device blocks (R739). Part 2. -/
def regsDev2 : List RegD := [
  -- SPK_CFG (R433)
  ⟨0x50400, 0x8, 8, 0x0, 1, false, .own, [(15, 0, .rw)]⟩,
  -- ETH_PORT_CFG (R567)
  ⟨0x60000, 0x8, 4, 0x0, 1, true, .any,
    [(63, 63, .rw), (62, 60, .rw), (59, 58, .rw), (57, 57, .rw), (56, 49, .rw), (48, 46, .rw), (45, 32, .rw),
    (13, 13, .rw), (12, 0, .rw)]⟩,
  -- ETH_PORT_DROP (R568)
  ⟨0x60100, 0x8, 4, 0x0, 1, true, .any, [(63, 0, .rw)]⟩,
  -- LEA_NODE (R529)
  ⟨0x70000, 0x0, 1, 0x0, 1, false, .pf0, [(16, 16, .rw), (15, 0, .rwl)]⟩,
  -- LEA_LOCKVIOL (R698)
  ⟨0x70ff8, 0x0, 1, 0x0, 1, true, .any, [(63, 0, .rw)]⟩]
/-- The device blocks (R739). -/
def regsDev : List RegD := regsDev1 ++ regsDev2

/-- The HGT block (R739), from 0x0010_0000. -/
def regsHgt : List RegD := [
  -- HGT_STATUS (R745)
  ⟨0x0, 0x0, 1, 0x0, 1, true, .any, [(0, 0, .ro)]⟩,
  -- HGT_FRZ_REL (R675)
  ⟨0x8, 0x0, 1, 0x0, 1, false, .own, [(8, 8, .wo), (7, 0, .wo)]⟩,
  -- HGT_SHARE_RANGE (R677)
  ⟨0x10, 0x0, 1, 0x0, 1, true, .pmf, [(57, 32, .rw), (16, 0, .rw)]⟩,
  -- HGT_SHARE_CTRL (R677)
  ⟨0x18, 0x0, 1, 0x0, 1, true, .pmf, [(63, 60, .wo), (18, 16, .wo), (15, 8, .wo)]⟩,
  -- HGT_SHARE_STATUS (R677)
  ⟨0x20, 0x0, 1, 0x0, 1, true, .any, [(63, 63, .ro), (47, 32, .ro), (31, 0, .ro)]⟩,
  -- HGT_PART_CFG (R666)
  ⟨0x100, 0x20, 8, 0x0, 1, true, .pmf, [(63, 63, .rw), (62, 62, .ro), (47, 32, .rw), (31, 0, .rw)]⟩,
  -- HGT_PART_TILES (R666)
  ⟨0x108, 0x20, 8, 0x0, 1, true, .pmf, [(63, 0, .rw)]⟩,
  -- HGT_PART_RAS (R684)
  ⟨0x110, 0x20, 8, 0x0, 1, true, .any, [(57, 32, .ro), (3, 3, .w1c), (2, 2, .w1c), (1, 1, .w1c), (0, 0, .w1c)]⟩,
  -- HGT_FRZ (R673)
  ⟨0x1000, 0x8, 256, 0x0, 1, true, .any, [(63, 63, .ro), (62, 60, .ro), (59, 56, .ro), (55, 32, .ro), (31, 24, .ro)]⟩,
  -- HGT_HGRAN (R668)
  ⟨0x2000, 0x8, 768, 0x0, 1, false, .pmf, [(31, 31, .rw), (30, 28, .rw), (15, 8, .ro)]⟩,
  -- HGT_BGRAN (R668)
  ⟨0x4000, 0x8, 512, 0x0, 1, false, .pmf, [(31, 31, .rw), (30, 28, .rw), (15, 8, .ro)]⟩,
  -- HGT_AS_CFG (R347)
  ⟨0x10000, 0x1000, 64, 0x0, 1, true, .own, [(63, 63, .rw), (62, 60, .rw), (41, 12, .rw)]⟩,
  -- HGT_AS_FAULT (R355)
  ⟨0x10008, 0x1000, 64, 0x0, 1, true, .own,
    [(63, 63, .w1c), (62, 60, .ro), (59, 58, .ro), (55, 48, .ro), (47, 0, .ro)]⟩,
  -- HGT_AS_VSEL (R358)
  ⟨0x10010, 0x1000, 64, 0x0, 1, true, .own, [(63, 0, .rw)]⟩,
  -- HGT_AS_INVAL (R361)
  ⟨0x10018, 0x1000, 64, 0x0, 1, true, .own, [(63, 32, .wo), (31, 0, .wo)]⟩,
  -- HGT_AS_STATUS (R361)
  ⟨0x10020, 0x1000, 64, 0x0, 1, true, .any, [(1, 1, .ro), (0, 0, .ro)]⟩,
  -- HGT_AS_PUBRUN (R459)
  ⟨0x10028, 0x1000, 64, 0x0, 1, true, .any, [(63, 0, .ro)]⟩,
  -- HGT_AS_PUBPEND (R459)
  ⟨0x10030, 0x1000, 64, 0x0, 1, true, .any, [(63, 0, .ro)]⟩,
  -- HGT_AS_PUBVER (R459)
  ⟨0x10200, 0x1000, 64, 0x8, 64, true, .any, [(63, 0, .ro)]⟩]

/-- A tile's block (R740). Part 1. -/
def regsTile1 : List RegD := [
  -- TIL_CTX_AS (R348)
  ⟨0x0, 0x0, 1, 0x0, 1, false, .own,
    [(31, 31, .rw), (29, 24, .rw), (23, 23, .rw), (21, 16, .rw), (15, 15, .rw), (13, 8, .rw), (7, 7, .rw),
    (5, 0, .rw)]⟩,
  -- TIL_RST_CFG (R688)
  ⟨0x8, 0x0, 1, 0x0, 1, false, .own, [(3, 0, .rw)]⟩,
  -- TIL_PERF_XLT_MISS (R381)
  ⟨0x10, 0x0, 1, 0x0, 1, true, .any, [(63, 63, .w1c), (47, 0, .rw)]⟩,
  -- TIL_PERF_XLT_WAIT (R381)
  ⟨0x18, 0x0, 1, 0x0, 1, true, .any, [(63, 63, .w1c), (47, 0, .rw)]⟩,
  -- TIL_DBG_WIN (R745)
  ⟨0x20, 0x0, 1, 0x0, 1, true, .own, [(25, 18, .rw)]⟩,
  -- SEQ_CTX_CFG (R76)
  ⟨0x1000, 0x8, 4, 0x0, 1, true, .own, [(63, 63, .rw), (29, 16, .rw), (13, 0, .rw)]⟩,
  -- SEQ_TILE_STATUS (R136)
  ⟨0x1020, 0x0, 1, 0x0, 1, true, .any,
    [(33, 33, .w1c), (32, 32, .w1c), (20, 16, .ro), (15, 12, .ro), (11, 10, .ro), (9, 4, .ro), (3, 3, .ro),
    (2, 2, .ro), (1, 1, .ro), (0, 0, .ro)]⟩,
  -- SEQ_LAST_STATUS (R745)
  ⟨0x1028, 0x0, 1, 0x0, 1, true, .any, [(63, 32, .ro), (15, 0, .ro)]⟩,
  -- SEQ_LAST_DETAIL (R293)
  ⟨0x1040, 0x8, 4, 0x0, 1, true, .any, [(63, 0, .ro)]⟩,
  -- VU_QPROF (R44)
  ⟨0x2000, 0x8, 8, 0x0, 1, true, .any,
    [(23, 22, .rw), (21, 21, .rw), (20, 18, .rw), (17, 12, .rw), (11, 9, .rw), (8, 8, .rw), (7, 6, .rw),
    (3, 0, .rw)]⟩,
  -- VU_PERF_BUSY (R203)
  ⟨0x2040, 0x0, 1, 0x0, 1, true, .any, [(63, 63, .w1c), (47, 0, .rw)]⟩,
  -- VU_PERF_PORT (R203)
  ⟨0x2048, 0x0, 1, 0x0, 1, true, .any, [(63, 63, .w1c), (47, 0, .rw)]⟩,
  -- OSM_PERF_PRED (R255)
  ⟨0x2060, 0x0, 1, 0x0, 1, true, .any, [(63, 63, .w1c), (47, 0, .rw)]⟩,
  -- OSM_PERF_SKIP (R255)
  ⟨0x2068, 0x0, 1, 0x0, 1, true, .any, [(63, 63, .w1c), (47, 0, .rw)]⟩,
  -- OSM_PERF_REPAIR (R255)
  ⟨0x2070, 0x0, 1, 0x0, 1, true, .any, [(63, 63, .w1c), (47, 0, .rw)]⟩,
  -- OSM_PERF_RERUN (R255)
  ⟨0x2078, 0x0, 1, 0x0, 1, true, .any, [(63, 63, .w1c), (47, 0, .rw)]⟩,
  -- OSM_PERF_MARK (R255)
  ⟨0x2080, 0x0, 1, 0x0, 1, true, .any, [(63, 63, .w1c), (47, 0, .rw)]⟩,
  -- VU_EXC_BLK (R70)
  ⟨0x2400, 0x100, 4, 0x0, 1, true, .any, [(63, 0, .rw)]⟩,
  -- VU_EXC_OUTL (R70)
  ⟨0x2408, 0x100, 4, 0x0, 1, true, .any, [(63, 0, .rw)]⟩,
  -- VU_EXC_UFL (R70)
  ⟨0x2410, 0x100, 4, 0x0, 1, true, .any, [(63, 0, .rw)]⟩,
  -- VU_EXC_SAT (R70)
  ⟨0x2418, 0x100, 4, 0x0, 1, true, .any, [(63, 0, .rw)]⟩,
  -- VU_EXC_ESC (R70)
  ⟨0x2420, 0x100, 4, 0x0, 1, true, .any, [(63, 0, .rw)]⟩,
  -- VU_EXC_ESCMISS (R70)
  ⟨0x2428, 0x100, 4, 0x0, 1, true, .any, [(63, 0, .rw)]⟩,
  -- VU_EXC_NAN (R70)
  ⟨0x2430, 0x100, 4, 0x0, 1, true, .any, [(63, 0, .rw)]⟩,
  -- VU_EXC_OVF (R70)
  ⟨0x2438, 0x100, 4, 0x0, 1, true, .any, [(63, 0, .rw)]⟩,
  -- ME_EXC_OVF (R70)
  ⟨0x2440, 0x100, 4, 0x0, 1, true, .any, [(63, 0, .rw)]⟩,
  -- ME_EXC_NAN (R70)
  ⟨0x2448, 0x100, 4, 0x0, 1, true, .any, [(63, 0, .rw)]⟩,
  -- VU_EXC_STATUS (R73)
  ⟨0x2450, 0x100, 4, 0x0, 1, false, .any,
    [(6, 6, .w1c), (5, 5, .w1c), (4, 4, .w1c), (3, 3, .w1c), (2, 2, .w1c), (1, 1, .w1c), (0, 0, .w1c)]⟩,
  -- FLM_EXC_ESCDROP (R297)
  ⟨0x2458, 0x100, 4, 0x0, 1, true, .any, [(63, 0, .rw)]⟩,
  -- SFU_PERF_BUSY (R203)
  ⟨0x3000, 0x0, 1, 0x0, 1, true, .any, [(63, 63, .w1c), (47, 0, .rw)]⟩,
  -- SFU_PERF_PAIR (R203)
  ⟨0x3008, 0x0, 1, 0x0, 1, true, .any, [(63, 63, .w1c), (47, 0, .rw)]⟩,
  -- SFU_PERF_CONFLICT (R203)
  ⟨0x3010, 0x0, 1, 0x0, 1, true, .any, [(63, 63, .w1c), (47, 0, .rw)]⟩,
  -- ME_PERF_BUSY (R166)
  ⟨0x4000, 0x0, 1, 0x0, 1, true, .any, [(63, 63, .w1c), (47, 0, .rw)]⟩,
  -- ME_PERF_STEPS (R166)
  ⟨0x4008, 0x0, 1, 0x0, 1, true, .any, [(63, 63, .w1c), (47, 0, .rw)]⟩,
  -- ME_PERF_SKIP (R166)
  ⟨0x4010, 0x0, 1, 0x0, 1, true, .any, [(63, 63, .w1c), (47, 0, .rw)]⟩,
  -- ME_PERF_PORT (R166)
  ⟨0x4018, 0x0, 1, 0x0, 1, true, .any, [(63, 63, .w1c), (47, 0, .rw)]⟩,
  -- ME_PERF_OUTL (R166)
  ⟨0x4020, 0x0, 1, 0x0, 1, true, .any, [(63, 63, .w1c), (47, 0, .rw)]⟩,
  -- ME_PERF_WAIT (R166)
  ⟨0x4028, 0x0, 1, 0x0, 1, true, .any, [(63, 63, .w1c), (47, 0, .rw)]⟩,
  -- FLM_TAGS (R296)
  ⟨0x8000, 0x0, 1, 0x0, 1, true, .any, [(42, 32, .ro), (10, 0, .ro)]⟩,
  -- FLM_PERF_RREQ (R298)
  ⟨0x8008, 0x0, 1, 0x0, 1, true, .any, [(63, 63, .w1c), (47, 0, .rw)]⟩]
/-- A tile's block (R740). Part 2. -/
def regsTile2 : List RegD := [
  -- FLM_PERF_WREQ (R298)
  ⟨0x8010, 0x0, 1, 0x0, 1, true, .any, [(63, 63, .w1c), (47, 0, .rw)]⟩,
  -- FLM_PERF_BYTES (R298)
  ⟨0x8018, 0x0, 1, 0x0, 1, true, .any, [(63, 63, .w1c), (47, 0, .rw)]⟩,
  -- FLM_PERF_LAT (R298)
  ⟨0x8020, 0x0, 1, 0x0, 1, true, .any, [(63, 63, .w1c), (47, 0, .rw)]⟩,
  -- FLM_PERF_TAGSTALL (R298)
  ⟨0x8028, 0x0, 1, 0x0, 1, true, .any, [(63, 63, .w1c), (47, 0, .rw)]⟩,
  -- FLM_PERF_MIGSTALL (R298)
  ⟨0x8030, 0x0, 1, 0x0, 1, true, .any, [(63, 63, .w1c), (47, 0, .rw)]⟩,
  -- FLM_CH_STATUS (R295)
  ⟨0x9000, 0x40, 32, 0x0, 1, true, .any,
    [(63, 56, .ro), (55, 53, .ro), (52, 50, .ro), (49, 46, .ro), (45, 42, .ro), (41, 38, .ro), (34, 24, .ro),
    (18, 16, .ro), (15, 0, .ro)]⟩,
  -- FLM_CH_DONE (R295)
  ⟨0x9020, 0x40, 32, 0x8, 4, true, .any, [(63, 0, .ro)]⟩,
  -- CRB_STATUS (R296)
  ⟨0xa000, 0x0, 1, 0x0, 1, true, .any, [(63, 32, .ro), (5, 0, .ro)]⟩,
  -- CRB_PERF_REQ (R298)
  ⟨0xa008, 0x0, 1, 0x0, 1, true, .any, [(63, 63, .w1c), (47, 0, .rw)]⟩,
  -- CIS_ECC_STATUS (R312)
  ⟨0xb000, 0x0, 1, 0x0, 1, true, .any, [(63, 63, .w1c), (54, 32, .ro), (31, 0, .rw)]⟩,
  -- CIS_PERF_CONFLICT (R306)
  ⟨0xb008, 0x0, 1, 0x0, 1, true, .any, [(63, 63, .w1c), (47, 0, .rw)]⟩,
  -- MBX_IN (R561)
  ⟨0xc000, 0x40, 4, 0x8, 4, true, .own, [(63, 63, .rw), (62, 61, .rw), (60, 55, .rw)]⟩,
  -- MBX_OUT (R561)
  ⟨0xc020, 0x40, 4, 0x8, 4, true, .own,
    [(63, 63, .rw), (62, 61, .rw), (60, 55, .rw), (54, 44, .rw), (43, 43, .rw), (42, 6, .rw)]⟩,
  -- MBX_DROP (R580)
  ⟨0xc100, 0x0, 1, 0x0, 1, true, .any, [(63, 0, .rw)]⟩,
  -- SLC_SLOT_STATUS (R431)
  ⟨0xd000, 0x8, 16, 0x0, 1, true, .any,
    [(63, 32, .ro), (31, 29, .ro), (28, 25, .ro), (24, 21, .ro), (20, 17, .ro), (15, 0, .ro)]⟩]
/-- A tile's block (R740). -/
def regsTile : List RegD := regsTile1 ++ regsTile2

/-- A hub's block (R741). Part 1. -/
def regsHub1 : List RegD := [
  -- HUB_HBM_CFG (R330)
  ⟨0x0, 0x0, 1, 0x0, 1, false, .any, [(31, 31, .rw), (9, 8, .rwl), (3, 2, .ro), (1, 0, .rwl)]⟩,
  -- HUB_PERF_HBM_RD (R344)
  ⟨0x8, 0x0, 1, 0x0, 1, true, .any, [(63, 63, .w1c), (47, 0, .rw)]⟩,
  -- HUB_PERF_HBM_WR (R344)
  ⟨0x10, 0x0, 1, 0x0, 1, true, .any, [(63, 63, .w1c), (47, 0, .rw)]⟩,
  -- HUB_PERF_TURN (R344)
  ⟨0x18, 0x0, 1, 0x0, 1, true, .any, [(63, 63, .w1c), (47, 0, .rw)]⟩,
  -- HUB_PERF_THROTTLE (R344)
  ⟨0x20, 0x0, 1, 0x0, 1, true, .any, [(63, 63, .w1c), (47, 0, .rw)]⟩,
  -- HUB_RAS_HBM_CE (R685)
  ⟨0x100, 0x0, 1, 0x0, 1, true, .any, [(63, 0, .rw)]⟩,
  -- HUB_RAS_HBM_UE (R685)
  ⟨0x108, 0x0, 1, 0x0, 1, true, .any, [(63, 0, .rw)]⟩,
  -- HUB_RAS_BRD_CE (R685)
  ⟨0x110, 0x0, 1, 0x0, 1, true, .any, [(63, 0, .rw)]⟩,
  -- HUB_RAS_BRD_UE (R685)
  ⟨0x118, 0x0, 1, 0x0, 1, true, .any, [(63, 0, .rw)]⟩,
  -- HUB_RAS_MSC_CE (R685)
  ⟨0x120, 0x0, 1, 0x0, 1, true, .any, [(63, 0, .rw)]⟩,
  -- HUB_RAS_MSC_UE (R685)
  ⟨0x128, 0x0, 1, 0x0, 1, true, .any, [(63, 0, .rw)]⟩,
  -- HUB_RAS_MIRROR (R685)
  ⟨0x130, 0x0, 1, 0x0, 1, true, .any, [(63, 0, .rw)]⟩,
  -- HUB_RAS_ROWRET (R685)
  ⟨0x138, 0x0, 1, 0x0, 1, true, .any, [(63, 0, .rw)]⟩,
  -- HUB_RAS_POISONWR (R685)
  ⟨0x140, 0x0, 1, 0x0, 1, true, .any, [(63, 0, .rw)]⟩,
  -- THM_STACK (R343)
  ⟨0x200, 0x8, 3, 0x0, 1, false, .any, [(23, 16, .ro), (10, 8, .ro), (3, 1, .rws), (0, 0, .w1c)]⟩,
  -- HUB_DBG_WIN (R745)
  ⟨0x300, 0x0, 1, 0x0, 1, true, .pmf, [(57, 32, .rw)]⟩,
  -- HUB_LOCKVIOL (R698)
  ⟨0xff8, 0x0, 1, 0x0, 1, true, .any, [(63, 0, .rw)]⟩,
  -- MSC_PART_CFG (R321)
  ⟨0x10000, 0x8, 8, 0x0, 1, false, .pmf, [(21, 20, .rw), (19, 16, .rw), (15, 0, .rw)]⟩,
  -- MSC_MAINT (R324)
  ⟨0x10040, 0x0, 1, 0x0, 1, true, .any, [(3, 3, .w1c), (2, 2, .ro), (1, 0, .wo)]⟩,
  -- MSC_PERF_RHIT (R344)
  ⟨0x10100, 0x0, 1, 0x0, 1, true, .any, [(63, 63, .w1c), (47, 0, .rw)]⟩,
  -- MSC_PERF_RMISS (R344)
  ⟨0x10108, 0x0, 1, 0x0, 1, true, .any, [(63, 63, .w1c), (47, 0, .rw)]⟩,
  -- MSC_PERF_WR (R344)
  ⟨0x10110, 0x0, 1, 0x0, 1, true, .any, [(63, 63, .w1c), (47, 0, .rw)]⟩,
  -- MSC_PERF_WB (R344)
  ⟨0x10118, 0x0, 1, 0x0, 1, true, .any, [(63, 63, .w1c), (47, 0, .rw)]⟩,
  -- MSC_PERF_DISCARD (R344)
  ⟨0x10120, 0x0, 1, 0x0, 1, true, .any, [(63, 63, .w1c), (47, 0, .rw)]⟩,
  -- WEIR_CFG (R337)
  ⟨0x20000, 0x1000, 2, 0x8, 8, true, .any, [(63, 63, .rw), (62, 62, .rw), (47, 24, .rw), (15, 0, .rw)]⟩,
  -- WEIR_STAT (R340)
  ⟨0x20100, 0x1000, 2, 0x8, 8, true, .any, [(47, 24, .ro), (23, 0, .ro)]⟩,
  -- WEIR_PERF_WAIT (R344)
  ⟨0x20200, 0x1000, 2, 0x8, 8, true, .any, [(63, 63, .w1c), (47, 0, .rw)]⟩,
  -- MIG_SNAP_STATUS (R470)
  ⟨0x30000, 0x8, 8, 0x0, 1, true, .any, [(63, 62, .ro), (59, 30, .ro), (29, 0, .ro)]⟩,
  -- MIG_PERF_MOVE (R381)
  ⟨0x30100, 0x0, 1, 0x0, 1, true, .any, [(63, 63, .w1c), (47, 0, .rw)]⟩,
  -- MIG_PERF_MIRROR (R381)
  ⟨0x30108, 0x0, 1, 0x0, 1, true, .any, [(63, 63, .w1c), (47, 0, .rw)]⟩,
  -- MIG_PERF_FWD (R381)
  ⟨0x30110, 0x0, 1, 0x0, 1, true, .any, [(63, 63, .w1c), (47, 0, .rw)]⟩,
  -- MIG_PERF_STALL (R381)
  ⟨0x30118, 0x0, 1, 0x0, 1, true, .any, [(63, 63, .w1c), (47, 0, .rw)]⟩,
  -- MIG_PERF_SNAP (R471)
  ⟨0x30120, 0x0, 1, 0x0, 1, true, .any, [(63, 63, .w1c), (47, 0, .rw)]⟩,
  -- MIG_PERF_SNAPWAIT (R471)
  ⟨0x30128, 0x0, 1, 0x0, 1, true, .any, [(63, 63, .w1c), (47, 0, .rw)]⟩,
  -- KVP_POOL_CFG (R235)
  ⟨0x40000, 0x40, 16, 0x0, 1, true, .own,
    [(63, 63, .rw), (62, 60, .rw), (59, 56, .rw), (55, 48, .rw), (47, 28, .rw), (27, 0, .rw)]⟩,
  -- KVP_POOL_BODY (R235)
  ⟨0x40008, 0x40, 16, 0x0, 1, true, .own, [(63, 0, .rw)]⟩,
  -- KVP_POOL_SIDE (R235)
  ⟨0x40010, 0x40, 16, 0x0, 1, true, .own, [(63, 0, .rw)]⟩,
  -- KVP_POOL_SEQ (R235)
  ⟨0x40018, 0x40, 16, 0x0, 1, true, .own, [(63, 0, .rw)]⟩,
  -- KVP_POOL_FREE (R237)
  ⟨0x40020, 0x40, 16, 0x0, 1, true, .any, [(63, 32, .ro), (27, 0, .ro)]⟩,
  -- KVP_POOL_USE (R237)
  ⟨0x40028, 0x40, 16, 0x0, 1, true, .any, [(59, 32, .ro), (27, 0, .ro)]⟩]
/-- A hub's block (R741). Part 2. -/
def regsHub2 : List RegD := [
  -- SLC_STATUS (R432)
  ⟨0x50000, 0x0, 1, 0x0, 1, true, .any, [(40, 40, .w1c), (31, 16, .ro), (13, 0, .ro)]⟩,
  -- SLC_EXC_OVR (R72)
  ⟨0x50008, 0x0, 1, 0x0, 1, true, .any, [(63, 0, .rw)]⟩,
  -- SLC_EXC_NONFIN (R72)
  ⟨0x50010, 0x0, 1, 0x0, 1, true, .any, [(63, 0, .rw)]⟩,
  -- SLC_EXC_DUP (R434)
  ⟨0x50018, 0x0, 1, 0x0, 1, true, .any, [(63, 0, .rw)]⟩,
  -- SLC_EXC_DROP (R434)
  ⟨0x50020, 0x0, 1, 0x0, 1, true, .any, [(63, 0, .rw)]⟩,
  -- SLC_EXC_ESCDROP (R434)
  ⟨0x50028, 0x0, 1, 0x0, 1, true, .any, [(63, 0, .rw)]⟩,
  -- SPK_EXC_DUP (R434)
  ⟨0x50030, 0x0, 1, 0x0, 1, true, .any, [(63, 0, .rw)]⟩,
  -- SPK_EXC_EPOCH (R434)
  ⟨0x50038, 0x0, 1, 0x0, 1, true, .any, [(63, 0, .rw)]⟩,
  -- SPK_EXC_LATE (R434)
  ⟨0x50040, 0x0, 1, 0x0, 1, true, .any, [(63, 0, .rw)]⟩,
  -- SLC_LATE_IN (R453)
  ⟨0x50048, 0x0, 1, 0x0, 1, true, .any, [(63, 0, .rw)]⟩,
  -- SLC_LATE_ADD (R453)
  ⟨0x50050, 0x0, 1, 0x0, 1, true, .any, [(63, 0, .rw)]⟩,
  -- SLC_LATE_DROP (R453)
  ⟨0x50058, 0x0, 1, 0x0, 1, true, .any, [(63, 0, .rw)]⟩,
  -- SLC_PERF_OPS (R435)
  ⟨0x50100, 0x0, 1, 0x0, 1, true, .any, [(63, 63, .w1c), (47, 0, .rw)]⟩,
  -- SLC_PERF_IN (R435)
  ⟨0x50108, 0x0, 1, 0x0, 1, true, .any, [(63, 63, .w1c), (47, 0, .rw)]⟩,
  -- SLC_PERF_OUT (R435)
  ⟨0x50110, 0x0, 1, 0x0, 1, true, .any, [(63, 63, .w1c), (47, 0, .rw)]⟩,
  -- SLC_PERF_ADD (R435)
  ⟨0x50118, 0x0, 1, 0x0, 1, true, .any, [(63, 63, .w1c), (47, 0, .rw)]⟩,
  -- SLC_PERF_WAIT (R435)
  ⟨0x50120, 0x0, 1, 0x0, 1, true, .any, [(63, 63, .w1c), (47, 0, .rw)]⟩,
  -- SPK_PERF_POSTS (R435)
  ⟨0x50128, 0x0, 1, 0x0, 1, true, .any, [(63, 63, .w1c), (47, 0, .rw)]⟩]
/-- A hub's block (R741). -/
def regsHub : List RegD := regsHub1 ++ regsHub2

/-- A leat port's block (R742). -/
def regsLeat : List RegD := [
  -- LEA_PORT_CFG (R530)
  ⟨0x0, 0x0, 1, 0x0, 1, true, .any,
    [(63, 63, .rw), (62, 60, .rw), (59, 59, .rw), (58, 53, .rw), (52, 51, .rw), (50, 50, .rw), (15, 0, .rw)]⟩,
  -- LEA_PORT_CTRL (R531)
  ⟨0x8, 0x0, 1, 0x0, 1, false, .any, [(2, 1, .rw), (0, 0, .wo)]⟩,
  -- LEA_PORT_STATUS (R532)
  ⟨0x10, 0x0, 1, 0x0, 1, true, .any,
    [(63, 52, .ro), (51, 40, .ro), (39, 29, .ro), (28, 28, .ro), (27, 27, .ro), (26, 23, .ro), (22, 18, .ro),
    (17, 13, .ro), (12, 11, .ro), (2, 0, .ro)]⟩,
  -- LEA_PORT_PARTNER (R533)
  ⟨0x18, 0x0, 1, 0x0, 1, true, .any, [(16, 16, .ro), (15, 0, .ro)]⟩,
  -- LEA_PORT_PIDL (R533)
  ⟨0x20, 0x0, 1, 0x0, 1, true, .any, [(63, 0, .ro)]⟩,
  -- LEA_PORT_PIDH (R533)
  ⟨0x28, 0x0, 1, 0x0, 1, true, .any, [(63, 0, .ro)]⟩,
  -- LEA_PORT_TAGS (R534)
  ⟨0x30, 0x0, 1, 0x0, 1, true, .any, [(28, 16, .ro), (12, 0, .ro)]⟩,
  -- LEA_PORT_VC (R534)
  ⟨0x40, 0x8, 5, 0x0, 1, true, .any, [(58, 44, .ro), (43, 30, .ro), (27, 14, .ro), (13, 0, .ro)]⟩,
  -- LEA_PORT_ERR_CRC (R535)
  ⟨0x100, 0x0, 1, 0x0, 1, true, .any, [(63, 0, .rw)]⟩,
  -- LEA_PORT_ERR_UNCORR (R535)
  ⟨0x108, 0x0, 1, 0x0, 1, true, .any, [(63, 0, .rw)]⟩,
  -- LEA_PORT_ERR_OOO (R535)
  ⟨0x110, 0x0, 1, 0x0, 1, true, .any, [(63, 0, .rw)]⟩,
  -- LEA_PORT_ERR_DUP (R535)
  ⟨0x118, 0x0, 1, 0x0, 1, true, .any, [(63, 0, .rw)]⟩,
  -- LEA_PORT_ERR_REPLAY (R535)
  ⟨0x120, 0x0, 1, 0x0, 1, true, .any, [(63, 0, .rw)]⟩,
  -- LEA_PORT_ERR_RETRAIN (R535)
  ⟨0x128, 0x0, 1, 0x0, 1, true, .any, [(63, 0, .rw)]⟩,
  -- LEA_PORT_ERR_SWAP (R535)
  ⟨0x130, 0x0, 1, 0x0, 1, true, .any, [(63, 0, .rw)]⟩,
  -- LEA_PORT_ERR_ROUTE (R535)
  ⟨0x138, 0x0, 1, 0x0, 1, true, .any, [(63, 0, .rw)]⟩,
  -- LEA_PORT_ERR_LATE (R535)
  ⟨0x140, 0x0, 1, 0x0, 1, true, .any, [(63, 0, .rw)]⟩,
  -- LEA_PORT_ERR_LINKDROP (R535)
  ⟨0x148, 0x0, 1, 0x0, 1, true, .any, [(63, 0, .rw)]⟩,
  -- LEA_PORT_LANE_CORR (R535)
  ⟨0x180, 0x8, 5, 0x0, 1, true, .any, [(63, 0, .rw)]⟩,
  -- LEA_PERF_TXSLOT (R536)
  ⟨0x200, 0x0, 1, 0x0, 1, true, .any, [(63, 63, .w1c), (47, 0, .rw)]⟩,
  -- LEA_PERF_RXSLOT (R536)
  ⟨0x208, 0x0, 1, 0x0, 1, true, .any, [(63, 63, .w1c), (47, 0, .rw)]⟩,
  -- LEA_PERF_NULL (R536)
  ⟨0x210, 0x0, 1, 0x0, 1, true, .any, [(63, 63, .w1c), (47, 0, .rw)]⟩,
  -- LEA_PERF_CREDSTALL (R536)
  ⟨0x218, 0x0, 1, 0x0, 1, true, .any, [(63, 63, .w1c), (47, 0, .rw)]⟩,
  -- LEA_PERF_WAIT (R536)
  ⟨0x220, 0x0, 1, 0x0, 1, true, .any, [(63, 63, .w1c), (47, 0, .rw)]⟩]

/-- The HIF region (R743). -/
def regsHif : List RegD := [
  -- HIF_PORT_FN_CFG (R538)
  ⟨0x0, 0x200, 4, 0x8, 64, true, .pf, [(63, 63, .rw), (62, 60, .rw), (59, 59, .rw), (58, 53, .rw)]⟩,
  -- HIF_PORT_FLUSH (R556)
  ⟨0x1000, 0x40, 4, 0x8, 8, true, .any, [(63, 8, .rw), (7, 7, .rw), (5, 0, .rw)]⟩,
  -- HIF_PORT_ERR_INB (R580)
  ⟨0x2000, 0x20, 4, 0x0, 1, true, .any, [(63, 0, .rw)]⟩,
  -- HIF_PORT_ERR_OUTB (R580)
  ⟨0x2008, 0x20, 4, 0x0, 1, true, .any, [(63, 0, .rw)]⟩,
  -- HIF_PORT_ERR_DB (R580)
  ⟨0x2010, 0x20, 4, 0x0, 1, true, .any, [(63, 0, .rw)]⟩,
  -- HIF_MR_CFG (R586)
  ⟨0x4000, 0x40, 32, 0x0, 1, true, .pf,
    [(63, 63, .rw), (62, 60, .rw), (59, 54, .rw), (53, 53, .rw), (52, 51, .rw), (50, 45, .rw), (44, 40, .rw)]⟩,
  -- HIF_MR_RING (R586)
  ⟨0x4008, 0x40, 32, 0x0, 1, true, .pf, [(47, 6, .rw)]⟩,
  -- HIF_MR_CRING (R586)
  ⟨0x4010, 0x40, 32, 0x0, 1, true, .pf, [(47, 6, .rw)]⟩,
  -- HIF_MR_PTR (R586)
  ⟨0x4018, 0x40, 32, 0x0, 1, true, .any, [(63, 32, .ro), (31, 0, .ro)]⟩,
  -- HIF_MR_CPTR (R586)
  ⟨0x4020, 0x40, 32, 0x0, 1, true, .any, [(63, 32, .ro), (31, 0, .rw)]⟩,
  -- HIF_MR_IRQ (R586)
  ⟨0x4028, 0x40, 32, 0x0, 1, true, .any, [(63, 63, .rw), (58, 48, .rw), (31, 16, .rw), (15, 0, .rw)]⟩,
  -- HIF_MR_DB (R587)
  ⟨0x4030, 0x40, 32, 0x0, 1, false, .pf, [(31, 0, .wo)]⟩,
  -- HIF_Q_CFG (R544)
  ⟨0x100000, 0x80, 8192, 0x0, 1, true, .pf,
    [(63, 63, .rw), (62, 60, .rw), (59, 54, .rw), (53, 50, .rw), (49, 48, .rw), (47, 46, .rw), (45, 40, .rw),
    (39, 35, .rw)]⟩,
  -- HIF_Q_TMASK (R544)
  ⟨0x100008, 0x80, 8192, 0x0, 1, true, .pf, [(63, 0, .rw)]⟩,
  -- HIF_Q_RING (R544)
  ⟨0x100010, 0x80, 8192, 0x0, 1, true, .pf, [(47, 6, .rw)]⟩,
  -- HIF_Q_CRING (R544)
  ⟨0x100018, 0x80, 8192, 0x0, 1, true, .pf, [(47, 6, .rw)]⟩,
  -- HIF_Q_PTR (R544)
  ⟨0x100020, 0x80, 8192, 0x0, 1, true, .any, [(63, 32, .ro), (31, 0, .ro)]⟩,
  -- HIF_Q_CPTR (R544)
  ⟨0x100028, 0x80, 8192, 0x0, 1, true, .any, [(63, 32, .ro), (31, 0, .rw)]⟩,
  -- HIF_Q_IRQ (R544)
  ⟨0x100030, 0x80, 8192, 0x0, 1, true, .any, [(63, 63, .rw), (58, 48, .rw), (31, 16, .rw), (15, 0, .rw)]⟩]

/-- A media die's block (R743). -/
def regsMed : List RegD := [
  -- MED_CAP (R583)
  ⟨0x0, 0x0, 1, 0x0, 1, true, .any, [(15, 12, .ro), (11, 8, .ro), (7, 3, .ro), (1, 0, .ro)]⟩,
  -- MED_DIE_CONCEAL (R619)
  ⟨0x8, 0x0, 1, 0x0, 1, true, .any, [(63, 0, .rw)]⟩,
  -- MED_DIE_RESYNC (R619)
  ⟨0x10, 0x0, 1, 0x0, 1, true, .any, [(63, 0, .rw)]⟩,
  -- MED_PERF_DEC_SAMPLES (R619)
  ⟨0x100, 0x0, 1, 0x0, 1, true, .any, [(63, 63, .w1c), (47, 0, .rw)]⟩,
  -- MED_PERF_ENC_SAMPLES (R619)
  ⟨0x108, 0x0, 1, 0x0, 1, true, .any, [(63, 63, .w1c), (47, 0, .rw)]⟩,
  -- MED_PERF_PREEMPT (R619)
  ⟨0x110, 0x0, 1, 0x0, 1, true, .any, [(63, 63, .w1c), (47, 0, .rw)]⟩,
  -- MED_PERF_BUSY (R619)
  ⟨0x118, 0x0, 1, 0x0, 1, true, .any, [(63, 63, .w1c), (47, 0, .rw)]⟩]

end Sys2Proof.Machine
end

