-- ==== Sys2Proof/Machine/RegMap.lean ====
section
/-! DEFINITION. The register view (R736 to R748): writes by access code, lock and writer (R7, R8, R698, R737), reads of the
normal and the debug view, and the sideband interface (R716). -/

namespace Sys2Proof.Machine

/-! ### Finding a register -/

/-- The kinds of blocks that the normal view holds (R738). -/
inductive Area where
  | dev | hgt | tile | hub | leat | hif | med
  deriving DecidableEq, Repr

/-- A register found: its kind of block, the block's number, its table entry, its numbers within the block and its offset in
the register view. -/
structure RegHit where
  area : Area
  unit : Nat
  reg  : RegD
  i    : Nat
  j    : Nat
  off  : Nat
  deriving DecidableEq, Repr

/-- The numbers of an array's register at an offset of its block. -/
def RegD.at (d : RegD) (rel : Nat) : Option (Nat × Nat) :=
  if rel < d.base then none
  else
    let x := rel - d.base
    let i := if d.s1 = 0 then 0 else x / d.s1
    let y := if d.s1 = 0 then x else x % d.s1
    let j := if d.s2 = 0 then 0 else y / d.s2
    if i < d.n1 ∧ j < d.n2 ∧ y = d.s2 * j then some (i, j) else none

/-- The block of an offset of the normal view, and the offset within it (R738). -/
def areaOf (off : Nat) : Option (Area × Nat × Nat × List RegD) :=
  if off < 0x100000 then some (.dev, 0, off, regsDev)
  else if off < 0x200000 then some (.hgt, 0, off - 0x100000, regsHgt)
  else if 0x1000000 ≤ off ∧ off < 0x2000000 then some (.tile, (off - 0x1000000) / 0x40000, off % 0x40000, regsTile)
  else if 0x2000000 ≤ off ∧ off < 0x2400000 then some (.hub, (off - 0x2000000) / 0x100000, off % 0x100000, regsHub)
  else if 0x3000000 ≤ off ∧ off < 0x3400000 then some (.leat, (off - 0x3000000) / 0x40000, off % 0x40000, regsLeat)
  else if 0x4000000 ≤ off ∧ off < 0x4200000 then some (.hif, 0, off - 0x4000000, regsHif)
  else if 0x5000000 ≤ off ∧ off < 0x5020000 then some (.med, (off - 0x5000000) / 0x10000, off % 0x10000, regsMed)
  else none

/-- The register at an offset of the normal view that is a multiple of 8. -/
def findReg (off : Nat) : Option RegHit :=
  match areaOf off with
  | none => none
  | some (a, u, rel, tab) => tab.findSome? fun d => (d.at rel).map fun (i, j) =>
      { area := a, unit := u, reg := d, i := i, j := j, off := off }

/-- Whether the unit of a register is there (R18, R343, R472, R567, R668, R732). -/
def State.regThere (s : State) (h : RegHit) : Bool :=
  match h.area with
  | .tile => s.tileUp h.unit
  | .leat => s.leatThere h.unit
  | .hub => !bit s.boot.deadDies (16 + h.unit) &&
      (h.reg.base != 0x200 || s.fittedSites.contains (3 * h.unit + h.i)) &&
      (!(decide (0x20000 ≤ h.reg.base ∧ h.reg.base < 0x30000) && h.i == 1) || s.nBoards != 0)
  | .med => s.medThere h.unit
  | .hgt => (h.reg.base != 0x2000 || decide (h.i < s.granules false)) && (h.reg.base != 0x4000 || decide (h.i < s.granules true))
  | .dev =>
    let b := h.reg.base
    (!(b == 0x60000 || b == 0x60100) || s.lic 2) &&
      (!(decide (0x40100 ≤ b ∧ b < 0x40200)) || s.lic 5) &&
      (b != 0x30400 || (s.fittedDies.contains h.i && !decide (20 ≤ h.i ∧ h.i < 32) && !bit s.boot.deadDies h.i)) &&
      (b != 0x30100 || s.tileUp h.i)
  | .hif => true

/-- A register's stored value. -/
def State.stored (s : State) (h : RegHit) : Nat :=
  match h.area with
  | .tile => ((s.tile h.unit).reg (h.off % 0x40000)).toNat
  | _ => s.rn h.off

/-- A register's stored value replaced. -/
def State.store (s : State) (h : RegHit) (v : Nat) : State :=
  match h.area with
  | .tile => s.setTile h.unit ((s.tile h.unit).setReg (h.off % 0x40000) (BitVec.ofNat 64 v))
  | _ => s.setReg h.off (BitVec.ofNat 64 v)

/-! ### Writing -/

/-- A register after a write by its access codes (R8); `locked` is whether the lock of its RWL fields is set. -/
def RegD.write (d : RegD) (locked : Bool) (old v : Nat) : Nat :=
  d.flds.foldl (fun r (f : Nat × Nat × Access) =>
    let (hi, lo, a) := f
    let keep := r
    match a with
    | .rw => setFld keep hi lo (fld v hi lo)
    | .rws => setFld keep hi lo (fld v hi lo)
    | .rwl => if locked then keep else setFld keep hi lo (fld v hi lo)
    | .w1c => setFld keep hi lo (Nat.land (fld keep hi lo) (Nat.xor (2 ^ (hi + 1 - lo) - 1) (fld v hi lo)))
    | .ro => keep
    | .wo => keep) old

/-- The partition that a register belongs to, if it belongs to one. -/
def State.regOwner (s : State) (h : RegHit) : Option Nat :=
  let b := h.reg.base
  match h.area with
  | .tile => some (s.tilePart h.unit)
  | .leat => some (s.rf (leatReg h.unit 0) 62 60)
  | .hgt => if b = 0x110 then some h.i
      else if 0x10000 ≤ b then some (s.rf (asReg h.i 0) 62 60)
      else none
  | .dev => if (0x40100 ≤ b ∧ b < 0x40200) ∨ b = 0x50400 then some h.i
      else if b = 0x60100 then some (s.rf (ethReg h.i) 62 60)
      else none
  | .hif => if b = 0x1000 then some h.j
      else if 0x4000 ≤ b ∧ b < 0x5000 then some (s.rf (qReg (ringQ h.i) 0) 62 60)
      else if 0x100000 ≤ b then some (s.rf (qReg h.i 0) 62 60)
      else none
  | _ => none

/-- Whether the rules let an origin write a register (R540, R698). -/
def State.mayWrite (s : State) (h : RegHit) (o : Origin) : Bool :=
  match h.reg.who with
  | .pmf => o.manages
  | .pf0 => o.isDrd || originPf0 o || o.cls == 4
  | .pf => o.isDrd || o.isPf || o.cls == 4
  | _ => match s.regOwner h with
    | none => h.reg.who == .any || o.manages
    | some p => o.mine p || (h.area == .hif && decide (0x100000 ≤ h.reg.base) && o.cls == 3 && o.port == s.qPort h.i && o.id == s.qFn h.i)

/-- Whether every write of a register is logged (R698, R744): its writers are restricted, or it lies in the GLB, LIC, FUS, DRD,
LOG or HGT block. -/
def RegHit.logged (h : RegHit) : Bool :=
  h.reg.who != .any || h.area == .hgt || (h.area == .dev && (decide (h.off < 0x1000) || decide (0x2000 ≤ h.off ∧ h.off < 0x30000) ||
    decide (0x40000 ≤ h.off ∧ h.off < 0x50000)))

/-- Rules of a single register that turn a write away: HIF_PORTp_FLUSHn names a function of another partition (R556). -/
def State.writeOk (s : State) (h : RegHit) (v : Nat) : Bool :=
  !(h.area == .hif && h.reg.base == 0x1000 && bit v 7) || s.rf (fnCfg h.i (fld v 5 0)) 62 60 == h.j

/-- The lock bit and the LOCKVIOL counter of a register with RWL fields that has no row of its own (R330, R718). -/
def RegHit.lock (h : RegHit) : Option (Nat × Nat) :=
  if h.area = .dev ∧ h.off = 0x48 then some (31, 0xFF8)
  else if h.area = .hub ∧ h.reg.base = 0 then some (31, hubReg h.unit 0xFF8)
  else none

/-- A write of a register without a row of its own (R7, R8, R698). -/
def genericWrite (h : RegHit) (v : Nat) (o : Origin) : Dev Unit := do
  let s ← get
  let ok := s.mayWrite h o && s.writeOk h v
  let shadow : Dev Unit := if h.reg.flds.any (fun f => f.2.2 == .wo) then shadowed h.off v else pure ()
  match h.lock with
  | some (b, viol) =>
    if s.reaches o h.off then
      if !ok || s.mute o then logWrite o 2 h.off v
      else if s.rb h.off b then do
        logWrite o 3 h.off v
        upd fun s => s.count viol 1
      else do
        if h.logged then logWrite o 1 h.off v
        upd fun s => s.store h (h.reg.write false (s.stored h) v)
  | none =>
    let eff : Dev Unit := do
      shadow
      upd fun s => s.store h (h.reg.write false (s.stored h) v)
    if h.logged then regWrite o h.off v ok eff else plainWrite o h.off v ok eff

/-- What a start finds when it finds the part as it is: a write of GLB_RESET brings no findings of its own. -/
def State.sameFindings (s : State) : Findings :=
  { testLow := false, fuseOk := true, ports := s.boot.ports, deadDies := s.boot.deadDies, vrDead := s.boot.vrDead
    badSites := s.boot.badSites, hubOp := (List.range 4).map fun h => s.rf (hubReg h 0) 1 0, badStacks := 0, weakRows := []
    badChans := 0, boardMts := s.boardMts, boardGib := s.boardGib, pairOk := s.rb 0x10000 2 }

/-- The command whose row a register's writes have, if they have one. -/
def rowWrite (h : RegHit) (v : Nat) (o : Origin) : Option (State → Res) :=
  let b := h.reg.base
  match h.area with
  | .dev =>
    if b = 0x20 then some fun s => execWarmRestart (some v) 0 o s.sameFindings s
    else if b = 0x30 then some (execGlbPtpCfgWrite v o)
    else if b = 0x10010 ∧ 1 ≤ fld v 63 60 ∧ fld v 63 60 ≤ 7 then some (Dev.run' (fwStart (fld v 63 60) (fld v 31 0) o))
    else if b = 0x30000 then some (execThmPwrCfgWrite v o)
    else if b = 0x40000 then some (execLogCfgWrite v o)
    else if b = 0x40018 then some (execLogAckWrite v o)
    else if b = 0x40100 then some (execLogJrnCfgWrite h.i false v o)
    else if b = 0x40108 then some (execLogJrnCfgWrite h.i true v o)
    else if b = 0x40110 then some (execLogJrnStepWrite h.i v o)
    else if b = 0x50000 then some (execSlcCommWrite h.i v o)
    else if b = 0x50200 then some (execSlcLateCfgWrite h.i v o)
    else if b = 0x60000 then some (execEthPortCfgWrite h.i v o)
    else if b = 0x70000 then some (execLeaNodeWrite v o)
    else none
  | .hgt =>
    if b = 8 then some (execHgtFrzRel v o)
    else if b = 0x18 ∧ fld v 63 60 = 1 then some (execShare v o)
    else if b = 0x18 ∧ fld v 63 60 = 2 then some (execUnshare v o)
    else if b = 0x100 then some (execHgtPartCfgWrite h.i v o)
    else if b = 0x108 then some (execHgtPartTilesWrite h.i v o)
    else if b = 0x2000 then some (execHgtGranuleWrite false h.i v o)
    else if b = 0x4000 then some (execHgtGranuleWrite true h.i v o)
    else if b = 0x10000 then some (execHgtAsCfgWrite h.i v o)
    else if b = 0x10010 then some (execHgtVselWrite h.i v o)
    else if b = 0x10018 then some (execHgtInvalWrite h.i v o)
    else none
  | .tile =>
    if b = 0 then some (execTilCtxAsWrite h.unit v o)
    else if b = 0x1000 then some (execSeqCtxCfgWrite h.unit h.i v o)
    else if b = 0xC000 then some (execMbxCfgWrite h.unit (4 * h.i + h.j) false v o)
    else if b = 0xC020 then some (execMbxCfgWrite h.unit (4 * h.i + h.j) true v o)
    else none
  | .hub =>
    if b = 0x10040 ∧ fld v 1 0 = 1 then some (execMscMaintWriteback h.unit (bit v 3) o)
    else if b = 0x10040 ∧ fld v 1 0 = 2 then some (execMscMaintInvalidate h.unit (bit v 3) o)
    else if b = 0x20000 then some (execWeirCfgWrite h.unit h.i h.j v o)
    else if 0x40000 ≤ b ∧ b < 0x40020 then some (execKvpPoolCfgWrite (16 * h.unit + h.i) ((b - 0x40000) / 8) v o)
    else none
  | .leat =>
    if b = 0 then some (execLeaPortCfgWrite h.unit v o)
    else if b = 8 then some (execLeaRetrainRequest h.unit v o)
    else none
  | .hif =>
    if b = 0 then some (execHifFnCfgWrite h.i h.j v o)
    else if 0x4000 ≤ b ∧ b < 0x4018 then some (execHifMrCfgWrite h.i ((b - 0x4000) / 8) v o)
    else if b = 0x4020 then some (execHifCconsWrite (ringQ h.i) v o)
    else if b = 0x4030 then some (execHifMrDoorbell h.i v o)
    else if 0x100000 ≤ b ∧ b < 0x100020 then some (execHifQCfgWrite h.i ((b - 0x100000) / 8) v o)
    else if b = 0x100028 then some (execHifCconsWrite h.i v o)
    else none
  | .med => none

/-- Whether a VF's register view presents a register: those of the queues bound to it (R540). -/
def State.vfSees (s : State) (h : RegHit) (o : Origin) : Bool :=
  !(o.cls == 3 && o.id != 0) ||
    (h.area == .hif && decide (0x100000 ≤ h.reg.base) && s.qPort h.i == o.port && s.qFn h.i == o.id)

/-- A write at an offset of the register view (R18, R736, R737, R746). -/
def viewWrite (off size v : Nat) (o : Origin) : Dev Unit := do
  let s ← get
  if 0x20000000 ≤ off ∨ !s.reaches o off then pure ()
  else if 0x10000000 ≤ off ∨ !(size == 4 || size == 8) ∨ off % size ≠ 0 then logWrite o 2 off v
  else match findReg (off - off % 8) with
    | none => pure ()
    | some h =>
      if !s.regThere h || !s.vfSees h o then pure ()
      else if size = 4 ∧ h.reg.wide = true then logWrite o 2 off v
      else if off % 8 ≠ 0 then pure ()
      else
        let v := v % 2 ^ (if h.reg.wide then 64 else 32)
        match rowWrite h v o with
        | some f => upd fun s => match f s with
          | .next s' => s'
          | _ => s
        | none => genericWrite h v o

/-- REGISTER_WRITE (R7, R8, R698, R736, R737). -/
def execRegisterWrite (off size v : Nat) (o : Origin) (s : State) : Res := Dev.run' (viewWrite off size v o) s

/-! ### Reading -/

/-- Eight bytes of a table from an offset; bytes past its end read 0. -/
def word8 (bs : List Byte) (off : Nat) : Nat := leNat ((bs.drop off).take 8)

/-- What a site is now (R662): 0 exposed with its tile, 1 spare, 2 retired. -/
def State.siteNow (s : State) (k : Nat) : Nat × Option Nat :=
  match (List.range s.nTiles).find? fun t => s.siteOf t == k with
  | some t => (0, some t)
  | none => (if siteState (s.fuse (k / 5)) (k % 5) = 1 ∧ !bit s.boot.badSites k then 1 else 2, none)

/-- A bit mask of the numbers below `n` that satisfy a condition. -/
def maskWhere (n : Nat) (p : Nat → Bool) : Nat := (List.range n).foldl (fun m i => if p i then m + 2 ^ i else m) 0

/-- The dies that are fitted and work (R662). -/
def State.dieOk (s : State) : Nat := maskWhere 40 fun i => s.fittedDies.contains i && !bit s.boot.deadDies i

/-- The capability block (R662); it reads 0 until a start has written it (R663). -/
def State.capBlock (s : State) : List Byte :=
  let sites := (List.range 80).map s.siteNow
  let count (n : Nat) : Nat := (sites.filter fun x => x.1 == n).length
  let eth := if s.lic 2 then 0xF0 else 0
  leBytes 4 s.boot.gen ++ leBytes 1 s.variant ++ leBytes 1 0xB0 ++ leBytes 1 (count 0) ++ leBytes 1 (count 1) ++
    leBytes 1 (count 2) ++ leBytes 1 (popcount 64 s.offline) ++ leBytes 1 (s.rf 0x18 21 20) ++ leBytes 1 s.boot.licFeat ++
    leBytes 1 s.licences ++ leBytes 1 ((List.range 4).foldl (fun m h => m + s.rf (hubReg h 0) 1 0 <<< (2 * h)) 0) ++
    leBytes 1 (maskWhere 2 s.medThere) ++ leBytes 1 (s.boot.ports % 16 + eth) ++
    leBytes 2 (maskWhere 12 s.fittedSites.contains) ++ leBytes 2 (maskWhere 12 s.sites.contains) ++
    leBytes 2 (maskWhere 16 s.leatThere) ++ leBytes 2 s.boards ++ leBytes 2 s.boardMts ++ leBytes 2 s.boardGib ++
    leBytes 4 s.boot.lost ++ leBytes 8 (s.hbmEnd - 2 ^ 32 - s.boot.lost * 65536) ++ leBytes 8 s.boardBytes ++
    leBytes 8 s.dieOk ++ leBytes 8 0 ++
    sites.flatMap (fun x => leBytes 2 (match x with
      | (n, some t) => n <<< 14 + b2n (bit s.offline t) <<< 13 + t
      | (n, none) => n <<< 14)) ++
    (List.range 64).flatMap (fun t => leBytes 1 (if t < s.nTiles then (s.dieOf t).1 else 0xFF)) ++
    (List.range 4).flatMap (fun i => leBytes 4 (s.boot.fwVer.getD i 0)) ++
    (List.range 4).flatMap (fun i => leBytes 2 (s.boot.fwAbi.getD i 0)) ++ leBytes 8 0 ++
    (List.range 40).flatMap (fun i => leBytes 1 (if s.fittedDies.contains i && !bit s.boot.deadDies i then 0xB0 else 0))

/-- LOG_WIN (R700): records SEQ to SEQ + 127; those that are not retained read 0. -/
def State.logWin (s : State) (i : Nat) : Nat :=
  let n := s.rn 0x40028 + i / 4
  if s.rn 0x40010 ≤ n ∧ n < s.rn 0x40008 then word8 (logBytes (spGet dLog s.log n)) (8 * (i % 4)) else 0

/-- DRD_TELEM_VAL (R703): the counter that DRD_TELEM_SEL names, with its wraps. -/
def State.telemVal (s : State) : Nat :=
  let off := s.rn 0x10028
  let (v, w) :=
    if 0x1000000 ≤ off ∧ off < 0x2000000 then
      let tl := s.tile ((off - 0x1000000) / 0x40000)
      ((tl.reg (off % 0x40000)).toNat, spGet dNat tl.wraps (off % 0x40000))
    else (s.rn off, spGet dNat s.wraps off)
  ((spGet dNat s.telem off + w) * 2 ^ 48 + fld v 47 0) % 2 ^ 64

/-- SEQ_TILE_STATUS (R136, R755): its flags, with what the tile is doing. -/
def Tile.status (tl : Tile) : Nat :=
  let queues := maskWhere 5 fun q => spGet dQueue tl.queues q != []
  let loaded := maskWhere 4 fun c => (tl.ctx c).kernels != []
  let depth := match tl.run with
    | some r => (tl.ctx r.ctx).loops.length
    | none => 0
  fld (tl.reg 0x1020).toNat 33 32 <<< 32 + queues <<< 16 + loaded <<< 12 + (tl.act.getD 0) <<< 10 + depth <<< 4 +
    b2n tl.aborting <<< 3 + b2n tl.switch.isSome <<< 2 + b2n (tl.run.any fun r => !r.ended) <<< 1 + b2n tl.act.isSome

/-- SLC_SLOTk_STATUS (R431). -/
def SlcSlot.reg (x : SlcSlot) : Nat :=
  x.tag % 2 ^ 32 <<< 32 + x.state <<< 29 + x.ring.countIn 1 <<< 25 + x.ring.countIn 0 <<< 21 + x.ring.sl.length <<< 17 + x.status

/-- LEA_PORTn_STATUS (R532). -/
def LPort.status (p : LPort) : Nat :=
  p.next <<< 52 + p.expect <<< 40 + p.out.length <<< 29 + b2n p.leader <<< 28 + b2n p.pswitch <<< 27 + p.pport <<< 23 +
    p.lfail <<< 18 + p.lact <<< 13 + p.width <<< 11 + p.st

/-- LEA_PORTn_VCv (R534). -/
def LVc.reg (c : LVc) : Nat :=
  c.freed <<< 44 + ((c.ready.foldl (fun n m => n + m.length) c.part.length) / 64) <<< 30 + c.held <<< 14 + c.psize

/-- MED_CAP (R583, R617). -/
def State.medCap (s : State) (d : Nat) : Nat :=
  let dec := s.medEngines d false != []
  let enc := s.medEngines d true != []
  s.boot.fwAbi.getD 3 0 % 16 <<< 12 + (if s.lic 4 then 7 else 0) <<< 8 + 0x1F <<< 3 + b2n enc <<< 1 + b2n dec

/-- The value of a register that is there, when it is not the stored one. -/
def State.derived (s : State) (h : RegHit) : Option Nat :=
  let b := h.reg.base
  match h.area with
  | .dev =>
    if b = 0 then some (0xB0 <<< 24 + s.variant <<< 16 + 1 <<< 8)
    else if b = 8 then some (s.uid % 2 ^ 64)
    else if b = 0x10 then some (s.uid / 2 ^ 64 % 2 ^ 64)
    else if b = 0x28 then some (s.time % 2 ^ 64)
    else if b = 0x1000 then some (if s.boot.gen = 0 then 0 else word8 s.capBlock (8 * h.i))
    else if b = 0x2000 then some (s.boot.licBad <<< 40 + s.boot.licValid <<< 32 + s.boot.licFeat <<< 16 + s.licences)
    else if b = 0x3000 then some (s.fuse h.i)
    else if b = 0x10018 then some (b2n s.fw.staging.isSome <<< 63 + b2n s.fw.pend <<< 62 + b2n s.fw.busy.isSome <<< 61 +
      s.fw.code <<< 32 + s.fw.got)
    else if b = 0x10020 then some (s.defDropped <<< 32 + (s.defects.filter fun d => d.st == 1).length <<< 16 + s.defects.length)
    else if b = 0x10030 then some s.telemVal
    else if b = 0x41000 then some (s.logWin h.i)
    else none
  | .hgt => if b = 0 then some (b2n (s.grants != [])) else none
  | .tile =>
    let tl := s.tile h.unit
    if b = 0x1020 then some tl.status
    else if b = 0x8000 then some (tl.flights.length <<< 32 + (1024 - tl.flights.length))
    else if b = 0x9000 then some (tl.chanStatus h.i)
    else if b = 0x9020 then some (word8 (tl.chan h.i).done (8 * h.j))
    else if b = 0xA000 then
      let m := maskWhere 32 fun e => (tl.crumb e).st != 0
      some (m <<< 32 + popcount 32 m)
    else if b = 0xD000 then some (spGet dSlc tl.slc h.i).reg
    else none
  | .hub =>
    if b = 0 then some (setFld (s.stored h) 3 2 ((s.fittedSites.filter fun k => k / 3 == h.unit).length))
    else if b = 0x50000 then some (setFld (setFld (s.stored h) 31 16 s.openOps) 13 0 (ceilDiv (s.staged h.unit) 1024))
    else none
  | .leat =>
    let p := s.lport h.unit
    if b = 0x10 then some p.status
    else if b = 0x18 then some (b2n p.ident <<< 16 + p.pnode)
    else if b = 0x20 then some (p.pid % 2 ^ 64)
    else if b = 0x28 then some (p.pid / 2 ^ 64 % 2 ^ 64)
    else if b = 0x30 then
      let n := (s.leaTags h.unit).length
      some (n <<< 16 + (4096 - n))
    else if b = 0x40 then some (p.vc h.i).reg
    else none
  | .med => if b = 0 then some (s.medCap h.unit) else none
  | .hif => none

/-- The bits of a register's WO fields. -/
def RegD.woMask (d : RegD) : Nat := d.flds.foldl (fun m f => if f.2.2 == .wo then m + maskBits f.1 f.2.1 else m) 0

/-- A register's value in the normal view (R18, R736), or in the debug view with the shadow of its WO fields (R746). -/
def State.readNormal (s : State) (off : Nat) (debug : Bool) : Nat :=
  match findReg off with
  | none => 0
  | some h =>
    if !s.regThere h then 0
    else
      let v := (s.derived h).getD (s.stored h)
      if debug then Nat.lor v (Nat.land (spGet dW64 s.shadow off).toNat h.reg.woMask) else v

/-- A loaded-kernel entry (R748). -/
def kernelEntry (k : LKernel) (running : Bool) : List Byte :=
  let map (l : List Nat) : Nat := (l.mapIdx fun i m => m % 16 <<< (4 * i)).foldl (· + ·) 0
  leBytes 4 k.handle ++ leBytes 1 (if running then 2 else 1) ++ leBytes 1 k.accKeep ++ leBytes 2 0 ++ leBytes 8 k.kernelId ++
    leBytes 4 k.codeOff ++ leBytes 4 k.codeBytes ++ leBytes 4 k.cisOff ++ leBytes 4 k.cisBytes ++ leBytes 8 (map k.sfuMap) ++
    leBytes 8 (map k.slcMap) ++ leBytes 4 (map k.spkMap) ++ leBytes 4 0 ++ leBytes 8 (map k.kvpMap)

/-- The debug image of context `c` at an offset of its 4 KiB (R747). -/
def Tile.debugCtx (tl : Tile) (c o : Nat) : Nat :=
  let x := tl.ctx c
  let base := match tl.run with
    | some r => if r.ctx = c then ((findKernel x r.handle).map LKernel.codeOff).getD 0 else 0
    | none => 0
  if o < 0x10 then (if o = 0 then base + x.pc else 0)
  else if o < 0x50 then
    match x.loops[(o - 0x10) / 16]? with
    | none => 0
    | some l => word8 (leBytes 4 (base + l.start) ++ leBytes 4 (base + l.stop) ++ leBytes 4 l.rem ++ leBytes 4 0) (o % 16)
  else if o = 0x50 then x.mePad.toNat
  else if o = 0x58 then x.lenM
  else if o = 0x60 then x.lenN
  else if o = 0x68 then x.lenK
  else if 0x100 ≤ o ∧ o < 0x1C0 then (spGet dOsm x.osm ((o - 0x100) / 8)).toNat
  else if o = 0x1C0 then b2n x.poison
  else if 0x800 ≤ o then leNat (spRead dByte x.flmSaved (o - 0x800) 8)
  else 0

/-- A tile's debug area at an offset (R747). -/
def Tile.debug (tl : Tile) (o : Nat) : Nat :=
  if o < 0x4000 then tl.debugCtx (o / 0x1000) (o % 0x1000)
  else if o < 0x8000 then
    match (tl.ctx ((o - 0x4000) / 0x1000)).kernels[o % 0x1000 / 64]? with
    | none => 0
    | some k => word8 (kernelEntry k (tl.run.any fun r => !r.ended && r.handle == k.handle)) (o % 64)
  else if o < 0x8028 then (spGet dQueue tl.queues ((o - 0x8000) / 8)).length
  else if 0x8040 ≤ o ∧ o < 0x8240 then
    match tl.post[(o - 0x8040) / 32]? with
    | none => 0
    | some e => (e.getD (o % 32 / 8) 0).toNat
  else if 0x8240 ≤ o ∧ o < 0x8440 then word8 (spGet dSlc tl.slc ((o - 0x8240) / 32)).record ((o - 0x8240) % 32)
  else if 0x40000 ≤ o then
    let w := fld (tl.reg 0x20).toNat 25 18
    if 192 ≤ w then 0 else leNat (tl.cisBytes (w * 0x40000 + (o - 0x40000)) 8)
  else 0

/-- A page-state entry's 16 bytes (R370). -/
def Frame.bytes (f : Frame) : List Byte :=
  leBytes 8 (f.dirty + f.mstale <<< 16 + f.state <<< 32 + b2n f.pin <<< 35 + b2n f.mirror <<< 36 + b2n f.mcopy <<< 37 +
    b2n f.shared <<< 38) ++ leBytes 8 (f.fwd + f.mframe <<< 32)

/-- A hub's debug area at an offset (R747). -/
def State.debugHub (s : State) (h o : Nat) : Nat :=
  if o < 0x4000 then
    match (s.remaps.filter fun r => r.hub == h)[o / 16]? with
    | none => 0
    | some r => word8 (leBytes 1 1 ++ leBytes 1 r.stack ++ leBytes 1 r.pch ++ leBytes 1 r.bank ++ leBytes 2 r.row ++
        leBytes 2 0 ++ leBytes 8 r.target) (o % 16)
  else if 0x10000 ≤ o ∧ o < 0x80000 then
    match (s.ops.filter SlcOp.isOpen)[(o - 0x10000) / 128]? with
    | none => 0
    | some op => word8 op.desc (o % 128)
  else if 0x80000 ≤ o then
    let f := s.rf (hubReg h 0x300) 57 32 + (o - 0x80000) / 16
    if s.dpaOk (f * 65536) && s.hubOf (f * 65536) == h then word8 (s.frame f).bytes (o % 16) else 0
  else 0

/-- A leat port's debug area at an offset (R747). -/
def State.debugLeat (s : State) (n o : Nat) : Nat :=
  if o < 0x300000 then
    match (s.lport n).out.find? fun f => f.seq % 1024 == o / 2576 with
    | none => 0
    | some f => word8 (flitBytes 1 f.seq (s.lport n).expect 0 0 f.cont f.slots) (o % 2576)
  else
    let v := (o - 0x300000) / 0x4000
    word8 (((spGet dMsgs s.leaQ (n * 8 + v))[o % 0x4000 / 64]?).getD []) (o % 64)

/-- Eight bytes of the register view (R736, R746, R747), as the partition-management function reads them. -/
def State.readView (s : State) (off : Nat) : Nat :=
  if off < 0x10000000 then s.readNormal off false
  else if off < 0x18000000 then s.readNormal (off - 0x10000000) true
  else if off < 0x1A000000 then
    let t := (off - 0x18000000) / 0x80000
    if s.tileUp t then (s.tile t).debug (off % 0x80000) else 0
  else if off < 0x1A400000 then
    let h := (off - 0x1A000000) / 0x100000
    if bit s.boot.deadDies (16 + h) then 0 else s.debugHub h (off % 0x100000)
  else if 0x1C000000 ≤ off ∧ off < 0x20000000 then
    let n := (off - 0x1C000000) / 0x400000
    if s.leatThere n then s.debugLeat n (off % 0x400000) else 0
  else 0

/-! ### The sideband interface -/

/-- A sideband write as an origin: one of the partition-management function, logged with ORIGIN 4 (R716). -/
def sbOrigin : Origin := { cls := 4, part := 0xFF, port := 0, id := 0 }

/-- Whether the interface takes a request at an offset (R716). -/
def sbOffOk (off : Nat) : Bool := decide (off < 0x20000000) && off % 8 == 0

/-- Whether a write was discarded, or met RWL fields under their lock: what it logged says so (R716). -/
def State.sbDenied (s : State) (off v : Nat) : Bool :=
  match (viewWrite off 8 v sbOrigin).go { s with events := [] } with
  | (_, s') =>
    let turned (r : LogRec) : Bool := (r.type == 2 || r.type == 3) && r.target == off
    s'.events.any turned || s'.log.any fun e => decide (s.rn 0x40008 ≤ e.1) && turned e.2

/-- SB_READ_REQUEST (R716). -/
def execSbReadRequest (off : Nat) (pec : Bool) (s : State) : Res :=
  .next (if !pec || !s.pins.standby then s
    else if sbOffOk off then { s with sb := (0, s.readView off) }
    else { s with sb := (0x1001, 0) })

/-- SB_WRITE_REQUEST (R716). -/
def execSbWriteRequest (off v : Nat) (pec : Bool) (s : State) : Res :=
  .next (if !pec || !s.pins.standby then s
    else if sbOffOk off then
      let st := if s.sbDenied off v then 0x1002 else 0
      { (viewWrite off 8 v sbOrigin).next s with sb := (st, 0) }
    else { s with sb := (0x1001, 0) })

/-- SB_RESULT_READ (R716). -/
def execSbResultRead (pec : Bool) (s : State) : Res :=
  .next (if !pec || !s.pins.standby then s else s.emit (.sideband s.sb.1 s.sb.2))

end Sys2Proof.Machine
end

