-- ==== Sys2Proof/Machine/Update.lean ====
section
/-! DEFINITION. The update instructions UPD and UPDS (R437 to R441). -/

namespace Sys2Proof.Machine

/-- The checks of R440, in their order: `w` is the tensor written, `d` the other operand, `fp32Ok` whether the first may be
fp32. -/
def updChecks (w d : TD) (fp32Ok : Bool) (e0 n : Nat) : Ex Unit := do
  w.check
  d.check
  need (w.inCistern && d.inCistern) 0x501
  need ((w.fmt == 9 || (fp32Ok && w.fmt == 8)) && (d.fmt == 8 || d.fmt == 9)) 0x504
  need ([w, d].all fun t => t.elem % 4 == 0 && t.rowPitch % 4 == 0 && t.matPitch % 4 == 0) 0x502
  need (decide (e0 + n ≤ w.elems ∧ e0 + n ≤ d.elems)) 0x505

/-- Whether the bytes of element `i` of the tensor written overlap those of an element of the other tensor, or of another
element of its own tensor. -/
def updOverlap (w d : TD) (e0 n i : Nat) : Bool :=
  let a := w.elemOff i
  let meets (b sz : Nat) : Bool := decide (a < b + sz ∧ b < a + scalarBytes w.fmt)
  (List.range n).any fun j =>
    meets (d.elemOff (e0 + j)) (scalarBytes d.fmt) || (e0 + j != i && meets (w.elemOff (e0 + j)) (scalarBytes w.fmt))

/-- One element's new value (R438, R439): its bits and events. -/
def updElem (square keep : Bool) (rnd : Rnd) (sat : Bool) (D : Nat) (f : FFmt) (al be old x : Ext) (oldBits : Nat) : Nat × Exc :=
  let t := if square then (be.mul x).mul x else be.mul x
  let nan := al.isNan || be.isNan || old.isNan || x.isNan
  let (v, ev) := deliver f rnd sat D nan ((al.mul old).add t)
  (if keep && !(f.dec v).isFin then oldBits else v, ev)

/-- Elements in ascending order: the tile, the events, and why it stopped early. An element whose bytes overlap the other
operand's, or another element of its own tensor, takes a free value. -/
def updLoop (kx : Kx) (word : IWord) (square : Bool) (w d : TD) (al be : Ext) (e0 n : Nat) :
    List Nat → Tile → Exc → Tile × Exc × Option Stop
  | [], tl, ev => (tl, ev, none)
  | i :: is, tl, ev =>
    match (do
      let o ← cisRead tl kx.k (w.elemOff i) (scalarBytes w.fmt)
      let x ← cisRead tl kx.k (d.elemOff i) (scalarBytes d.fmt)
      let (v, e) := updElem square (bit word.imm.toNat 20) (rndW word) (satW word) (tdDraw kx.samp w.tid i) (scalarFmt w.fmt) al be
        (scalarDec w.fmt o) (scalarDec d.fmt x) (leNat o)
      let (v, tl) := if updOverlap w d e0 n i then (let f := tl.fresh kx.t; (f.1.toNat, f.2)) else (v, tl)
      let tl ← cisWrite tl kx.k (w.elemOff i) (leBytes (scalarBytes w.fmt) v)
      return (tl, e)) with
    | .ok (tl', e) => updLoop kx word square w d al be e0 n is tl' (ev.plus e)
    | .error st => (tl, ev, some st)

/-- UPD and UPDS (R438 to R441). -/
def updBody (word : IWord) (x : W64) (fp32Ok square : Bool) (tl : Tile) (kx : Kx) : Act :=
  let ctx := tl.ctx kx.c
  let w := specTd ctx (specA x)
  let d := specTd ctx (specB x)
  let e0 := (tl.s kx word.sa).toNat
  let n := (tl.s kx word.sb).toNat
  let ab := (tl.s kx word.sc).toNat
  match updChecks w d fp32Ok e0 n with
  | .error (.abort c e) => .abort tl c e
  | .error .wait => .wait tl []
  | .ok () =>
    match updLoop kx word square w d (fp32.dec (fld ab 31 0)) (fp32.dec (fld ab 63 32)) e0 n
      ((List.range n).map (e0 + ·)) tl .zero with
    | (tl', ev, some (.abort c e)) => .abort (tl'.count kx.c ev) c e
    | (tl', ev, _) => .done ((tl'.count kx.c ev).vuBusy (ceilDiv n 128 + 1))

/-- UPD. -/
def execUpd (t : Nat) (w : IWord) (x : W64) (s : State) : Res :=
  tileInstr s t (.upd t w x) 0x77 w x (updBody w x false false)

/-- UPDS. -/
def execUpds (t : Nat) (w : IWord) (x : W64) (s : State) : Res :=
  tileInstr s t (.upds t w x) 0x78 w x (updBody w x true (w.fn == 1))

end Sys2Proof.Machine
end

