-- ==== Sys2Proof/Machine/Dispatch.lean ====
section
/-! DEFINITION. The one dispatch: every command to its meaning. -/

namespace Sys2Proof.Machine

def exec (i : Instr) (s : State) : Host.Outcome State Fault Refusal :=
  match i with
  | .nop t w => Sys2Proof.Machine.execNop t w s
  | .alu t w => Sys2Proof.Machine.execAlu t w s
  | .alui t w => Sys2Proof.Machine.execAlui t w s
  | .li t w x => Sys2Proof.Machine.execLi t w x s
  | .cmp t w => Sys2Proof.Machine.execCmp t w s
  | .pop t w => Sys2Proof.Machine.execPop t w s
  | .br t w => Sys2Proof.Machine.execBr t w s
  | .brr t w => Sys2Proof.Machine.execBrr t w s
  | .loop t w => Sys2Proof.Machine.execLoop t w s
  | .loopEnd t => Sys2Proof.Machine.execLoopEnd t s
  | .fpu t w => Sys2Proof.Machine.execFpu t w s
  | .waitq t w => Sys2Proof.Machine.execWaitq t w s
  | .fence t w => Sys2Proof.Machine.execFence t w s
  | .kend t w => Sys2Proof.Machine.execKend t w s
  | .rdsr t w => Sys2Proof.Machine.execRdsr t w s
  | .wrsr t w => Sys2Proof.Machine.execWrsr t w s
  | .lds t w => Sys2Proof.Machine.execLds t w s
  | .sts t w => Sys2Proof.Machine.execSts t w s
  | .adda t w => Sys2Proof.Machine.execAdda t w s
  | .mova t w => Sys2Proof.Machine.execMova t w s
  | .tdld t w => Sys2Proof.Machine.execTdld t w s
  | .tdst t w => Sys2Proof.Machine.execTdst t w s
  | .tdset t w => Sys2Proof.Machine.execTdset t w s
  | .tdget t w => Sys2Proof.Machine.execTdget t w s
  | .trecv t w => Sys2Proof.Machine.execTrecv t w s
  | .tsig t w => Sys2Proof.Machine.execTsig t w s
  | .tidyPost t core k v => Sys2Proof.Machine.execTidyPost t core k v s
  | .tidyInboxRead t core count => Sys2Proof.Machine.execTidyInboxRead t core count s
  | .tidyCisternAccess t core addr len data => Sys2Proof.Machine.execTidyCisternAccess t core addr len data s
  | .launch q => Sys2Proof.Machine.execLaunch q s
  | .launchStart id ext => Sys2Proof.Machine.execLaunchStart id ext s
  | .launchComplete id => Sys2Proof.Machine.execLaunchComplete id s
  | .watchdogExpiry id => Sys2Proof.Machine.execWatchdogExpiry id s
  | .load q ext => Sys2Proof.Machine.execLoad q ext s
  | .unload q => Sys2Proof.Machine.execUnload q s
  | .ctxSwitch q => Sys2Proof.Machine.execCtxSwitch q s
  | .ctxSwitchEffect t => Sys2Proof.Machine.execCtxSwitchEffect t s
  | .ctxSwitchFinish t => Sys2Proof.Machine.execCtxSwitchFinish t s
  | .hookTimeout t => Sys2Proof.Machine.execHookTimeout t s
  | .seqCtxCfgWrite t c v o => Sys2Proof.Machine.execSeqCtxCfgWrite t c v o s
  | .tilCtxAsWrite t v o => Sys2Proof.Machine.execTilCtxAsWrite t v o s
  | .registerWrite off size v o => Sys2Proof.Machine.execRegisterWrite off size v o s
  | .mmac t w x => Sys2Proof.Machine.execMmac t w x s
  | .mzero t w => Sys2Proof.Machine.execMzero t w s
  | .mdrain t w x => Sys2Proof.Machine.execMdrain t w x s
  | .mpad t w => Sys2Proof.Machine.execMpad t w s
  | .mlen t w => Sys2Proof.Machine.execMlen t w s
  | .vop t w => Sys2Proof.Machine.execVop t w s
  | .vopb t w => Sys2Proof.Machine.execVopb t w s
  | .vcmp t w => Sys2Proof.Machine.execVcmp t w s
  | .vcvt t w => Sys2Proof.Machine.execVcvt t w s
  | .vld t w => Sys2Proof.Machine.execVld t w s
  | .vst t w => Sys2Proof.Machine.execVst t w s
  | .vred t w => Sys2Proof.Machine.execVred t w s
  | .qblk t w x => Sys2Proof.Machine.execQblk t w x s
  | .vwid t w x => Sys2Proof.Machine.execVwid t w x s
  | .vperm t w => Sys2Proof.Machine.execVperm t w s
  | .vbcast t w => Sys2Proof.Machine.execVbcast t w s
  | .vacc t w => Sys2Proof.Machine.execVacc t w s
  | .sfn t w => Sys2Proof.Machine.execSfn t w s
  | .stab t w => Sys2Proof.Machine.execStab t w s
  | .osmn t w => Sys2Proof.Machine.execOsmn t w s
  | .osmx t w => Sys2Proof.Machine.execOsmx t w s
  | .osme t w x => Sys2Proof.Machine.execOsme t w x s
  | .osms t w x => Sys2Proof.Machine.execOsms t w x s
  | .osmcCorr t w => Sys2Proof.Machine.execOsmcCorr t w s
  | .osmcFin t w => Sys2Proof.Machine.execOsmcFin t w s
  | .osmRerun t => Sys2Proof.Machine.execOsmRerun t s
  | .osmcMerge t w => Sys2Proof.Machine.execOsmcMerge t w s
  | .osmcSave t w => Sys2Proof.Machine.execOsmcSave t w s
  | .osmcLoad t w => Sys2Proof.Machine.execOsmcLoad t w s
  | .osmvAccum t w x => Sys2Proof.Machine.execOsmvAccum t w x s
  | .osmvDecide t w x => Sys2Proof.Machine.execOsmvDecide t w x s
  | .osmbProb t w x => Sys2Proof.Machine.execOsmbProb t w x s
  | .osmbDscore t w x => Sys2Proof.Machine.execOsmbDscore t w x s
  | .upd t w x => Sys2Proof.Machine.execUpd t w x s
  | .upds t w x => Sys2Proof.Machine.execUpds t w x s
  | .kvw t w x => Sys2Proof.Machine.execKvw t w x s
  | .kvt t w x => Sys2Proof.Machine.execKvt t w x s
  | .kvOpen q => Sys2Proof.Machine.execKvOpen q s
  | .kvReserve q => Sys2Proof.Machine.execKvReserve q s
  | .kvUnreserve q => Sys2Proof.Machine.execKvUnreserve q s
  | .kvClose q => Sys2Proof.Machine.execKvClose q s
  | .kvpPoolCfgWrite n k v o => Sys2Proof.Machine.execKvpPoolCfgWrite n k v o s
  | .fcfg t w => Sys2Proof.Machine.execFcfg t w s
  | .fgo t w => Sys2Proof.Machine.execFgo t w s
  | .fwait t w => Sys2Proof.Machine.execFwait t w s
  | .fstop t w => Sys2Proof.Machine.execFstop t w s
  | .frel t w => Sys2Proof.Machine.execFrel t w s
  | .crbRead t w x => Sys2Proof.Machine.execCrbRead t w x s
  | .crbWrite t w x => Sys2Proof.Machine.execCrbWrite t w x s
  | .crbWriteImmediate t w x => Sys2Proof.Machine.execCrbWriteImmediate t w x s
  | .flumeRequestGrant t => Sys2Proof.Machine.execFlumeRequestGrant t s
  | .addressWalk t tag => Sys2Proof.Machine.execAddressWalk t tag s
  | .flumeReadResponse t tag => Sys2Proof.Machine.execFlumeReadResponse t tag s
  | .flumeWriteAck t tag => Sys2Proof.Machine.execFlumeWriteAck t tag s
  | .flumeSlotReclaim t n slot => Sys2Proof.Machine.execFlumeSlotReclaim t n slot s
  | .cisEccWriteback t word => Sys2Proof.Machine.execCisEccWriteback t word s
  | .cisScrub t bank => Sys2Proof.Machine.execCisScrub t bank s
  | .hubReadRequest r => Sys2Proof.Machine.execHubReadRequest r s
  | .hubWriteRequest r => Sys2Proof.Machine.execHubWriteRequest r s
  | .hbmRefresh site pch bank => Sys2Proof.Machine.execHbmRefresh site pch bank s
  | .hbmRefreshManagement site pch bank => Sys2Proof.Machine.execHbmRefreshManagement site pch bank s
  | .mscMaintWriteback h done o => Sys2Proof.Machine.execMscMaintWriteback h done o s
  | .mscMaintInvalidate h done o => Sys2Proof.Machine.execMscMaintInvalidate h done o s
  | .mscMaintDone h => Sys2Proof.Machine.execMscMaintDone h s
  | .weirRefill h => Sys2Proof.Machine.execWeirRefill h s
  | .weirCfgWrite h set p v o => Sys2Proof.Machine.execWeirCfgWrite h set p v o s
  | .stackTempRead site temp => Sys2Proof.Machine.execStackTempRead site temp s
  | .hgtAsCfgWrite n v o => Sys2Proof.Machine.execHgtAsCfgWrite n v o s
  | .hgtVselWrite n v o => Sys2Proof.Machine.execHgtVselWrite n v o s
  | .vselFlipDone n => Sys2Proof.Machine.execVselFlipDone n s
  | .hgtInvalWrite n v o => Sys2Proof.Machine.execHgtInvalWrite n v o s
  | .invalidationDone n => Sys2Proof.Machine.execInvalidationDone n s
  | .migMove q => Sys2Proof.Machine.execMigMove q s
  | .migMoveDone src => Sys2Proof.Machine.execMigMoveDone src s
  | .migFree q => Sys2Proof.Machine.execMigFree q s
  | .migMirror q => Sys2Proof.Machine.execMigMirror q s
  | .migUnmirror q => Sys2Proof.Machine.execMigUnmirror q s
  | .migAttr q => Sys2Proof.Machine.execMigAttr q s
  | .migScan q => Sys2Proof.Machine.execMigScan q s
  | .slc t w x => Sys2Proof.Machine.execSlc t w x s
  | .slcw t w x => Sys2Proof.Machine.execSlcw t w x s
  | .slcPost q => Sys2Proof.Machine.execSlcPost q s
  | .slcCommWrite n v o => Sys2Proof.Machine.execSlcCommWrite n v o s
  | .sluicePacketReceive msg => Sys2Proof.Machine.execSluicePacketReceive msg s
  | .slcOpComplete comm tag step post => Sys2Proof.Machine.execSlcOpComplete comm tag step post s
  | .slcDeadlineExpiry comm tag step post => Sys2Proof.Machine.execSlcDeadlineExpiry comm tag step post s
  | .sluiceSlotReclaim t slot k => Sys2Proof.Machine.execSluiceSlotReclaim t slot k s
  | .spkPost t w x => Sys2Proof.Machine.execSpkPost t w x s
  | .spkWait t w x => Sys2Proof.Machine.execSpkWait t w x s
  | .sprinkleMessageReceive msg => Sys2Proof.Machine.execSprinkleMessageReceive msg s
  | .spkLeaderTimeout comm slot epoch => Sys2Proof.Machine.execSpkLeaderTimeout comm slot epoch s
  | .spkMemberTimeout t comm slot epoch => Sys2Proof.Machine.execSpkMemberTimeout t comm slot epoch s
  | .lateJoinReceive msg => Sys2Proof.Machine.execLateJoinReceive msg s
  | .lateDecisionDeadline comm tag step => Sys2Proof.Machine.execLateDecisionDeadline comm tag step s
  | .lateDecisionReceive msg => Sys2Proof.Machine.execLateDecisionReceive msg s
  | .slcLateCfgWrite n v o => Sys2Proof.Machine.execSlcLateCfgWrite n v o s
  | .lbkQuery t w x => Sys2Proof.Machine.execLbkQuery t w x s
  | .lbkFlush t w x => Sys2Proof.Machine.execLbkFlush t w x s
  | .jrn t w x => Sys2Proof.Machine.execJrn t w x s
  | .publish q => Sys2Proof.Machine.execPublish q s
  | .publishComplete n b => Sys2Proof.Machine.execPublishComplete n b s
  | .snapStart q => Sys2Proof.Machine.execSnapStart q s
  | .snapWait q => Sys2Proof.Machine.execSnapWait q s
  | .snapAbort q => Sys2Proof.Machine.execSnapAbort q s
  | .snapRestore q => Sys2Proof.Machine.execSnapRestore q s
  | .snapSectorSend part frame sector => Sys2Proof.Machine.execSnapSectorSend part frame sector s
  | .snapComplete part => Sys2Proof.Machine.execSnapComplete part s
  | .logJrnCfgWrite n base v o => Sys2Proof.Machine.execLogJrnCfgWrite n base v o s
  | .logJrnStepWrite n v o => Sys2Proof.Machine.execLogJrnStepWrite n v o s
  | .leaNodeWrite v o => Sys2Proof.Machine.execLeaNodeWrite v o s
  | .leaPortCfgWrite n v o => Sys2Proof.Machine.execLeaPortCfgWrite n v o s
  | .leaRetrainRequest n v o => Sys2Proof.Machine.execLeaRetrainRequest n v o s
  | .leatPartnerDetect n devid => Sys2Proof.Machine.execLeatPartnerDetect n devid s
  | .leatTrainingDone n good pgood => Sys2Proof.Machine.execLeatTrainingDone n good pgood s
  | .leatFailedRetry n => Sys2Proof.Machine.execLeatFailedRetry n s
  | .leatDataFlit n bad corr flit => Sys2Proof.Machine.execLeatDataFlit n bad corr flit s
  | .leatNullFlit n bad corr flit => Sys2Proof.Machine.execLeatNullFlit n bad corr flit s
  | .leatReplayReq n bad corr flit => Sys2Proof.Machine.execLeatReplayReq n bad corr flit s
  | .leatReplayReqRepeat n => Sys2Proof.Machine.execLeatReplayReqRepeat n s
  | .leatAckTimeout n => Sys2Proof.Machine.execLeatAckTimeout n s
  | .leatTrainReq n devid width reason good => Sys2Proof.Machine.execLeatTrainReq n devid width reason good s
  | .leatTrainAck n devid width reason good => Sys2Proof.Machine.execLeatTrainAck n devid width reason good s
  | .leatRetrainDone n failed pgood => Sys2Proof.Machine.execLeatRetrainDone n failed pgood s
  | .leatCreditSync n bad corr flit => Sys2Proof.Machine.execLeatCreditSync n bad corr flit s
  | .leatLaneSwap n bad corr flit => Sys2Proof.Machine.execLeatLaneSwap n bad corr flit s
  | .leatLaneSwapAck n bad corr flit => Sys2Proof.Machine.execLeatLaneSwapAck n bad corr flit s
  | .leatLaneSwapApply n => Sys2Proof.Machine.execLeatLaneSwapApply n s
  | .leatIdent n bad corr flit => Sys2Proof.Machine.execLeatIdent n bad corr flit s
  | .leatLinkLost n => Sys2Proof.Machine.execLeatLinkLost n s
  | .leatLaneLockLoss n k => Sys2Proof.Machine.execLeatLaneLockLoss n k s
  | .leatErrorWindow n spares => Sys2Proof.Machine.execLeatErrorWindow n spares s
  | .leatDisableDrainEnd n => Sys2Proof.Machine.execLeatDisableDrainEnd n s
  | .leatRdReq n => Sys2Proof.Machine.execLeatRdReq n s
  | .leatWrReq n => Sys2Proof.Machine.execLeatWrReq n s
  | .leatRdRsp n => Sys2Proof.Machine.execLeatRdRsp n s
  | .leatWrRsp n => Sys2Proof.Machine.execLeatWrRsp n s
  | .leatRspTimeout n tag => Sys2Proof.Machine.execLeatRspTimeout n tag s
  | .leatMgtMsg n => Sys2Proof.Machine.execLeatMgtMsg n s
  | .pcieBar0Read p f va len => Sys2Proof.Machine.execPcieBar0Read p f va len s
  | .pcieBar0Write p f va data => Sys2Proof.Machine.execPcieBar0Write p f va data s
  | .queueDoorbell q v p f => Sys2Proof.Machine.execQueueDoorbell q v p f s
  | .queueCommandFetch q ext => Sys2Proof.Machine.execQueueCommandFetch q ext s
  | .queueIrqTimer q => Sys2Proof.Machine.execQueueIrqTimer q s
  | .hifQCfgWrite q k v o => Sys2Proof.Machine.execHifQCfgWrite q k v o s
  | .hifCconsWrite q v o => Sys2Proof.Machine.execHifCconsWrite q v o s
  | .hifFnCfgWrite p f v o => Sys2Proof.Machine.execHifFnCfgWrite p f v o s
  | .pcieFlr p f => Sys2Proof.Machine.execPcieFlr p f s
  | .pcieLinkDown p lost => Sys2Proof.Machine.execPcieLinkDown p lost s
  | .hostReadCompletion tag ok data => Sys2Proof.Machine.execHostReadCompletion tag ok data s
  | .hostReadTimeout tag => Sys2Proof.Machine.execHostReadTimeout tag s
  | .hflush t w => Sys2Proof.Machine.execHflush t w s
  | .hflushReadReturn tag => Sys2Proof.Machine.execHflushReadReturn tag s
  | .mbxInboundWrite p f m off data => Sys2Proof.Machine.execMbxInboundWrite p f m off data s
  | .mbxRecv t w => Sys2Proof.Machine.execMbxRecv t w s
  | .mbxSend t w => Sys2Proof.Machine.execMbxSend t w s
  | .mbxCount t w => Sys2Proof.Machine.execMbxCount t w s
  | .mbxOutboundDeliver t k => Sys2Proof.Machine.execMbxOutboundDeliver t k s
  | .mbxConsumedWrite p f m v => Sys2Proof.Machine.execMbxConsumedWrite p f m v s
  | .mbxCfgWrite t k out v o => Sys2Proof.Machine.execMbxCfgWrite t k out v o s
  | .ethPortCfgWrite n v o => Sys2Proof.Machine.execEthPortCfgWrite n v o s
  | .ethFrameReceive n frame => Sys2Proof.Machine.execEthFrameReceive n frame s
  | .rdmaQpSet q => Sys2Proof.Machine.execRdmaQpSet q s
  | .rdmaQpDestroy q => Sys2Proof.Machine.execRdmaQpDestroy q s
  | .rdmaMrReg q => Sys2Proof.Machine.execRdmaMrReg q s
  | .rdmaMrDereg q => Sys2Proof.Machine.execRdmaMrDereg q s
  | .rdmaSend q ext => Sys2Proof.Machine.execRdmaSend q ext s
  | .rdmaSendImm q ext => Sys2Proof.Machine.execRdmaSendImm q ext s
  | .rdmaWrite q ext => Sys2Proof.Machine.execRdmaWrite q ext s
  | .rdmaWriteImm q ext => Sys2Proof.Machine.execRdmaWriteImm q ext s
  | .rdmaRead q => Sys2Proof.Machine.execRdmaRead q s
  | .rawSend q ext => Sys2Proof.Machine.execRawSend q ext s
  | .rdmaRecvPost q => Sys2Proof.Machine.execRdmaRecvPost q s
  | .rdmaInboundRead n psn key va len => Sys2Proof.Machine.execRdmaInboundRead n psn key va len s
  | .rdmaInboundWrite n psn key va data imm => Sys2Proof.Machine.execRdmaInboundWrite n psn key va data imm s
  | .rdmaInboundSend n psn data imm => Sys2Proof.Machine.execRdmaInboundSend n psn data imm s
  | .rdmaResponseReceive n kind psn data => Sys2Proof.Machine.execRdmaResponseReceive n kind psn data s
  | .rdmaRnrRetry n => Sys2Proof.Machine.execRdmaRnrRetry n s
  | .rdmaRetransmitTimeout n => Sys2Proof.Machine.execRdmaRetransmitTimeout n s
  | .spkUdResend => Sys2Proof.Machine.execSpkUdResend s
  | .ptpMessageReceive n err => Sys2Proof.Machine.execPtpMessageReceive n err s
  | .glbPtpCfgWrite v o => Sys2Proof.Machine.execGlbPtpCfgWrite v o s
  | .ppsPulse => Sys2Proof.Machine.execPpsPulse s
  | .hifMrDoorbell r v o => Sys2Proof.Machine.execHifMrDoorbell r v o s
  | .hifMrCfgWrite r k v o => Sys2Proof.Machine.execHifMrCfgWrite r k v o s
  | .medOpen r k => Sys2Proof.Machine.execMedOpen r k s
  | .medDecode r k us tail bs out => Sys2Proof.Machine.execMedDecode r k us tail bs out s
  | .medEncode r k cs src out cons => Sys2Proof.Machine.execMedEncode r k cs src out cons s
  | .sliceFallbackEntry num cons => Sys2Proof.Machine.execSliceFallbackEntry num cons s
  | .medClose r k => Sys2Proof.Machine.execMedClose r k s
  | .medJobComplete r k => Sys2Proof.Machine.execMedJobComplete r k s
  | .medEngineFault d eng die => Sys2Proof.Machine.execMedEngineFault d eng die s
  | .coldResetRelease b => Sys2Proof.Machine.execColdResetRelease b s
  | .warmRestart v us o b => Sys2Proof.Machine.execWarmRestart v us o b s
  | .fwBegin len o => Sys2Proof.Machine.execFwBegin len o s
  | .fwChunk len o => Sys2Proof.Machine.execFwChunk len o s
  | .fwCommit len o => Sys2Proof.Machine.execFwCommit len o s
  | .fwAbort len o => Sys2Proof.Machine.execFwAbort len o s
  | .licAdd len o => Sys2Proof.Machine.execLicAdd len o s
  | .defectClear len o => Sys2Proof.Machine.execDefectClear len o s
  | .fwRead len o => Sys2Proof.Machine.execFwRead len o s
  | .fwOpComplete flashOk => Sys2Proof.Machine.execFwOpComplete flashOk s
  | .hgtPartCfgWrite n v o => Sys2Proof.Machine.execHgtPartCfgWrite n v o s
  | .hgtPartTilesWrite n v o => Sys2Proof.Machine.execHgtPartTilesWrite n v o s
  | .hgtGranuleWrite board g v o => Sys2Proof.Machine.execHgtGranuleWrite board g v o s
  | .granuleChangeDone => Sys2Proof.Machine.execGranuleChangeDone s
  | .hgtFrzRel v o => Sys2Proof.Machine.execHgtFrzRel v o s
  | .share v o => Sys2Proof.Machine.execShare v o s
  | .unshare v o => Sys2Proof.Machine.execUnshare v o s
  | .memoryChannelLoss board k => Sys2Proof.Machine.execMemoryChannelLoss board k s
  | .tileFault t spareOk lost => Sys2Proof.Machine.execTileFault t spareOk lost s
  | .ditchriderTakeover failed => Sys2Proof.Machine.execDitchriderTakeover failed s
  | .logAckWrite v o => Sys2Proof.Machine.execLogAckWrite v o s
  | .logCfgWrite v o => Sys2Proof.Machine.execLogCfgWrite v o s
  | .perfWrapService off => Sys2Proof.Machine.execPerfWrapService off s
  | .pwrgdAssert => Sys2Proof.Machine.execPwrgdAssert s
  | .pwrgdLoss us => Sys2Proof.Machine.execPwrgdLoss us s
  | .coldResetAssert us => Sys2Proof.Machine.execColdResetAssert us s
  | .powerBrakeAssert us => Sys2Proof.Machine.execPowerBrakeAssert us s
  | .powerBrakeRelease us => Sys2Proof.Machine.execPowerBrakeRelease us s
  | .clampTrigger samples => Sys2Proof.Machine.execClampTrigger samples s
  | .powerPeriodUpdate now => Sys2Proof.Machine.execPowerPeriodUpdate now s
  | .monitorCalibration => Sys2Proof.Machine.execMonitorCalibration s
  | .dieTempRead k tj => Sys2Proof.Machine.execDieTempRead k tj s
  | .dieTempCeilingUpdate d => Sys2Proof.Machine.execDieTempCeilingUpdate d s
  | .protectionEnd => Sys2Proof.Machine.execProtectionEnd s
  | .thmPwrCfgWrite v o => Sys2Proof.Machine.execThmPwrCfgWrite v o s
  | .sbReadRequest off pec => Sys2Proof.Machine.execSbReadRequest off pec s
  | .sbWriteRequest off v pec => Sys2Proof.Machine.execSbWriteRequest off v pec s
  | .sbResultRead pec => Sys2Proof.Machine.execSbResultRead pec s
  | .standbyPowerUp strap => Sys2Proof.Machine.execStandbyPowerUp strap s
  | .ptmResponseReceive p err => Sys2Proof.Machine.execPtmResponseReceive p err s
  | .smbusAlertResponse => Sys2Proof.Machine.execSmbusAlertResponse s
  | .mediaJobFetch r ext => Sys2Proof.Machine.execMediaJobFetch r ext s

end Sys2Proof.Machine
end

