-- ==== Sys2Proof/Machine/Step.lean ====
section
/-! DEFINITION. One step: the command at the front of the queue, or, on an empty queue, the passing of time. -/

namespace Sys2Proof.Machine

/-- A nanosecond passes (R697): device time advances, and every leat port whose flit period has come sends (R481, R489). While
cold reset is asserted device time stands still. -/
def State.idle (s : State) : State := if s.pins.cold then s else { s with time := s.time + 1 }.leaTick

/-- A step: the effect of the command at the front of the queue on the state with the rest of the queue; with none waiting, a
nanosecond passes. -/
def step (s : State) : Host.Outcome State Fault Refusal :=
  match s.pending with
  | [] => .next s.idle
  | c :: rest => exec c { s with pending := rest }

/-- A word spells no command (`decodeTableWord`), so there is none to put at the front of the queue. -/
def State.withFetchWord (s : State) (nbits w : Nat) : State :=
  match decodeTableWord nbits w with
  | none => s
  | some c => { s with pending := c :: s.pending }

end Sys2Proof.Machine
end

