-- ==== Sys2Proof/Safety.lean ====
section
/-! DEFINITION. The terms claims are stated in: when a tile issues an instruction at once and with what, canonical
storage, bytes that may be read or written, what a command queue holds ready, and the parts of the state that a command
leaves alone. -/

namespace Sys2Proof.Machine

/-! ### Issue -/

/-- Tile `t` issues an instruction of opcode `opc` and runs it at once (R83, R92 to R95, R103, R219): a kernel runs; the
word is a defined encoding; no loop is exhausted and no rerun is due; the program counter is within the code; no outstanding
instruction conflicts; the instruction is enabled, or its lanes decide for themselves; and its queue has room and nothing
waiting. -/
def State.canIssue (s : State) (t opc : Nat) (w : IWord) (x : W64) : Bool :=
  kzDefined opc w x &&
  match (s.tile t).running with
  | none => false
  | some (r, k) =>
    let tl := s.tile t
    let ctx := tl.ctx r.ctx
    let es := spGet dQueue tl.queues (kzQueue opc)
    !ctx.loopOver && !ctx.blk.due && decide (ctx.pc < k.codeBytes) &&
    !(tl.outstanding.any fun e => usesConflict (kzUses opc w x) e.uses) && (kzLanewise opc || ctx.enabled w) &&
    (decide (5 ≤ kzQueue opc) || (decide (es.length < queueDepth (kzQueue opc)) && (headWaiting es).isNone))

/-- The tile as an instruction finds it when it issues: it is numbered, and an instruction of the system queue makes the rerun
of an open block unsafe (R220). -/
def State.issuing (s : State) (t : Nat) (r : Run) (opc : Nat) : Tile :=
  let tl := s.tile t
  { tl.setCtx r.ctx ((tl.ctx r.ctx).mark (kzQueue opc == 4)) with issued := tl.issued + 1 }

/-- The running kernel as an instruction that issues sees it. -/
def State.seen (s : State) (t : Nat) (r : Run) (k : LKernel) (opc : Nat) (w : IWord) : Kx :=
  { t := t, c := r.ctx, k := k, samp := (s.tile t).sample r.ctx opc w, got := [], seq := (s.tile t).issued, now := s.time
    t0 := r.t0, mhz := tileMhz s t }

/-- The state after an instruction that leaves tile `t` as `tl`, the program counter moved past it (R103). -/
def State.went (s : State) (t : Nat) (r : Run) (opc : Nat) (w : IWord) (tl : Tile) : State :=
  s.setTile t (tl.advance r.ctx (instrLen opc w))

/-- The queue entry of an instruction that issues. -/
def State.entry (s : State) (t : Nat) (r : Run) (i : Instr) (opc : Nat) (w : IWord) (x : W64) : QEntry :=
  { instr := i, seq := (s.tile t).issued, uses := kzUses opc w x, samp := (s.tile t).sample r.ctx opc w, started := false, ref := 0
    got := [] }

/-! ### Bytes of the cistern -/

/-- `n` bytes at a kernel offset lie in the kernel's allocation, and none of their words is poisoned (R102, R308). -/
def readable (tl : Tile) (k : LKernel) (off n : Nat) : Bool :=
  decide (off + n ≤ k.cisBytes) && (badWords tl (k.cisOff + off) n == [])

/-- Every piece of a list of stores lies in the kernel's allocation (R102). -/
def inside (k : LKernel) (sts : List (Nat × List Byte)) : Bool :=
  sts.all fun p => decide (p.1 + p.2.length ≤ k.cisBytes)

/-- The tile after the stores of a list, in order. -/
def storeAll (k : LKernel) (sts : List (Nat × List Byte)) (tl : Tile) : Tile :=
  sts.foldl (fun tl p => tl.cisPut (k.cisOff + p.1) p.2) tl

/-! ### Commands of the device -/

/-- A part of a command's effect answers `a` and leaves the state `s'`. -/
@[reducible] def Dev.gives {α : Type} (m : Dev α) (s : State) (a : α) (s' : State) : Prop := m.go s = (.ok a, s')

/-- A register write reaches its register, from an origin that no freeze mutes (R624, R629, R674). -/
def State.heard (s : State) (o : Origin) (off : Nat) : Bool := s.reaches o off && !s.mute o

/-- The state with an accepted register write in the change log (R698). -/
def State.noted (s : State) (o : Origin) (off v : Nat) : State := s.logRec 1 o 0 off v

/-- The state with a WO register's shadow at the value last written (R746). -/
def State.shadowing (s : State) (off v : Nat) : State := { s with shadow := spSet dW64 s.shadow off (BitVec.ofNat 64 v) }

/-- The state with a register at a value. -/
def State.putAt (s : State) (off v : Nat) : State := s.setReg off (BitVec.ofNat 64 v)

/-! ### Flits -/

/-- The trailer of a flit (R488). -/
def flitTrailer (flit : List Byte) : Nat := leNat (flit.drop 2560)

/-- A flit that arrived without an uncorrectable codeword is accepted: its length, CRC and FTYPE are right (R488, R491). -/
def flitOk (flit : List Byte) : Bool :=
  let t := flitTrailer flit
  flit.length == 2570 && fld t 79 48 == crc32c (flit.take 2560 ++ leBytes 6 t) && fld t 1 0 != 3

/-- A port's counters after a flit has come in with `bad` uncorrectable codewords and `corr` corrected symbols on its lanes (R487,
R515). -/
def State.flitCounted (s : State) (n bad : Nat) (corr : List Nat) : State :=
  let s := ((List.range 5).foldl (fun s k => s.count (leatReg n (0x180 + 8 * k)) (corr.getD k 0)) s).count (leaErr n 1) bad
  let p := s.lport n
  s.setLport n { p with corr := (List.range 5).map (fun k => p.corr.getD k 0 + corr.getD k 0), uncorr := p.uncorr + bad }

/-- A port's state when it takes the contents of an accepted flit. -/
def State.flitIn (s : State) (n : Nat) (corr : List Nat) : State :=
  let s := s.flitCounted n 0 corr
  s.setLport n { s.lport n with lastFlit := s.time }

/-- A port's state after it has taken the ACK and the credit report of a trailer (R503, R508). -/
def State.trailed (s : State) (n t : Nat) : State := s.setLport n ((s.lport n).trailer t s.time)

/-! ### Canonical storage -/

/-- A context whose register files are in canonical form. -/
def Ctx.wf (x : Ctx) : Bool := spWf dW64 x.s && spWf dW64 x.a && spWf dPred x.p && spWf dTDesc x.td && spWf dOsm x.osm

/-- A tile whose registers and memories are in canonical form. -/
def Tile.wf (tl : Tile) : Bool :=
  spWf dW64 tl.regs && spWf dCtx tl.ctxs && spWf dW32 tl.v && spWf dW32 tl.acc && spWf dW64 tl.st && spWf dByte tl.cis &&
  spWf dBool tl.bad && spWf dBool tl.soft && spWf dByte tl.code && spWf dSfu tl.sfu && spWf dChan tl.chans &&
  spWf dCrumb tl.crumbs && spWf dSlc tl.slc && spWf dQueue tl.queues && spWf dInbox tl.inbox && spWf dW64 tl.latch &&
  spWf dByte tl.scratch && tl.ctxs.all fun e => e.2.wf

end Sys2Proof.Machine
end

