-- ==== Sys2Proof/WellFormed.lean ====
section
/-! DEFINITION. Well-formed commands: the numbers they carry name something the NT4 has, instruction words are defined
encodings, register writes come from a kind of writer that the change log knows, and a hub request stays within one line. -/

namespace Sys2Proof

/-- What a number of a command counts or names. -/
inductive Num where
  /-- A tile number (R20). -/
  | tile
  /-- A hub (R15). -/
  | hub
  /-- A PCIe or Ethernet port (R537, R567). -/
  | port
  /-- A function of a PCIe port (R538). -/
  | fn
  /-- A command queue (R544). -/
  | queue
  /-- A command queue, or a media ring from 8,192 on (R544, R586). -/
  | anyQueue
  /-- A leat port (R16). -/
  | leat
  /-- A lane of a leat port (R481). -/
  | lane
  /-- An address space (R346). -/
  | space
  /-- A partition (R665). -/
  | part
  /-- A communicator (R385). -/
  | comm
  /-- A KV pool (R234). -/
  | pool
  /-- A media ring (R586). -/
  | ring
  /-- A flume channel (R258). -/
  | chan
  /-- A stack site (R15). -/
  | site
  /-- A compute die (R20). -/
  | die
  /-- A die of the package (R662). -/
  | dies
  /-- A tidy core (R111). -/
  | core
  /-- One of two. -/
  | two
  /-- One of four. -/
  | four
  /-- One of eight. -/
  | eight
  /-- A value of 4 bits. -/
  | w4
  /-- A value of 6 bits. -/
  | w6
  /-- A value of 8 bits. -/
  | w8
  /-- A value of 16 bits. -/
  | w16
  /-- A value of 24 bits. -/
  | w24
  /-- A queue pair number (R570). -/
  | qpn
  /-- A value of 32 bits. -/
  | w32
  /-- A value of 64 bits. -/
  | w64
  deriving DecidableEq, Repr

/-- How many values a number of a kind has. -/
def Num.bound : Num → Nat
  | .tile => 64
  | .hub => 4
  | .port => 4
  | .fn => 64
  | .queue => 8192
  | .anyQueue => 8224
  | .leat => 16
  | .lane => 5
  | .space => 64
  | .part => 8
  | .comm => 64
  | .pool => 64
  | .ring => 32
  | .chan => 32
  | .site => 12
  | .die => 16
  | .dies => 40
  | .core => 4
  | .two => 2
  | .four => 4
  | .eight => 8
  | .w4 => 16
  | .w6 => 64
  | .w8 => 2 ^ 8
  | .w16 => 2 ^ 16
  | .w24 => 2 ^ 24
  | .qpn => 2 ^ 24
  | .w32 => 2 ^ 32
  | .w64 => 2 ^ 64

/-- One thing to check of a command. -/
inductive Check where
  /-- A number is in range. -/
  | num (k : Num) (n : Nat)
  /-- An instruction's words are a defined encoding of a major opcode (R83, R89). -/
  | word (opc : Nat) (w : IWord) (x : W64)
  /-- FN is the one of the row. -/
  | sub (fn : Nat) (w : IWord)
  /-- A register's writer: ORIGIN, partition, port and identity of R699. -/
  | origin (o : Origin)
  /-- A hub request lies within one line, and a write carries its bytes (R285). -/
  | line (r : HubReq)
  deriving DecidableEq, Repr

/-- Whether a check holds. -/
def Check.ok : Check → Bool
  | .num k n => decide (n < k.bound)
  | .word opc w x => kzDefined opc w x
  | .sub fn w => w.fn.toNat == fn
  | .origin o => decide (o.cls ≤ 4) && decide (o.part < 256) && decide (o.port < 256) && decide (o.id < 65536)
  | .line r => decide (1 ≤ r.len) && decide (r.addr % 256 + r.len ≤ 256) && (!r.write || r.data.length == r.len)

/-- What is checked of each command. -/
def Instr.checks (i : Instr) : List Check :=
  match i with
  | .nop t w => [.num .tile t, .word 0x00 w 0]
  | .alu t w => [.num .tile t, .word 0x01 w 0]
  | .alui t w => [.num .tile t, .word 0x02 w 0]
  | .li t w x => [.num .tile t, .word 0x03 w x]
  | .cmp t w => [.num .tile t, .word 0x04 w 0]
  | .pop t w => [.num .tile t, .word 0x05 w 0]
  | .br t w => [.num .tile t, .word 0x06 w 0]
  | .brr t w => [.num .tile t, .word 0x07 w 0]
  | .loop t w => [.num .tile t, .word 0x08 w 0]
  | .loopEnd t => [.num .tile t]
  | .fpu t w => [.num .tile t, .word 0x09 w 0]
  | .waitq t w => [.num .tile t, .word 0x0A w 0]
  | .fence t w => [.num .tile t, .word 0x0B w 0]
  | .kend t w => [.num .tile t, .word 0x0C w 0]
  | .rdsr t w => [.num .tile t, .word 0x0D w 0]
  | .wrsr t w => [.num .tile t, .word 0x0E w 0]
  | .lds t w => [.num .tile t, .word 0x10 w 0]
  | .sts t w => [.num .tile t, .word 0x11 w 0]
  | .adda t w => [.num .tile t, .word 0x12 w 0]
  | .mova t w => [.num .tile t, .word 0x13 w 0]
  | .tdld t w => [.num .tile t, .word 0x14 w 0]
  | .tdst t w => [.num .tile t, .word 0x15 w 0]
  | .tdset t w => [.num .tile t, .word 0x16 w 0]
  | .tdget t w => [.num .tile t, .word 0x17 w 0]
  | .trecv t w => [.num .tile t, .word 0x76 w 0]
  | .tsig t w => [.num .tile t, .word 0x75 w 0]
  | .mmac t w x => [.num .tile t, .word 0x20 w x]
  | .mzero t w => [.num .tile t, .word 0x21 w 0]
  | .mdrain t w x => [.num .tile t, .word 0x22 w x]
  | .mpad t w => [.num .tile t, .word 0x23 w 0]
  | .mlen t w => [.num .tile t, .word 0x24 w 0]
  | .vop t w => [.num .tile t, .word 0x30 w 0]
  | .vopb t w => [.num .tile t, .word 0x31 w 0]
  | .vcmp t w => [.num .tile t, .word 0x32 w 0]
  | .vcvt t w => [.num .tile t, .word 0x33 w 0]
  | .vld t w => [.num .tile t, .word 0x34 w 0]
  | .vst t w => [.num .tile t, .word 0x35 w 0]
  | .vred t w => [.num .tile t, .word 0x36 w 0]
  | .qblk t w x => [.num .tile t, .word 0x37 w x]
  | .vwid t w x => [.num .tile t, .word 0x38 w x]
  | .vperm t w => [.num .tile t, .word 0x39 w 0]
  | .vbcast t w => [.num .tile t, .word 0x3A w 0]
  | .vacc t w => [.num .tile t, .word 0x3B w 0]
  | .sfn t w => [.num .tile t, .word 0x40 w 0]
  | .stab t w => [.num .tile t, .word 0x41 w 0]
  | .fcfg t w => [.num .tile t, .word 0x60 w 0]
  | .fgo t w => [.num .tile t, .word 0x61 w 0]
  | .fwait t w => [.num .tile t, .word 0x62 w 0]
  | .fstop t w => [.num .tile t, .word 0x63 w 0]
  | .frel t w => [.num .tile t, .word 0x65 w 0]
  | .crbRead t w x => [.num .tile t, .word 0x64 w x, .sub 0 w]
  | .crbWrite t w x => [.num .tile t, .word 0x64 w x, .sub 1 w]
  | .crbWriteImmediate t w x => [.num .tile t, .word 0x64 w x, .sub 2 w]
  | .osmn t w => [.num .tile t, .word 0x54 w 0]
  | .osmx t w => [.num .tile t, .word 0x50 w 0]
  | .osme t w x => [.num .tile t, .word 0x51 w x]
  | .osms t w x => [.num .tile t, .word 0x52 w x]
  | .osmcCorr t w => [.num .tile t, .word 0x53 w 0, .sub 0 w]
  | .osmcFin t w => [.num .tile t, .word 0x53 w 0, .sub 1 w]
  | .osmRerun t => [.num .tile t]
  | .osmcMerge t w => [.num .tile t, .word 0x53 w 0, .sub 2 w]
  | .osmcSave t w => [.num .tile t, .word 0x53 w 0, .sub 3 w]
  | .osmcLoad t w => [.num .tile t, .word 0x53 w 0, .sub 4 w]
  | .osmvAccum t w x => [.num .tile t, .word 0x56 w x, .sub 0 w]
  | .osmvDecide t w x => [.num .tile t, .word 0x56 w x, .sub 1 w]
  | .osmbProb t w x => [.num .tile t, .word 0x55 w x, .sub 0 w]
  | .osmbDscore t w x => [.num .tile t, .word 0x55 w x, .sub 1 w]
  | .kvw t w x => [.num .tile t, .word 0x57 w x]
  | .kvt t w x => [.num .tile t, .word 0x58 w x]
  | .kvOpen q => [.num .queue q]
  | .kvReserve q => [.num .queue q]
  | .kvUnreserve q => [.num .queue q]
  | .kvClose q => [.num .queue q]
  | .kvpPoolCfgWrite n i v o => [.num .pool n, .num .four i, .num .w64 v, .origin o]
  | .flumeRequestGrant t => [.num .tile t]
  | .addressWalk t tag => [.num .tile t, .num .w32 tag]
  | .flumeReadResponse t tag => [.num .tile t, .num .w32 tag]
  | .flumeWriteAck t tag => [.num .tile t, .num .w32 tag]
  | .flumeSlotReclaim t n slot => [.num .tile t, .num .chan n, .num .eight slot]
  | .tidyPost t core k _ => [.num .tile t, .num .core core, .num .four k]
  | .tidyInboxRead t core _ => [.num .tile t, .num .core core]
  | .tidyCisternAccess t core _ _ _ => [.num .tile t, .num .core core]
  | .cisEccWriteback t _ => [.num .tile t]
  | .cisScrub t _ => [.num .tile t]
  | .hubReadRequest r => [.line r]
  | .hubWriteRequest r => [.line r]
  | .hbmRefresh site pch _ => [.num .site site, .num .w6 pch]
  | .hbmRefreshManagement site pch _ => [.num .site site, .num .w6 pch]
  | .mscMaintWriteback h _ o => [.num .hub h, .origin o]
  | .mscMaintInvalidate h _ o => [.num .hub h, .origin o]
  | .mscMaintDone h => [.num .hub h]
  | .weirRefill h => [.num .hub h]
  | .weirCfgWrite h set p v o => [.num .hub h, .num .two set, .num .part p, .num .w64 v, .origin o]
  | .hgtAsCfgWrite n v o => [.num .space n, .num .w64 v, .origin o]
  | .hgtVselWrite n v o => [.num .space n, .num .w64 v, .origin o]
  | .vselFlipDone n => [.num .space n]
  | .hgtInvalWrite n v o => [.num .space n, .num .w64 v, .origin o]
  | .invalidationDone n => [.num .space n]
  | .migMove q => [.num .queue q]
  | .migMoveDone _ => []
  | .migFree q => [.num .queue q]
  | .migMirror q => [.num .queue q]
  | .migUnmirror q => [.num .queue q]
  | .migAttr q => [.num .queue q]
  | .migScan q => [.num .queue q]
  | .upd t w x => [.num .tile t, .word 0x77 w x]
  | .upds t w x => [.num .tile t, .word 0x78 w x]
  | .slc t w x => [.num .tile t, .word 0x70 w x]
  | .slcw t w x => [.num .tile t, .word 0x71 w x]
  | .slcPost q => [.num .queue q]
  | .slcCommWrite n v o => [.num .comm n, .num .w64 v, .origin o]
  | .sluicePacketReceive _ => []
  | .slcOpComplete comm tag step _ => [.num .comm comm, .num .w32 tag, .num .w32 step]
  | .slcDeadlineExpiry comm tag step _ => [.num .comm comm, .num .w32 tag, .num .w32 step]
  | .sluiceSlotReclaim t slot i => [.num .tile t, .num .w4 slot, .num .eight i]
  | .spkPost t w x => [.num .tile t, .word 0x72 w x, .sub 0 w]
  | .spkWait t w x => [.num .tile t, .word 0x72 w x, .sub 1 w]
  | .sprinkleMessageReceive _ => []
  | .spkLeaderTimeout comm slot epoch => [.num .comm comm, .num .eight slot, .num .w16 epoch]
  | .spkMemberTimeout t comm slot epoch => [.num .tile t, .num .comm comm, .num .eight slot, .num .w16 epoch]
  | .lateJoinReceive _ => []
  | .lateDecisionDeadline comm tag step => [.num .comm comm, .num .w32 tag, .num .w32 step]
  | .lateDecisionReceive _ => []
  | .slcLateCfgWrite n v o => [.num .comm n, .num .w64 v, .origin o]
  | .lbkQuery t w x => [.num .tile t, .word 0x79 w x, .sub 0 w]
  | .lbkFlush t w x => [.num .tile t, .word 0x79 w x, .sub 1 w]
  | .jrn t w x => [.num .tile t, .word 0x7A w x]
  | .publish q => [.num .queue q]
  | .publishComplete n b => [.num .space n, .num .w6 b]
  | .snapStart q => [.num .queue q]
  | .snapWait q => [.num .queue q]
  | .snapAbort q => [.num .queue q]
  | .snapRestore q => [.num .queue q]
  | .snapSectorSend part _ sector => [.num .part part, .num .w4 sector]
  | .snapComplete part => [.num .part part]
  | .logJrnCfgWrite n _ v o => [.num .part n, .num .w64 v, .origin o]
  | .logJrnStepWrite n v o => [.num .part n, .num .w64 v, .origin o]
  | .launch q => [.num .queue q]
  | .launchStart _ _ => []
  | .launchComplete _ => []
  | .watchdogExpiry _ => []
  | .load q _ => [.num .queue q]
  | .unload q => [.num .queue q]
  | .ctxSwitch q => [.num .queue q]
  | .ctxSwitchEffect t => [.num .tile t]
  | .ctxSwitchFinish t => [.num .tile t]
  | .hookTimeout t => [.num .tile t]
  | .seqCtxCfgWrite t c v o => [.num .tile t, .num .four c, .num .w64 v, .origin o]
  | .tilCtxAsWrite t v o => [.num .tile t, .num .w64 v, .origin o]
  | .pcieBar0Read p f va _ => [.num .port p, .num .fn f, .num .w64 va]
  | .pcieBar0Write p f va _ => [.num .port p, .num .fn f, .num .w64 va]
  | .pcieFlr p f => [.num .port p, .num .fn f]
  | .pcieLinkDown p _ => [.num .port p]
  | .hostReadCompletion tag _ _ => [.num .w32 tag]
  | .hostReadTimeout tag => [.num .w32 tag]
  | .hflush t w => [.num .tile t, .word 0x74 w 0]
  | .hflushReadReturn tag => [.num .w32 tag]
  | .queueDoorbell q v p f => [.num .queue q, .num .w64 v, .num .port p, .num .fn f]
  | .queueCommandFetch q _ => [.num .queue q]
  | .queueIrqTimer q => [.num .anyQueue q]
  | .hifQCfgWrite q k v o => [.num .queue q, .num .four k, .num .w64 v, .origin o]
  | .hifCconsWrite q v o => [.num .anyQueue q, .num .w64 v, .origin o]
  | .hifFnCfgWrite p f v o => [.num .port p, .num .fn f, .num .w64 v, .origin o]
  | .mbxInboundWrite p f _ off _ => [.num .port p, .num .fn f, .num .w32 off]
  | .mbxRecv t w => [.num .tile t, .word 0x73 w 0, .sub 0 w]
  | .mbxSend t w => [.num .tile t, .word 0x73 w 0, .sub 1 w]
  | .mbxCount t w => [.num .tile t, .word 0x73 w 0, .sub 2 w]
  | .mbxOutboundDeliver t k => [.num .tile t, .num .w4 k]
  | .mbxConsumedWrite p f _ v => [.num .port p, .num .fn f, .num .w64 v]
  | .mbxCfgWrite t k _ v o => [.num .tile t, .num .w4 k, .num .w64 v, .origin o]
  | .ethPortCfgWrite n v o => [.num .port n, .num .w64 v, .origin o]
  | .ethFrameReceive n _ => [.num .port n]
  | .rdmaQpSet q => [.num .queue q]
  | .rdmaQpDestroy q => [.num .queue q]
  | .rdmaMrReg q => [.num .queue q]
  | .rdmaMrDereg q => [.num .queue q]
  | .rdmaSend q _ => [.num .queue q]
  | .rdmaSendImm q _ => [.num .queue q]
  | .rdmaWrite q _ => [.num .queue q]
  | .rdmaWriteImm q _ => [.num .queue q]
  | .rdmaRead q => [.num .queue q]
  | .rawSend q _ => [.num .queue q]
  | .rdmaRecvPost q => [.num .queue q]
  | .rdmaInboundRead n psn key va len => [.num .qpn n, .num .w24 psn, .num .w32 key, .num .w64 va, .num .w32 len]
  | .rdmaInboundWrite n psn key va _ _ => [.num .qpn n, .num .w24 psn, .num .w32 key, .num .w64 va]
  | .rdmaInboundSend n psn _ _ => [.num .qpn n, .num .w24 psn]
  | .rdmaResponseReceive n kind psn _ => [.num .qpn n, .num .w8 kind, .num .w24 psn]
  | .rdmaRnrRetry n => [.num .qpn n]
  | .rdmaRetransmitTimeout n => [.num .qpn n]
  | .spkUdResend => []
  | .glbPtpCfgWrite v o => [.num .w64 v, .origin o]
  | .ptpMessageReceive n _ => [.num .port n]
  | .ptmResponseReceive p _ => [.num .port p]
  | .registerWrite off _ v o => [.num .w32 off, .num .w64 v, .origin o]
  | .stackTempRead site _ => [.num .site site]
  | .leaNodeWrite v o => [.num .w64 v, .origin o]
  | .leaPortCfgWrite n v o => [.num .leat n, .num .w64 v, .origin o]
  | .leaRetrainRequest n v o => [.num .leat n, .num .w64 v, .origin o]
  | .leatPartnerDetect n _ => [.num .leat n]
  | .leatTrainingDone n _ _ => [.num .leat n]
  | .leatFailedRetry n => [.num .leat n]
  | .leatDataFlit n _ _ _ => [.num .leat n]
  | .leatNullFlit n _ _ _ => [.num .leat n]
  | .leatReplayReq n _ _ _ => [.num .leat n]
  | .leatReplayReqRepeat n => [.num .leat n]
  | .leatAckTimeout n => [.num .leat n]
  | .leatTrainReq n _ _ _ _ => [.num .leat n]
  | .leatTrainAck n _ _ _ _ => [.num .leat n]
  | .leatRetrainDone n _ _ => [.num .leat n]
  | .leatCreditSync n _ _ _ => [.num .leat n]
  | .leatLaneSwap n _ _ _ => [.num .leat n]
  | .leatLaneSwapAck n _ _ _ => [.num .leat n]
  | .leatLaneSwapApply n => [.num .leat n]
  | .leatIdent n _ _ _ => [.num .leat n]
  | .leatLinkLost n => [.num .leat n]
  | .leatLaneLockLoss n k => [.num .leat n, .num .lane k]
  | .leatErrorWindow n _ => [.num .leat n]
  | .leatDisableDrainEnd n => [.num .leat n]
  | .leatRdReq n => [.num .leat n]
  | .leatWrReq n => [.num .leat n]
  | .leatRdRsp n => [.num .leat n]
  | .leatWrRsp n => [.num .leat n]
  | .leatRspTimeout n tag => [.num .leat n, .num .w32 tag]
  | .leatMgtMsg n => [.num .leat n]
  | .ppsPulse => []
  | .hifMrDoorbell r v o => [.num .ring r, .num .w64 v, .origin o]
  | .hifMrCfgWrite r k v o => [.num .ring r, .num .four k, .num .w64 v, .origin o]
  | .medOpen r _ => [.num .ring r]
  | .medDecode r _ _ _ _ _ => [.num .ring r]
  | .medEncode r _ _ _ _ _ => [.num .ring r]
  | .sliceFallbackEntry _ _ => []
  | .medClose r _ => [.num .ring r]
  | .medJobComplete r _ => [.num .ring r]
  | .medEngineFault d _ _ => [.num .two d]
  | .coldResetRelease _ => []
  | .warmRestart _ _ o _ => [.origin o]
  | .fwBegin len o => [.num .w32 len, .origin o]
  | .fwChunk len o => [.num .w32 len, .origin o]
  | .fwCommit len o => [.num .w32 len, .origin o]
  | .fwAbort len o => [.num .w32 len, .origin o]
  | .licAdd len o => [.num .w32 len, .origin o]
  | .defectClear len o => [.num .w32 len, .origin o]
  | .fwRead len o => [.num .w32 len, .origin o]
  | .fwOpComplete _ => []
  | .hgtPartCfgWrite n v o => [.num .part n, .num .w64 v, .origin o]
  | .hgtPartTilesWrite n v o => [.num .part n, .num .w64 v, .origin o]
  | .hgtGranuleWrite _ _ v o => [.num .w64 v, .origin o]
  | .granuleChangeDone => []
  | .hgtFrzRel v o => [.num .w64 v, .origin o]
  | .share v o => [.num .w64 v, .origin o]
  | .unshare v o => [.num .w64 v, .origin o]
  | .memoryChannelLoss _ _ => []
  | .tileFault t _ _ => [.num .tile t]
  | .ditchriderTakeover _ => []
  | .logAckWrite v o => [.num .w64 v, .origin o]
  | .logCfgWrite v o => [.num .w64 v, .origin o]
  | .perfWrapService off => [.num .w32 off]
  | .pwrgdAssert => []
  | .pwrgdLoss _ => []
  | .coldResetAssert _ => []
  | .powerBrakeAssert _ => []
  | .powerBrakeRelease _ => []
  | .clampTrigger _ => []
  | .powerPeriodUpdate _ => []
  | .monitorCalibration => []
  | .dieTempRead i _ => [.num .dies i]
  | .dieTempCeilingUpdate d => [.num .die d]
  | .protectionEnd => []
  | .thmPwrCfgWrite v o => [.num .w64 v, .origin o]
  | .sbReadRequest off _ => [.num .w32 off]
  | .sbWriteRequest off v _ => [.num .w32 off, .num .w64 v]
  | .sbResultRead _ => []
  | .smbusAlertResponse => []
  | .standbyPowerUp _ => []
  | .mediaJobFetch r _ => [.num .ring r]

/-- Whether a command is well-formed. -/
def Instr.wf (i : Instr) : Bool := i.checks.all Check.ok

end Sys2Proof
end

