-- ==== Sys2Proof/Certificates/Slice0/Obligations.lean ====
section
/-! DEFINITION. The statements for the provers. -/

open Sys2Proof Sys2Proof.Machine

/-! ### The step -/

/-- A step takes the command at the front of the queue and answers what its meaning answers on the state with the rest of the queue. -/
def Obligations.StepRunsFront : Prop :=
  ∀ (s : State) (c : Instr) (rest : List Instr), s.pending = c :: rest → step s = exec c { s with pending := rest }

/-- With no command waiting a nanosecond passes: outside cold reset device time advances by one (R697), and the queue stays empty;
under cold reset nothing changes. That an empty queue lets time pass is the model's choice (log entry 3). -/
def Obligations.EmptyQueueLetsTimePass : Prop :=
  ∀ s : State, s.pending = [] →
    (s.pins.cold = true → step s = .next s) ∧
    (s.pins.cold = false → ∃ s', step s = .next s' ∧ s'.time = s.time + 1 ∧ s'.pending = [])

/-- Reset: the queue is empty, every tile is as after reset, and the registers read the reset values of the address map. -/
def Obligations.ResetValues : Prop :=
  State.reset.pending = [] ∧ (∀ t, State.reset.tile t = Tile.reset) ∧ (∀ off, State.reset.reg off = regInit off) ∧
    (∀ t c n, ((State.reset.tile t).ctx c).sGet n = 0) ∧
    (∀ t c, ((State.reset.tile t).ctx c).lenM = 0x7FFFFFFF ∧ ((State.reset.tile t).ctx c).lenN = 0x7FFFFFFF ∧
      ((State.reset.tile t).ctx c).lenK = 0x7FFFFFFF) ∧
    (∀ p, p < 8 → State.reset.rb (partCfg p) 63 = decide (p = 0)) ∧ State.reset.rn 0x48 = 0x136

/-- Every well-formed command completes; no command faults, and none is left without its meaning: the only refusal is of an
instruction word that is no defined encoding. -/
def Obligations.EveryCommandCompletes : Prop :=
  ∀ (c : Instr) (s : State), (c.wf = true → ∃ t, exec c s = .next t) ∧
    ((∃ t, exec c s = .next t) ∨ exec c s = .refused .undefinedEncoding)

/-- No step changes what is fused into the part: its variant, its identity, its tile sites and its revoked numbers stay what they
were, and no command's effect reaches the queue of commands. -/
def Obligations.FusedPartsStay : Prop :=
  (∀ s s' : State, step s = .next s' →
    s'.variant = s.variant ∧ s'.uid = s.uid ∧ s'.fuses = s.fuses ∧ s'.revoked = s.revoked ∧ s'.pending = s.pending.tail) ∧
  (∀ (c : Instr) (s s' : State), exec c s = .next s' → s'.pending = s.pending)

/-! ### Tiles -/

/-- The instructions that act on their own tile leave everything of the device outside the tiles as it is, and every tile that does
not run the same launch (R127). -/
def Obligations.TileInstructionsStayInTheirLaunch : Prop :=
  ∀ (s s' : State) (t : Nat) (w : IWord) (x : W64), spWf dTile s.tiles = true →
    ∀ i ∈ [Instr.nop t w, .alu t w, .alui t w, .li t w x, .cmp t w, .pop t w, .br t w, .brr t w, .loop t w, .fpu t w, .waitq t w,
      .fence t w, .kend t w, .rdsr t w, .wrsr t w, .lds t w, .sts t w, .adda t w, .mova t w, .tdld t w, .tdst t w, .tdset t w,
      .tdget t w, .mmac t w x, .mzero t w, .mdrain t w x, .mpad t w, .mlen t w, .vop t w, .vopb t w, .vcmp t w, .vcvt t w,
      .vld t w, .vst t w, .vred t w, .qblk t w x, .vwid t w x, .vperm t w, .vbcast t w, .vacc t w, .sfn t w, .stab t w,
      .osmn t w, .osmx t w, .osme t w x, .osmcCorr t w, .osmcFin t w, .osmcMerge t w, .osmcSave t w, .osmcLoad t w,
      .osmvAccum t w x, .osmbProb t w x, .osmbDscore t w x, .upd t w x, .upds t w x, .slcw t w x, .mbxSend t w, .mbxCount t w,
      .tsig t w, .fcfg t w, .fgo t w, .fwait t w, .fstop t w, .frel t w, .crbRead t w x, .crbWrite t w x,
      .crbWriteImmediate t w x],
      exec i s = .next s' → { s' with tiles := s.tiles } = s ∧
        ∀ u, u ≠ t → (s.tile u).run.map (·.launch) ≠ (s.tile t).run.map (·.launch) → s'.tile u = s.tile u

/-- A store of STS or TDST within the allocation sets the bytes it names and leaves every other byte of the cistern as it was. -/
def Obligations.StoresChangeOnlyTheirBytes : Prop :=
  ∀ (s s' : State) (t : Nat) (w : IWord) (r : Run) (k : LKernel), (s.tile t).running = some (r, k) →
    spWf dTile s.tiles = true → spWf dByte (s.tile t).cis = true →
    ∀ i opc n v, (i, opc, n, v) ∈ [
        (Instr.sts t w, 0x11, 2 ^ fld w.fn.toNat 1 0, (((s.issuing t r 0x11).ctx r.ctx).sGet w.sb.toNat).toNat),
        (Instr.tdst t w, 0x15, 64, (((s.issuing t r 0x15).ctx r.ctx).tdGet w.sb.toNat).toNat)] →
      s.canIssue t opc w 0 = true →
      let a := (((s.issuing t r opc).ctx r.ctx).aGet w.sa.toNat + w.imm.signExtend 64).toNat
      a + n ≤ k.cisBytes → exec i s = .next s' →
      (∀ b, b < k.cisOff + a ∨ k.cisOff + a + n ≤ b → spGet dByte (s'.tile t).cis b = spGet dByte (s.tile t).cis b) ∧
      (∀ j, j < n → (spGet dByte (s'.tile t).cis (k.cisOff + a + j)).toNat = v / 256 ^ j % 256)

/-- The scalar pipe's instructions keep every tile's registers and memories in canonical form. -/
def Obligations.ScalarPipeKeepsCanonicalTiles : Prop :=
  ∀ (s s' : State) (t : Nat) (w : IWord) (x : W64), spWf dTile s.tiles = true → (∀ u, (s.tile u).wf = true) →
    ∀ i ∈ [Instr.nop t w, .alu t w, .alui t w, .li t w x, .cmp t w, .pop t w, .br t w, .brr t w, .loop t w, .loopEnd t, .fpu t w,
        .lds t w, .sts t w, .adda t w, .mova t w, .tdld t w, .tdst t w, .tdset t w, .tdget t w, .fence t w, .waitq t w],
      exec i s = .next s' → spWf dTile s'.tiles = true ∧ ∀ u, (s'.tile u).wf = true

/-- The instructions that write one scalar or address register complete, with the register's value and nothing else changed but the
program counter: NOP, ALU, ALUI, LI, ADDA, MOVA, TDGET and RDSR. The instructions that write a predicate, a descriptor quadword,
a system register or an ME register complete with that and nothing else changed but the program counter: CMP, POP, TDSET, WRSR,
MPAD and MLEN. The FPU completes: its result goes to the destination register and its events are counted (R69, R91). -/
def Obligations.ScalarResults : Prop :=
  (∀ (s : State) (t : Nat) (w : IWord) (x : W64) (r : Run) (k : LKernel), (s.tile t).running = some (r, k) →
     (s.canIssue t 0x00 w 0 = true → exec (.nop t w) s = .next (s.went t r 0x00 w (s.issuing t r 0x00))) ∧
     (s.canIssue t 0x01 w 0 = true →
       let tl := s.issuing t r 0x01; let y := tl.ctx r.ctx
       exec (.alu t w) s = .next (s.went t r 0x01 w (tl.setCtx r.ctx
         (y.sSet w.dst.toNat (aluOp w.fn.toNat (y.sGet w.sa.toNat) (y.sGet w.sb.toNat)))))) ∧
     (s.canIssue t 0x02 w 0 = true →
       let tl := s.issuing t r 0x02; let y := tl.ctx r.ctx
       exec (.alui t w) s = .next (s.went t r 0x02 w (tl.setCtx r.ctx
         (y.sSet w.dst.toNat (aluOp w.fn.toNat (y.sGet w.sa.toNat) (w.imm.signExtend 64)))))) ∧
     (s.canIssue t 0x03 w x = true →
       let tl := s.issuing t r 0x03; let y := tl.ctx r.ctx
       exec (.li t w x) s = .next (s.went t r 0x03 w (tl.setCtx r.ctx
         (if w.fn = 0 then y.sSet w.dst.toNat x else y.aSet w.dst.toNat x)))) ∧
     (s.canIssue t 0x12 w 0 = true →
       let tl := s.issuing t r 0x12; let y := tl.ctx r.ctx
       exec (.adda t w) s = .next (s.went t r 0x12 w (tl.setCtx r.ctx
         (y.aSet w.dst.toNat (y.aGet w.sa.toNat + y.sGet w.sb.toNat + w.imm.signExtend 64))))) ∧
     (s.canIssue t 0x13 w 0 = true →
       let tl := s.issuing t r 0x13; let y := tl.ctx r.ctx
       exec (.mova t w) s = .next (s.went t r 0x13 w (tl.setCtx r.ctx
         (if w.fn = 0 then y.aSet w.dst.toNat (y.sGet w.sa.toNat) else y.sSet w.dst.toNat (y.aGet w.sa.toNat))))) ∧
     (s.canIssue t 0x17 w 0 = true →
       let tl := s.issuing t r 0x17; let y := tl.ctx r.ctx; let q := w.fn.toNat
       exec (.tdget t w) s = .next (s.went t r 0x17 w (tl.setCtx r.ctx
         (y.sSet w.dst.toNat ((y.tdGet w.sa.toNat).extractLsb' (64 * q) 64))))) ∧
     (s.canIssue t 0x0D w 0 = true →
       let tl := s.issuing t r 0x0D; let y := tl.ctx r.ctx
       exec (.rdsr t w) s = .next (s.went t r 0x0D w (tl.setCtx r.ctx
         (y.sSet w.dst.toNat (sysRead tl (s.seen t r k 0x0D w) w.imm.toNat)))))) ∧
  (∀ (s : State) (t : Nat) (w : IWord) (r : Run) (k : LKernel), (s.tile t).running = some (r, k) →
     (s.canIssue t 0x04 w 0 = true →
       let tl := s.issuing t r 0x04; let y := tl.ctx r.ctx
       exec (.cmp t w) s = .next (s.went t r 0x04 w (tl.setCtx r.ctx (y.pSet w.dst.toNat
         (if cmpOp w.fn.toNat (y.sGet w.sa.toNat) (y.sGet w.sb.toNat) then BitVec.allOnes 256 else 0))))) ∧
     (s.canIssue t 0x05 w 0 = true →
       let tl := s.issuing t r 0x05; let y := tl.ctx r.ctx
       exec (.pop t w) s = .next (s.went t r 0x05 w (tl.setCtx r.ctx (y.pSet w.dst.toNat
         (popOp w.fn.toNat (y.pGet w.sa.toNat) (y.pGet w.sb.toNat)))))) ∧
     (s.canIssue t 0x16 w 0 = true →
       let tl := s.issuing t r 0x16; let y := tl.ctx r.ctx; let q := w.fn.toNat
       exec (.tdset t w) s = .next (s.went t r 0x16 w (tl.setCtx r.ctx (y.tdSet w.dst.toNat
         (BitVec.ofNat 512 (setFld (y.tdGet w.dst.toNat).toNat (64 * q + 63) (64 * q) (y.sGet w.sa.toNat).toNat)))))) ∧
     (s.canIssue t 0x0E w 0 = true →
       let tl := s.issuing t r 0x0E
       exec (.wrsr t w) s = .next (s.went t r 0x0E w
         (sysWrite tl (s.seen t r k 0x0E w) w.imm.toNat ((tl.ctx r.ctx).sGet w.sa.toNat)))) ∧
     (s.canIssue t 0x23 w 0 = true →
       let tl := s.issuing t r 0x23; let y := tl.ctx r.ctx
       exec (.mpad t w) s = .next (s.went t r 0x23 w (tl.setCtx r.ctx { y with
         mePad := if w.fn = 0 then y.sGet w.sa.toNat
           else BitVec.ofNat 64 (setFld y.mePad.toNat 63 32 (mpadPreset (fld w.imm.toNat 1 0))) }))) ∧
     (s.canIssue t 0x24 w 0 = true →
       let tl := s.issuing t r 0x24; let y := tl.ctx r.ctx; let v := mlenVal (y.sGet w.sa.toNat)
       exec (.mlen t w) s = .next (s.went t r 0x24 w (tl.setCtx r.ctx { y with
         lenM := if w.fn = 0 then v else if w.fn = 3 then 0x7FFFFFFF else y.lenM
         lenN := if w.fn = 1 then v else if w.fn = 3 then 0x7FFFFFFF else y.lenN
         lenK := if w.fn = 2 then v else if w.fn = 3 then 0x7FFFFFFF else y.lenK })))) ∧
  (∀ (s : State) (t : Nat) (w : IWord) (r : Run) (k : LKernel), (s.tile t).running = some (r, k) → s.canIssue t 0x09 w 0 = true →
     let tl := s.issuing t r 0x09; let y := tl.ctx r.ctx
     let o := fpuOp w.fn.toNat (rndOf (fld w.imm.toNat 23 22)) (bit w.imm.toNat 21) (regDraw (s.seen t r k 0x09 w).samp 0)
       (y.sGet w.sa.toNat) (y.sGet w.sb.toNat) (y.sGet w.sc.toNat)
     exec (.fpu t w) s = .next (s.went t r 0x09 w ((tl.setCtx r.ctx (y.sSet w.dst.toNat o.1)).count r.ctx o.2)))

/-- The functions of ALU and ALUI by their FN (R89). The shifts take their count from bits [5:0] of the second operand, which is
s[SB] or ALUI's IMM24, so the other bits play no part in it; shr fills with zeros and sra with copies of bit 63 (R752). -/
def Obligations.AluFunctions : Prop :=
  ∀ a b : W64,
    aluOp 0 a b = a + b ∧ aluOp 1 a b = a - b ∧ aluOp 2 a b = a &&& b ∧ aluOp 3 a b = a ||| b ∧ aluOp 4 a b = a ^^^ b ∧
    aluOp 8 a b = a * b ∧ aluOp 9 a b = (a.zeroExtend 128 * b.zeroExtend 128).extractLsb' 64 64 ∧
    (aluOp 10 a b).toInt = min a.toInt b.toInt ∧ (aluOp 11 a b).toInt = max a.toInt b.toInt ∧
    (aluOp 12 a b).toNat = min a.toNat b.toNat ∧ (aluOp 13 a b).toNat = max a.toNat b.toNat ∧
    (let n := b.toNat % 64
     (∀ i, i < 64 → (aluOp 5 a b).getLsbD i = (decide (n ≤ i) && a.getLsbD (i - n))) ∧
     (∀ i, i < 64 → (aluOp 6 a b).getLsbD i = (decide (i + n < 64) && a.getLsbD (i + n))) ∧
     (∀ i, i < 64 → (aluOp 7 a b).getLsbD i = if i + n < 64 then a.getLsbD (i + n) else a.getLsbD 63)) ∧
    (∀ imm : BitVec 24, (imm.signExtend 64).toNat % 64 = imm.toNat % 64) ∧
    (∀ c : W64, c.toNat % 64 = b.toNat % 64 → aluOp 5 a c = aluOp 5 a b ∧ aluOp 6 a c = aluOp 6 a b ∧ aluOp 7 a c = aluOp 7 a b)

/-- LDS and TDLD complete when the bytes they read lie in the allocation and hold no poison, STS and TDST when the bytes they write
lie in it: the register or exactly those bytes take their value (R100, R102, R106, R308, R750). A cistern access of LDS, STS,
TDLD or TDST that reaches outside the allocation aborts the task with SEQ_CIS_BOUNDS and has no effect (R102). -/
def Obligations.CisternAccesses : Prop :=
  (∀ (s : State) (t : Nat) (w : IWord) (r : Run) (k : LKernel), (s.tile t).running = some (r, k) →
     (s.canIssue t 0x10 w 0 = true →
       let tl := s.issuing t r 0x10; let y := tl.ctx r.ctx
       let a := (y.aGet w.sa.toNat + w.imm.signExtend 64).toNat; let n := 2 ^ fld w.fn.toNat 1 0
       readable tl k a n = true →
       exec (.lds t w) s = .next (s.went t r 0x10 w (tl.setCtx r.ctx (y.sSet w.dst.toNat
         (extendTo64 (bit w.fn.toNat 2) n (leNat (tl.cisBytes (k.cisOff + a) n))))))) ∧
     (s.canIssue t 0x11 w 0 = true →
       let tl := s.issuing t r 0x11; let y := tl.ctx r.ctx
       let a := (y.aGet w.sa.toNat + w.imm.signExtend 64).toNat; let n := 2 ^ fld w.fn.toNat 1 0
       a + n ≤ k.cisBytes →
       exec (.sts t w) s = .next (s.went t r 0x11 w (tl.cisPut (k.cisOff + a) (leBytes n (y.sGet w.sb.toNat).toNat)))) ∧
     (s.canIssue t 0x14 w 0 = true →
       let tl := s.issuing t r 0x14; let y := tl.ctx r.ctx
       let a := (y.aGet w.sa.toNat + w.imm.signExtend 64).toNat
       readable tl k a 64 = true →
       exec (.tdld t w) s = .next (s.went t r 0x14 w (tl.setCtx r.ctx (y.tdSet w.dst.toNat
         (BitVec.ofNat 512 (leNat (tl.cisBytes (k.cisOff + a) 64))))))) ∧
     (s.canIssue t 0x15 w 0 = true →
       let tl := s.issuing t r 0x15; let y := tl.ctx r.ctx
       let a := (y.aGet w.sa.toNat + w.imm.signExtend 64).toNat
       a + 64 ≤ k.cisBytes →
       exec (.tdst t w) s = .next (s.went t r 0x15 w (tl.cisPut (k.cisOff + a) (leBytes 64 (y.tdGet w.sb.toNat).toNat))))) ∧
  (∀ (s : State) (t : Nat) (w : IWord) (r : Run) (k : LKernel), (s.tile t).running = some (r, k) →
     ∀ i opc n, (i, opc, n) ∈ [(Instr.lds t w, 0x10, 2 ^ fld w.fn.toNat 1 0), (Instr.sts t w, 0x11, 2 ^ fld w.fn.toNat 1 0),
         (Instr.tdld t w, 0x14, 64), (Instr.tdst t w, 0x15, 64)] →
       s.canIssue t opc w 0 = true →
       k.cisBytes < (((s.issuing t r opc).ctx r.ctx).aGet w.sa.toNat + w.imm.signExtend 64).toNat + n →
       exec i s = .next (abortTile s t (s.issuing t r opc) 0x321 0))

/-- Where a word of the cistern lies (R301): bank x[11:6] XOR (x[16:12] << 1), line x[25:12], at byte x[5:0] of the line, where x is
its byte offset; a bank and a line hold each word at one place. -/
def Obligations.CisternBanks : Prop :=
  ∀ word, word < 48 * 2 ^ 20 / 8 →
    let x := 8 * word
    cisBankLine word = (Nat.xor (x / 64 % 64) (2 * (x / 4096 % 32)), x / 4096 % 2 ^ 14) ∧ (cisBankLine word).1 < 64 ∧
    cisWordAt (cisBankLine word).1 (cisBankLine word).2 (x % 64 / 8) = word

/-- BR, BRR and LOOP go where R104 and R105 say, and LOOP_END leaves an exhausted loop (R103): a branch keeps the loops whose body
holds its target, and a loop of count 0 skips its body. WAITQ, FENCE and KEND complete when what they wait for has come, and
otherwise leave the program counter where it is (R99, R126, R266). -/
def Obligations.ControlFlow : Prop :=
  (∀ (s : State) (t : Nat) (w : IWord) (r : Run) (k : LKernel), (s.tile t).running = some (r, k) →
     (s.canIssue t 0x06 w 0 = true →
       let tl := s.issuing t r 0x06; let y := tl.ctx r.ctx; let g := (y.pc : Int) + 8 * w.imm.toInt
       0 ≤ g →
       exec (.br t w) s = .next (s.setTile t (tl.setCtx r.ctx { y with pc := g.toNat, loops := keepLoops g.toNat y.loops }))) ∧
     (s.canIssue t 0x07 w 0 = true →
       let tl := s.issuing t r 0x07; let y := tl.ctx r.ctx; let g := (y.sGet w.sa.toNat).toNat
       exec (.brr t w) s = .next (if isStart tl k g (k.codeBytes / 8 + 1) 0
         then s.setTile t (tl.setCtx r.ctx { y with pc := g, loops := keepLoops g y.loops })
         else abortTile s t tl 0x322 0)) ∧
     (s.canIssue t 0x08 w 0 = true →
       let tl := s.issuing t r 0x08; let y := tl.ctx r.ctx; let n := fld (y.sGet w.sa.toNat).toNat 31 0
       let stop := y.pc + 8 * w.imm.toNat
       y.loops.length < 4 →
       exec (.loop t w) s = .next (s.setTile t (tl.setCtx r.ctx
         (if n = 0 then { y with pc := stop + kzLen (codeWord tl k stop) }
          else { y with pc := y.pc + 8, loops := y.loops ++ [{ start := y.pc + 8, stop := stop, rem := n }] })))) ∧
     (((s.tile t).ctx r.ctx).loopOver = true →
       exec (.loopEnd t) s = .next (s.setTile t ((s.tile t).setCtx r.ctx ((s.tile t).ctx r.ctx).leaveLoop)))) ∧
  (∀ (s : State) (t : Nat) (w : IWord) (r : Run) (k : LKernel), (s.tile t).running = some (r, k) →
     (s.canIssue t 0x0A w 0 = true →
       let tl := s.issuing t r 0x0A
       exec (.waitq t w) s = .next (if (spGet dQueue tl.queues (fld w.imm.toNat 2 0)).length ≤ fld w.imm.toNat 15 8
         then s.went t r 0x0A w tl else s.setTile t tl)) ∧
     (s.canIssue t 0x0B w 0 = true →
       let tl := s.issuing t r 0x0B
       exec (.fence t w) s = .next (if tl.outstanding = [] then s.went t r 0x0B w tl else s.setTile t tl)) ∧
     (s.canIssue t 0x0C w 0 = true →
       let tl := s.issuing t r 0x0C; let u := w.imm.toNat
       exec (.kend t w) s = .next (s.setTile t (if tl.outstanding = [] ∧ tl.writesDrained = true
         then tl.endKernel k (if u = 0 then 0 else 0x330) u s.time else tl))))

/-- The lane instructions complete on every operand: each enabled lane takes the value of its operation and counts its events, and
no other lane changes (R95, R171, R174 to R178, R181, R189 to R192); a performance counter advances. -/
def Obligations.LaneOperations : Prop :=
  ∀ (s : State) (t : Nat) (w : IWord) (r : Run) (k : LKernel), (s.tile t).running = some (r, k) →
    let d := w.dst.toNat; let ty := fld w.imm.toNat 20 19; let rnd := rndOf (fld w.imm.toNat 23 22); let sat := bit w.imm.toNat 21
    (s.canIssue t 0x30 w 0 = true →
      let tl := s.issuing t r 0x30; let kx := s.seen t r k 0x30 w
      exec (.vop t w) s = .next (s.went t r 0x30 w ((mapLanes tl kx w d fun l =>
        vopLane ty w.fn.toNat rnd sat (regDraw kx.samp) l (tl.vGet w.sa.toNat l) (tl.vGet w.sb.toNat l)
          (tl.vGet w.sc.toNat l)).vuBusy 1))) ∧
    (s.canIssue t 0x31 w 0 = true →
      let tl := s.issuing t r 0x31; let kx := s.seen t r k 0x31 w
      exec (.vopb t w) s = .next (s.went t r 0x31 w ((mapLanes tl kx w d fun l =>
        vopLane ty w.fn.toNat rnd sat (regDraw kx.samp) l (tl.vGet w.sa.toNat l)
          (((tl.ctx r.ctx).sGet w.sb.toNat).toNat % 2 ^ 32) (tl.vGet w.sc.toNat l)).vuBusy 1))) ∧
    (s.canIssue t 0x33 w 0 = true →
      let tl := s.issuing t r 0x33; let kx := s.seen t r k 0x33 w
      exec (.vcvt t w) s = .next (s.went t r 0x33 w ((mapLanes tl kx w d fun l =>
        vcvtLane w.fn.toNat rnd sat (regDraw kx.samp) l (tl.vGet w.sa.toNat l) (tl.vGet w.sb.toNat l)).vuBusy 1))) ∧
    (s.canIssue t 0x39 w 0 = true →
      let tl := s.issuing t r 0x39; let kx := s.seen t r k 0x39 w; let v := tl.vGet w.sa.toNat
      exec (.vperm t w) s = .next (s.went t r 0x39 w ((mapLanes tl kx w d fun l =>
        (if w.fn = 0 then v (tl.vGet w.sb.toNat l % 256) else if w.fn = 1 then v ((l + fld w.imm.toNat 7 0) % 256)
          else fld (v l) 31 16 + fld (v l) 15 0 * 65536, Exc.zero)).vuBusy 1))) ∧
    (s.canIssue t 0x3A w 0 = true →
      let tl := s.issuing t r 0x3A; let kx := s.seen t r k 0x3A w
      exec (.vbcast t w) s = .next (s.went t r 0x3A w ((mapLanes tl kx w d fun _ =>
        (if w.fn = 0 then ((tl.ctx r.ctx).sGet w.sa.toNat).toNat % 2 ^ 32 else tl.vGet w.sa.toNat (fld w.imm.toNat 7 0),
          Exc.zero)).vuBusy 1))) ∧
    (s.canIssue t 0x40 w 0 = true →
      let tl := s.issuing t r 0x40; let kx := s.seen t r k 0x40 w
      let tb := if w.fn.toNat ≤ 2 then builtinTable w.fn.toNat else spGet dSfu tl.sfu (k.sfuMap.getD (fld w.imm.toNat 3 0) 0)
      let el := fun (f : FFmt) (i v : Nat) => sfnElem tb f rnd sat (regDraw kx.samp i) v
      tb.loaded = true →
      exec (.sfn t w) s = .next (s.went t r 0x40 w ((mapLanes tl kx w d fun l =>
        let v := tl.vGet w.sa.toNat l
        if ty = 0 then el fp32 l v
        else ((el bf16 (2 * l) (fld v 15 0)).1 + (el bf16 (2 * l + 1) (fld v 31 16)).1 * 65536,
          (el bf16 (2 * l) (fld v 15 0)).2.plus (el bf16 (2 * l + 1) (fld v 31 16)).2)).perfs
        [(0x3000, sfnCycles tl kx w), (0x3008, sfnCycles tl kx w - 1)])))

/-- VCMP, VACC and VRED complete: VCMP writes the enabled lanes' bits of a predicate (R177), VACC moves or scales a bank's column or
rows (R182), and VRED writes a register or lanes (R183, R184), its descriptor form when the descriptor passes its checks and
every byte read lies in the allocation and holds no poison. VLD and VST complete when their addresses are aligned as R179 asks
and every enabled lane's bytes lie in the allocation and, for a load, hold no poison; STAB when its record may be read and obeys
R196. -/
def Obligations.VectorMoves : Prop :=
  (∀ (s : State) (t : Nat) (w : IWord) (r : Run) (k : LKernel), (s.tile t).running = some (r, k) →
     (s.canIssue t 0x32 w 0 = true →
       let tl := s.issuing t r 0x32; let kx := s.seen t r k 0x32 w; let y := tl.ctx r.ctx
       ∃ p : Pred, (∀ l, l < 256 → p.getLsbD l = if laneOn tl kx w l
           then vcmpLane (fld w.imm.toNat 20 19) w.fn.toNat (tl.vGet w.sa.toNat l) (tl.vGet w.sb.toNat l)
           else (y.pGet w.dst.toNat).getLsbD l) ∧
         exec (.vcmp t w) s = .next (s.went t r 0x32 w ((tl.setCtx r.ctx (y.pSet w.dst.toNat p)).vuBusy 1))) ∧
     (s.canIssue t 0x3B w 0 = true →
       let tl := s.issuing t r 0x3B; let kx := s.seen t r k 0x3B w; let col := fld w.imm.toNat 6 0
       let lh := if bit w.imm.toNat 8 then 128 else 0
       let o := mapRegion tl w.dst.toNat 0 0 256 128 fun i j old =>
         let ln := if w.fn = 2 then i else j + lh
         if laneOn tl kx w ln then mulFp32 w old (tl.vGet w.sb.toNat ln) else (old, Exc.zero)
       exec (.vacc t w) s = .next (s.went t r 0x3B w
         (if w.fn = 0 then (mapLanes tl kx w w.dst.toNat fun l => (tl.accGet w.sa.toNat l col, Exc.zero)).vuBusy 1
          else if w.fn = 1 then ((onLanes tl kx w).foldl (fun u l => u.accSet w.dst.toNat l col (tl.vGet w.sa.toNat l)) tl).vuBusy 1
          else (o.1.count r.ctx o.2).vuBusy 128))) ∧
     (s.canIssue t 0x36 w 0 = true →
       let tl := s.issuing t r 0x36; let kx := s.seen t r k 0x36 w
       (w.fn.toNat ≤ 2 → exec (.vred t w) s = .next (s.went t r 0x36 w ((vredLanes tl kx w).vuBusy 1))) ∧
       (3 ≤ w.fn.toNat → w.fn.toNat ≤ 5 → exec (.vred t w) s = .next (s.went t r 0x36 w ((vredBank tl kx w).vuBusy 128))) ∧
       (6 ≤ w.fn.toNat →
         let d := tdOf ((tl.ctx r.ctx).tdGet w.sa.toNat); let n := min ((tl.ctx r.ctx).sGet w.sb.toNat).toNat d.cols
         let rows := (onLanes tl kx w).filter (· < d.rows)
         let vals := fun l => (List.range n).map fun i => scalarDec d.fmt (((tl.cisBytes (k.cisOff + (d.elem + l * d.rowPitch))
           (n * scalarBytes d.fmt)).drop (i * scalarBytes d.fmt)).take (scalarBytes d.fmt))
         let out := fun l => exactBits fp32 (redRow w.fn.toNat (d.fmt == 9) (vals l))
         d.check = .ok () → bit d.sp 0 = true → (d.fmt = 8 ∨ d.fmt = 9) → d.elem % 4 = 0 → d.rowPitch % 4 = 0 →
         (∀ l ∈ rows, readable tl k (d.elem + l * d.rowPitch) (n * scalarBytes d.fmt) = true) →
         exec (.vred t w) s = .next (s.went t r 0x36 w (((rows.foldl (fun tl l => tl.vSet w.dst.toNat l (out l)) tl).count r.ctx
           (Exc.sum (rows.map fun l => if w.fn.toNat ≤ 7 then redEvents ((vals l).map (exactBits fp32)) (out l) else .zero))).vuBusy
             ((if d.fmt = 9 then ceilDiv n 2 else n) + 1)))))) ∧
  (∀ (s : State) (t : Nat) (w : IWord) (r : Run) (k : LKernel), (s.tile t).running = some (r, k) →
     (s.canIssue t 0x34 w 0 = true →
       let tl := s.issuing t r 0x34; let kx := s.seen t r k 0x34 w; let on := onLanes tl kx w
       (if w.fn = 0 then vAddr tl kx w % 64 = 0 else ∀ l ∈ on, laneAddr tl kx w l % 4 = 0) →
       (∀ l ∈ on, readable tl k (laneAddr tl kx w l) 4 = true) →
       exec (.vld t w) s = .next (s.went t r 0x34 w ((on.foldl (fun u l =>
         u.vSet w.dst.toNat l (leNat (tl.cisBytes (k.cisOff + laneAddr tl kx w l) 4))) tl).vuBusy (if w.fn = 0 then 1 else 4)))) ∧
     (s.canIssue t 0x35 w 0 = true →
       let tl := s.issuing t r 0x35; let kx := s.seen t r k 0x35 w; let on := onLanes tl kx w
       (if w.fn = 0 then vAddr tl kx w % 64 = 0 else ∀ l ∈ on, laneAddr tl kx w l % 4 = 0) →
       (∀ l ∈ on, laneAddr tl kx w l + 4 ≤ k.cisBytes) →
       exec (.vst t w) s = .next (s.went t r 0x35 w ((storeAll k (on.map fun l =>
         (laneAddr tl kx w l, leBytes 4 (tl.vGet w.sc.toNat l))) tl).vuBusy (if w.fn = 0 then 1 else 4)))) ∧
     (s.canIssue t 0x41 w 0 = true →
       let tl := s.issuing t r 0x41; let kx := s.seen t r k 0x41 w
       let b := tl.cisBytes (k.cisOff + vAddr tl kx w) 128
       readable tl k (vAddr tl kx w) 128 = true → tableOk b = true →
       exec (.stab t w) s = .next (s.went t r 0x41 w
         { tl with sfu := spSet dSfu tl.sfu (k.sfuMap.getD w.fn.toNat 0) (tableOf b) })))

/-- MMAC completes when it passes the checks of R753, the ring slots it names can be read and the operand bytes hold no poison;
MZERO on every operand; MDRAIN when its destination passes the checks and lies in the allocation (R138 to R152, R158). -/
def Obligations.MatrixOperations : Prop :=
  ∀ (s : State) (t : Nat) (w : IWord) (x : W64) (r : Run) (k : LKernel), (s.tile t).running = some (r, k) →
    let (r0, c0, M, N) := regionOf w.fn.toNat w.imm.toNat
    (s.canIssue t 0x20 w x = true →
      let tl := s.issuing t r 0x20; let kx := s.seen t r k 0x20 w; let n := fld w.imm.toNat 7 0 + 1
      ∀ u got v, mmacChecks tl kx w.fn.toNat n (specA x) (specB x) = .ok () →
        takeSlots kx (slotSpecs n (specA x) (specB x)) tl [] = (u, got, none) → mmacCompute u kx w x got = .ok v →
        exec (.mmac t w x) s = .next (s.went t r 0x20 w v)) ∧
    (s.canIssue t 0x21 w 0 = true →
      let tl := s.issuing t r 0x21
      exec (.mzero t w) s = .next (s.went t r 0x21 w (mapRegion tl w.dst.toNat r0 c0 M N fun _ _ _ =>
        (if bit w.imm.toNat 20 then fld (tl.ctx r.ctx).mePad.toNat 63 32 else 0, Exc.zero)).1)) ∧
    (s.canIssue t 0x22 w x = true →
      let tl := s.issuing t r 0x22; let kx := s.seen t r k 0x22 w; let y := tl.ctx r.ctx; let d := specTd y (specA x)
      let alpha := fp32.dec ((y.sGet w.sb.toNat).toNat % 2 ^ 32)
      let out := fun i j =>
        let v := tl.accVal w.sa.toNat (r0 + i) (c0 + j)
        deliver (scalarFmt d.fmt) (rndOf (fld w.imm.toNat 23 22)) (bit w.imm.toNat 21) (tdDraw kx.samp d.tid (i * d.cols + j))
          (if bit w.imm.toNat 20 then alpha.isNan || v.isNan else v.isNan) (if bit w.imm.toNat 20 then alpha.mul v else v)
      let cells := (List.range d.rows).map fun i => (List.range d.cols).map fun j => out i j
      let rows := cells.mapIdx fun i row =>
        (d.elem + i * d.rowPitch, row.flatMap fun c => leBytes (scalarBytes d.fmt) c.1)
      mdrainChecks d w.fn.toNat = .ok () → inside k rows = true →
      exec (.mdrain t w x) s = .next (s.went t r 0x22 w ((if bit w.imm.toNat 19
          then (mapRegion (storeAll k rows tl) w.sa.toNat r0 c0 M N fun _ _ _ => (0, Exc.zero)).1 else storeAll k rows tl).count r.ctx
        (Exc.sum (cells.flatMap fun row => row.map Prod.snd)))))

/-- What an MMAC whose operands are read does to the accumulators: with no length mask, element (i, j) of its region takes the
accumulated value of row i of A and row j of B for every row that the operands have (R138, R140), and every element outside the
region keeps its value, as does every one inside it that the operands do not reach when FILL is 0 (R149). -/
def Obligations.MmacRegion : Prop :=
  ∀ (tl v : Tile) (kx : Kx) (w : IWord) (x : W64) (got : List Image) (as bs : List (List Grp)),
    let n := fld w.imm.toNat 7 0 + 1
    let a := { meOpnd tl kx (specA x) n with images := opndImages (specA x) (specB x) true got }
    let b := { meOpnd tl kx (specB x) n with images := opndImages (specB x) (specA x) false got }
    let y := tl.ctx kx.c
    let (r0, c0, M, N) := regionOf w.fn.toNat w.imm.toNat
    kzDefined 0x20 w x = true → tl.wf = true →
    a.rows ≤ M → b.rows ≤ N → a.cols = b.cols → a.rows ≤ y.lenM → b.rows ≤ y.lenN → a.cols ≤ y.lenK → 0 < a.cols →
    0 < a.rows → 0 < b.rows → bit w.imm.toNat 20 = false →
    a.read tl kx.k a.rows (ceilDiv a.cols 32) = .ok as → b.read tl kx.k b.rows (ceilDiv a.cols 32) = .ok bs →
    mmacCompute tl kx w x got = .ok v →
    (∀ i j, i < a.rows → j < b.rows → v.accGet w.dst.toNat (r0 + i) (c0 + j) =
      (accElem (if bit w.imm.toNat 19 then 0 else tl.accGet w.dst.toNat (r0 + i) (c0 + j)) (as.getD i []) (bs.getD j [])).1 % 2 ^ 32) ∧
    (∀ bk m l, bk < 4 → m < 256 → l < 128 →
      ¬ (bk = w.dst.toNat ∧ r0 ≤ m ∧ m < r0 + a.rows ∧ c0 ≤ l ∧ l < c0 + b.rows) → v.accGet bk m l = tl.accGet bk m l)

/-- QBLK, VWID, UPD and UPDS complete when their checks pass and every byte they read and write is there: the tile is the one that
the block or element loop leaves, with its events counted (R186, R188, R438, R440). -/
def Obligations.BlockOperations : Prop :=
  ∀ (s : State) (t : Nat) (w : IWord) (x : W64) (r : Run) (k : LKernel), (s.tile t).running = some (r, k) →
    (s.canIssue t 0x37 w x = true →
      let tl := s.issuing t r 0x37; let kx := s.seen t r k 0x37 w; let y := tl.ctx r.ctx
      let p := qprofOf ((s.tile t).reg (0x2000 + 8 * (w.fn.toNat % 8))).toNat
      let d := specTd y (specB x); let src := specCis y (specA x)
      let b0 := (y.sGet w.sa.toNat).toNat; let n := (y.sGet w.sb.toNat).toNat
      qblkChecks p d b0 n src = .ok () →
      ∀ u ev, qblkLoop kx p d (bit w.imm.toNat 20) src b0 (List.range n) tl .zero 0 = (u, ev, none) →
        exec (.qblk t w x) s = .next (s.went t r 0x37 w ((u.count r.ctx ev).vuBusy
          (max 1 (ceilDiv n (if p.errBits = 0 then 8 else 4)) + ev.esc)))) ∧
    (s.canIssue t 0x38 w x = true →
      let tl := s.issuing t r 0x38; let kx := s.seen t r k 0x38 w; let y := tl.ctx r.ctx
      let d := specTd y (specA x); let dst := specCis y (specB x)
      let b0 := (y.sGet w.sa.toNat).toNat; let n := (y.sGet w.sb.toNat).toNat
      vwidChecks d b0 n dst = .ok () →
      ∀ u ev esc, vwidLoop kx d (if w.fn = 0 then fp32 else bf16) (if w.fn = 0 then 4 else 2) dst b0 (List.range n) tl .zero 0 =
          (u, ev, esc, none) →
        exec (.vwid t w x) s = .next (s.went t r 0x38 w ((u.count r.ctx ev).vuBusy (max 1 (ceilDiv n 8) + esc)))) ∧
    (∀ i opc fp sq, (i, opc, fp, sq) ∈ [(Instr.upd t w x, 0x77, false, false), (Instr.upds t w x, 0x78, true, w.fn == 1)] →
      s.canIssue t opc w x = true →
      let tl := s.issuing t r opc; let kx := s.seen t r k opc w; let y := tl.ctx r.ctx
      let W := specTd y (specA x); let D := specTd y (specB x)
      let e0 := (y.sGet w.sa.toNat).toNat; let n := (y.sGet w.sb.toNat).toNat; let ab := (y.sGet w.sc.toNat).toNat
      updChecks W D fp e0 n = .ok () →
      ∀ u ev, updLoop kx w sq W D (fp32.dec (fld ab 31 0)) (fp32.dec (fld ab 63 32)) e0 n ((List.range n).map (e0 + ·)) tl .zero =
          (u, ev, none) →
        exec i s = .next (s.went t r opc w ((u.count r.ctx ev).vuBusy (ceilDiv n 128 + 1))))

/-- OSMN, OSMX, OSME and OSMS complete: OSMN opens a block and starts its rows (R214), OSMX brings each row's maximum and sum to the
new scores, or marks rows in no-subtract mode (R215, R219), OSME writes the probabilities and adds them to the sums (R216), and
OSMS writes its decision record and counts what it skips (R222, R223). OSMC corrects, finishes, merges, saves and loads, and a
due rerun starts the block again (R217 to R220): FIN of a block with a marked row makes the rerun due, and of any other block
normalises its rows and closes it. OSMV accumulates the bounds of skipped columns and decides on them, and OSMB gives
probabilities and score gradients (R224, R226, R250). -/
def Obligations.QueryBlocks : Prop :=
  (∀ (s : State) (t : Nat) (w : IWord) (x : W64) (r : Run) (k : LKernel), (s.tile t).running = some (r, k) →
     let (r0, c0, m, n) := osmRegion w
     (s.canIssue t 0x54 w 0 = true →
       let tl := s.issuing t r 0x54; let kx := s.seen t r k 0x54 w; let rows := osmRows tl kx w r0 m
       let mode := bit w.imm.toNat 1
       (mode = true → (fp32.dec (osmOffset kx)).isFin = true) →
       let u := tl.stInit w.dst.toNat (if mode then osmOffset kx else negInf) rows
       let u := if bit w.imm.toNat 0 then u.stInit w.sa.toNat negInf rows else u
       exec (.osmn t w) s = .next (s.went t r 0x54 w ((u.setCtx r.ctx { u.ctx r.ctx with
         blk := { kx.samp.blk with isOpen := true, mode := mode, stReg := w.dst.toNat, rows := rows } }).vuBusy 2))) ∧
     (s.canIssue t 0x50 w 0 = true →
       let tl := s.issuing t r 0x50; let kx := s.seen t r k 0x50 w; let rows := osmRows tl kx w r0 m
       let busy := 5 + ceilDiv (rows.length * n) 1024 + ceilDiv rows.length 128
       ((tl.ctx r.ctx).blk.noSub = false →
         exec (.osmx t w) s = .next (s.went t r 0x50 w ((rows.foldl (osmxRow kx w c0 n) tl).vuBusy busy))) ∧
       ((tl.ctx r.ctx).blk.noSub = true → (fp32.dec (osmOffset kx)).isFin = true →
         exec (.osmx t w) s = .next (s.went t r 0x50 w ((((rows.foldl (fun tl l => tl.vSet w.dst.toNat l 0x3F800000) tl).markRows kx
           (rows.filter fun l => (fp32.dec fp80).lt
             (fp32.dec (subRne (exactBits fp32 (osmMaxScore tl kx w.sa.toNat l c0 n)) (osmOffset kx))))).vuBusy busy))))) ∧
     (s.canIssue t 0x51 w x = true →
       let tl := s.issuing t r 0x51; let kx := s.seen t r k 0x51 w; let rows := osmRows tl kx w r0 m
       let d := specTd (tl.ctx r.ctx) (specA x)
       let cells := rows.map fun l => (l, osmeRow tl kx w d r0 c0 n l)
       let sts := osmStores w d (cells.flatMap Prod.snd)
       ((tl.ctx r.ctx).blk.noSub = true → (fp32.dec (osmOffset kx)).isFin = true) → osmDest d = .ok () → inside k sts = true →
       exec (.osme t w x) s = .next (s.went t r 0x51 w ((cells.foldl (fun tl c =>
         tl.stSet w.sb.toNat c.1 (addRne (tl.stHi w.sb.toNat c.1)
           (redTree 0 (treeLevels n) (c.2.map fun p => exactBits fp32 (bf16.dec p.2.2)))) (tl.stLo w.sb.toNat c.1))
         (storeAll k sts tl)).vuBusy (4 + ceilDiv (rows.length * n) 128)))) ∧
     (s.canIssue t 0x52 w x = true →
       let tl := s.issuing t r 0x52; let kx := s.seen t r k 0x52 w; let rows := osmRows tl kx w r0 m
       let at' := ((tl.ctx r.ctx).aGet w.dst.toNat).toNat
       r.jmode = 0 → (tl.ctx r.ctx).blk.isOpen = true →
       ∀ u valid skip sts, osmsDecide tl kx w x = .ok (u, valid, skip) →
         let keep := valid.filter fun j => !skip.contains j
         decisionRecord at' ((tl.ctx r.ctx).aGet w.sc.toNat).toNat tl k (maskCols (leNat ((leBytes 16 (maskOf keep)).take 16)))
           (maskCols (leNat (leBytes 16 (maskOf skip)))) = .ok sts → inside k sts = true →
         exec (.osms t w x) s = .next ((s.setTile t tl).went t r 0x52 w
           ((((storeAll k sts u).updBlk kx fun b => { b with
               skipped := sat32 b.skipped (maskCols (leNat (leBytes 16 (maskOf skip)))).length }).perfs
             [(0x2060, valid.length), (0x2068, (maskCols (leNat (leBytes 16 (maskOf skip)))).length)]).vuBusy
               (4 + ceilDiv (rows.length * n) 1024))))) ∧
  (∀ (s : State) (t : Nat) (w : IWord) (r : Run) (k : LKernel), (s.tile t).running = some (r, k) →
     let (r0, c0, m, n) := osmRegion w
     (s.canIssue t 0x53 w 0 = true →
       let tl := s.issuing t r 0x53; let kx := s.seen t r k 0x53 w; let rows := osmRows tl kx w r0 m; let sb := w.sb.toNat
       let at' := ((tl.ctx r.ctx).aGet w.sc.toNat).toNat
       (w.fn = 0 → exec (.osmcCorr t w) s = .next (s.went t r 0x53 w ((rows.foldl (fun tl l =>
         tl.accRow w.dst.toNat l c0 n fun _ v => mulRne v (tl.vGet w.sa.toNat l)) tl).vuBusy (osmcBusy rows.length n)))) ∧
       (w.fn = 1 → (tl.ctx r.ctx).blk.isOpen = true →
         let u := if (tl.ctx r.ctx).blk.noSub then tl.markRows kx (rows.filter fun l => finMarks (tl.stHi sb l)) else tl
         ((u.ctx r.ctx).blk.marked = [] → exec (.osmcFin t w) s = .next (s.went t r 0x53 w (((rows.foldl (fun tl l =>
           let f := finFactor (tl.stLo sb l) (tl.stHi sb l)
           tl.accRow w.dst.toNat l c0 n fun _ v => (f.map (mulRne v)).getD 0) u).updBlk kx
             fun b => { b with isOpen := false }).vuBusy (osmcBusy rows.length n)))) ∧
         ((u.ctx r.ctx).blk.marked ≠ [] → (u.ctx r.ctx).blk.dirty = false →
           exec (.osmcFin t w) s = .next (s.went t r 0x53 w ((u.updBlk kx fun b => { b with due := true }).vuBusy
             (osmcBusy rows.length n)))) ∧
         ((u.ctx r.ctx).blk.marked ≠ [] → (u.ctx r.ctx).blk.dirty = true →
           exec (.osmcFin t w) s = .next (abortTile s t u 0x602 0))) ∧
       (w.fn = 2 → at' % 64 = 0 →
         (∀ l ∈ rows, readable tl k (at' + 8 * (l - r0)) 8 = true ∧ readable tl k (at' + up64 (8 * m) + 4 * n * (l - r0)) (4 * n) = true) →
         exec (.osmcMerge t w) s = .next (s.went t r 0x53 w ((rows.foldl (fun u l =>
           mergeRow sb w.dst.toNat c0 n l (tl.cisBytes (k.cisOff + (at' + 8 * (l - r0))) 8)
             (tl.cisBytes (k.cisOff + (at' + up64 (8 * m) + 4 * n * (l - r0))) (4 * n)) u) tl).vuBusy
           (4 + ceilDiv (rows.length * n) 256)))) ∧
       (w.fn = 3 → at' % 64 = 0 →
         let sts := rows.map fun l => (at' + 8 * (l - r0), leBytes 8 (tl.stGet sb l))
         inside k sts = true →
         exec (.osmcSave t w) s = .next (s.went t r 0x53 w ((storeAll k sts tl).vuBusy (2 + ceilDiv rows.length 64)))) ∧
       (w.fn = 4 → at' % 64 = 0 → (∀ l ∈ rows, readable tl k (at' + 8 * (l - r0)) 8 = true) →
         exec (.osmcLoad t w) s = .next (s.went t r 0x53 w ((rows.foldl (fun u l =>
           let b := tl.cisBytes (k.cisOff + (at' + 8 * (l - r0))) 8
           u.stSet sb l (leNat (b.drop 4)) (leNat (b.take 4))) tl).vuBusy (2 + ceilDiv rows.length 64))))) ∧
     (let blk := ((s.tile t).ctx r.ctx).blk
      blk.due = true → (s.tile t).outstanding = [] →
       (∀ f ∈ (s.tile t).flights, ¬ (blk.channels.contains f.chan = true ∧ ((s.tile t).chan f.chan).st = 2)) →
       let u := (blk.channels.foldl (fun tl n => tl.stopped k n s.time) (s.tile t)).stInit blk.stReg negInf blk.rows
       exec (.osmRerun t) s = .next (s.setTile t ((u.setCtx r.ctx { u.ctx r.ctx with
         s := blk.s, a := blk.a, p := blk.p, td := blk.td, pc := blk.pc, loops := blk.loops
         blk := { blk with mode := false, rerun := true, due := false, marked := [], started := 0, dirty := false } }).perf 0x2078 1)))) ∧
  (∀ (s : State) (t : Nat) (w : IWord) (x : W64) (r : Run) (k : LKernel), (s.tile t).running = some (r, k) →
     let (r0, c0, m, n) := osmRegion w
     (s.canIssue t 0x56 w x = true →
       let tl := s.issuing t r 0x56; let kx := s.seen t r k 0x56 w; let rows := osmRows tl kx w r0 m
       (w.fn = 0 →
         let at' := ((tl.ctx r.ctx).aGet w.sc.toNat).toNat
         let js := (maskCols (leNat (tl.cisBytes (k.cisOff + (at' + 16)) 16))).filter fun j => decide (j < n)
         at' % 64 = 0 → readable tl k (at' + 16) 16 = true →
         ∀ u base its, osmItems tl kx (specA x) = .ok (u, base) →
           (js.mapM fun j => do let it ← readItem u kx base j; return (j, it) : Ex (List (Nat × BItem))) = .ok its →
           exec (.osmvAccum t w x) s = .next (s.went t r 0x56 w ((rows.foldl (fun tl l =>
             boundRow tl w.sb.toNat w.sa.toNat w.dst.toNat l c0 its) u).vuBusy (4 + ceilDiv (rows.length * its.length) 128)))) ∧
       (w.fn = 1 → r.jmode = 0 → (tl.ctx r.ctx).blk.isOpen = true → (osmEps kx).isFin = true → (osmEps kx).below0 = false →
         let bad := rows.any fun l => rowFails (osmEps kx) (tl.stHi w.sa.toNat l, tl.stLo w.sa.toNat l)
           (tl.stHi w.sb.toNat l, tl.stLo w.sb.toNat l)
         let u := tl.setCtx r.ctx ((tl.ctx r.ctx).pSet w.dst.toNat (if bad then BitVec.allOnes 256 else 0))
         exec (.osmvDecide t w x) s = .next ((s.setTile t tl).went t r 0x56 w
           ((if bad then u.perf 0x2070 (u.ctx r.ctx).blk.skipped else u).vuBusy (2 + ceilDiv rows.length 128))))) ∧
     (s.canIssue t 0x55 w x = true →
       let tl := s.issuing t r 0x55; let kx := s.seen t r k 0x55 w; let rows := osmRows tl kx w r0 m
       let d := specTd (tl.ctx r.ctx) (specA x)
       ∀ i (per : Nat) (f : Nat → Nat → Nat),
         ((w.fn = 0 ∧ i = Instr.osmbProb t w x ∧ per = 128 ∧ f = fun l n =>
             mulRne (exactBits fp32 (exp2Diff (tl.accGet w.sa.toNat l n) (tl.stLo w.sb.toNat l)))
               (recipRefined (tl.stHi w.sb.toNat l))) ∨
          (w.fn = 1 ∧ i = Instr.osmbDscore t w x ∧ per = 512 ∧ (fp32.dec (osmDscale kx)).isFin = true ∧ f = fun l n =>
             exactBits fp32 (((fp32.dec (osmDscale kx)).mul (tl.accVal w.sb.toNat l n)).mul
               ((tl.accVal w.sa.toNat l n).sub (fp32.dec (tl.vGet w.sc.toNat l)))))) →
         let vals := rows.flatMap fun l => (List.range n).map fun j => (l, j, if osmMasked kx l (c0 + j) then 0 else f l (c0 + j))
         let sts := osmStores w d (vals.map fun v => (v.1 - r0, v.2.1,
           (bf16.enc (rndW w) false (osmDraw kx w d (v.1 - r0) v.2.1) (fp32.dec v.2.2)).bits))
         osmDest d = .ok () → inside k sts = true →
         exec i s = .next (s.went t r 0x55 w ((vals.foldl (fun tl v => tl.accSet w.sa.toNat v.1 (c0 + v.2.1) v.2.2)
           (storeAll k sts tl)).vuBusy (4 + ceilDiv (rows.length * n) per)))))

/-- TRECV takes the oldest post entry into four scalar registers, and stalls while there is none; TSIG puts a value into a core's
inbox once every earlier instruction has completed and the inbox has room (R111 to R113). The tidy cores' own rows complete: a
post that a store to POST3 commits, the two inbox loads, and the accesses to the scratch and to the cistern window (R110, R111,
R113). A full ring leaves the store undone. -/
def Obligations.TidyCores : Prop :=
  (∀ (s : State) (t : Nat) (w : IWord) (r : Run) (k : LKernel), (s.tile t).running = some (r, k) →
     (s.canIssue t 0x76 w 0 = true →
       let tl := s.issuing t r 0x76
       (tl.post = [] → exec (.trecv t w) s = .next (s.setTile t tl)) ∧
       (∀ e0 e1 e2 e3 rest, tl.post = [e0, e1, e2, e3] :: rest → r.jmode = 0 → spWf dTile s.tiles = true →
         let u := { tl with post := rest, run := some { r with effects := true } }; let y := tl.ctx r.ctx; let d := w.dst.toNat
         exec (.trecv t w) s = .next (((s.setTile t tl).setTile t { tl with post := rest }).went t r 0x76 w
           ((((u.setCtx r.ctx (y.sSet d e0)).upd (s.seen t r k 0x76 w) (·.sSet (d + 1) e1)).upd (s.seen t r k 0x76 w)
             (·.sSet (d + 2) e2)).upd (s.seen t r k 0x76 w) (·.sSet (d + 3) e3))))) ∧
     (s.canIssue t 0x75 w 0 = true →
       let tl := s.issuing t r 0x75; let c := fld w.imm.toNat 1 0; let q := tl.inboxOf c
       (∀ e ∈ tl.outstanding, tl.issued ≤ e.seq + 1) → q.length < 8 →
       exec (.tsig t w) s = .next (s.went t r 0x75 w
         { tl with inbox := spSet dInbox tl.inbox c (q ++ [(tl.ctx r.ctx).sGet w.sa.toNat])
                   run := tl.run.map fun r => { r with effects := true } }))) ∧
  (∀ (s : State) (t core : Nat), core < 4 →
     let tl := s.tile t; let q := tl.inboxOf core
     (∀ n v, n < 3 → exec (.tidyPost t core n v) s =
       .next (s.setTile t { tl with latch := spSet dW64 tl.latch (4 * core + n) v })) ∧
     (∀ v, let l := spSet dW64 tl.latch (4 * core + 3) v
       exec (.tidyPost t core 3 v) s = .next (if 16 ≤ tl.post.length then s else s.setTile t { tl with latch := l, post := tl.post ++
         [[spGet dW64 l (4 * core), spGet dW64 l (4 * core + 1), spGet dW64 l (4 * core + 2), spGet dW64 l (4 * core + 3)]] })) ∧
     exec (.tidyInboxRead t core true) s = .next (s.emit (.tidy t core false (leBytes 8 q.length))) ∧
     exec (.tidyInboxRead t core false) s = .next ((s.setTile t { tl with inbox := spSet dInbox tl.inbox core q.tail }).emit
       (.tidy t core false (leBytes 8 (q.headD 0).toNat))) ∧
     (∀ a n, a + n ≤ 65536 → exec (.tidyCisternAccess t core a n none) s =
       .next (s.emit (.tidy t core false (spRead dByte tl.scratch (65536 * core + a) n)))) ∧
     (∀ a n bs, a + bs.length ≤ 65536 → exec (.tidyCisternAccess t core a n (some bs)) s =
       .next (s.setTile t { tl with scratch := spWrite dByte tl.scratch (65536 * core + a) bs })) ∧
     (∀ o n c, tl.act = some c → 0 < n → o + n ≤ ctxSize tl c → badWords tl (ctxBase tl c + o) n = [] →
       exec (.tidyCisternAccess t core (0x10000000 + o) n none) s =
         .next (s.emit (.tidy t core false (tl.cisBytes (ctxBase tl c + o) n)))) ∧
     (∀ o n c bs, tl.act = some c → o + bs.length ≤ ctxSize tl c →
       exec (.tidyCisternAccess t core (0x10000000 + o) n (some bs)) s = .next (s.setTile t (tl.cisPut (ctxBase tl c + o) bs))))

/-! ### The flume and memory -/

/-- FCFG, FGO, FWAIT, FSTOP and FREL complete (R259 to R264): FCFG of a channel that does not run sets it up when its checks pass,
FGO starts its stream with the overrides of its FN, FWAIT completes once the channel has ended or its slot is flagged, FSTOP
once nothing of the channel is in flight, and FREL releases the kernel's slot. A CRB of any of its three forms that finds a free
crumb entry takes the lowest one, and is outstanding from then on (R287). A cycle of the flume issues a waiting crumb before any
channel's request (R282), here the only thing there is to request: with its page not cached it is issued and waits for its walk. -/
def Obligations.FlumeInstructions : Prop :=
  (∀ (s : State) (t : Nat) (w : IWord) (r : Run) (k : LKernel), (s.tile t).running = some (r, k) →
     let n := fld w.imm.toNat 4 0
     (s.canIssue t 0x60 w 0 = true →
       let tl := s.issuing t r 0x60; let a := ((tl.ctx r.ctx).aGet w.sa.toNat).toNat
       let d := tl.cisBytes (k.cisOff + a) 256
       (tl.chan n).st ≠ 2 → a % 64 = 0 → readable tl k a 256 = true → fcfgFail k d = none →
       exec (.fcfg t w) s = .next (s.went t r 0x60 w
         (tl.setChan n { Chan.none with st := 1, desc := d, ring := (fdescOf d).ring, done := (tl.chan n).done }))) ∧
     (s.canIssue t 0x61 w 0 = true →
       let tl := s.issuing t r 0x61; let y := tl.ctx r.ctx; let c := tl.chan n; let x := y.sGet w.sa.toNat
       let units := if (fdescOf c.desc).mode = 1 then (if w.fn = 1 then x.toNat % 2 ^ 32 else (fdescOf c.desc).listCount)
         else (dimsOf c.desc).foldl (fun p d => p * d.1) 1
       let c' := c.begin (if w.fn = 0 then dfld c.desc 0x20 8 else x.toNat)
         (if w.fn = 2 then (y.sGet w.sb.toNat).toNat else dfld c.desc 0x70 8) units
       let u := (tl.setChan n c').upd (s.seen t r k 0x61 w) fun y =>
         ({ y with blk := { y.blk with started := setFld y.blk.started n n 1 } }).mark c'.isWrite
       (c.st = 1 ∨ c.st = 3 ∨ c.st = 4) → w.fn.toNat ≤ 2 → ((fdescOf c.desc).mode = 1 → w.fn ≠ 2 ∧ (fdescOf c.desc).kind = 0) →
       exec (.fgo t w) s = .next (s.went t r 0x61 w
         (if units = 0 then u.chanEnd k n 3 0 0 0 0 s.time
          else if c'.isWrite then u.settle k n s.time else u.pump k r.ctx n s.time))) ∧
     (s.canIssue t 0x62 w 0 = true →
       let tl := s.issuing t r 0x62; let c := tl.chan n
       c.st ≠ 0 → (w.fn = 0 → c.st ≠ 2) → (w.fn ≠ 0 → c.isWrite = false ∧ c.ring.flagged c.ring.kslot = true) →
       exec (.fwait t w) s = .next (s.went t r 0x62 w tl)) ∧
     (s.canIssue t 0x63 w 0 = true →
       let tl := s.issuing t r 0x63
       ((tl.chan n).st = 2 → ∀ f ∈ tl.flights, f.chan ≠ n) →
       exec (.fstop t w) s = .next (s.went t r 0x63 w (tl.stopped k n s.time))) ∧
     (s.canIssue t 0x65 w 0 = true →
       let tl := s.issuing t r 0x65; let c := tl.chan n; let g := c.ring
       (c.isWrite = false → g.flagged g.kslot = true → tl.ring k n = g →
         let u := tl.setRing k n (g.setSlot g.kslot 2).nextK; let y := u.ctx r.ctx
         exec (.frel t w) s = .next (s.went t r 0x65 w (u.setCtx r.ctx (y.mark (!(decide (n < 32) && bit y.blk.started n)))))) ∧
       (c.isWrite = true → c.st = 2 → g.flagged g.kslot = false →
         let u := (tl.setChan n { c with ring := (g.setSlot g.kslot 1).nextK }).settle k n s.time
         ¬ ((u.chan n).st = 2 ∧ (u.chan n).ring.flagged (u.chan n).ring.kslot = true) →
         exec (.frel t w) s = .next (s.went t r 0x65 w u)))) ∧
  (∀ (s : State) (t : Nat) (w : IWord) (x : W64) (r : Run) (k : LKernel), (s.tile t).running = some (r, k) →
     s.canIssue t 0x64 w x = true →
     let tl := s.issuing t r 0x64; let y := tl.ctx r.ctx; let len := fld w.imm.toNat 7 0 + 1
     let cis := (y.aGet w.sb.toNat).toNat; let addr := (y.aGet w.sa.toNat + x).toNat
     let u := tl.setCtx r.ctx (y.mark true)
     let c := { Crumb.none with st := 1, seq := (s.tile t).issued, hint := fld w.imm.toNat 9 8 }
     ∀ e, (List.range 32).find? (fun e => (tl.crumb e).st == 0) = some e →
     let out := fun i c => Host.Outcome.next (s.went t r 0x64 w ((u.setCrumb e c).pushQueue 3
       { s.entry t r i 0x64 w x with started := true, ref := 0x80 + e }))
     (w.fn = 0 → cis + len ≤ k.cisBytes → addr % 256 + len ≤ 256 →
       exec (.crbRead t w x) s = out (.crbRead t w x) { c with addr := addr, cis := k.cisOff + cis, len := len }) ∧
     (w.fn = 1 → readable u k cis len = true → addr % 256 + len ≤ 256 →
       exec (.crbWrite t w x) s = out (.crbWrite t w x)
         { c with write := true, addr := addr, cis := k.cisOff + cis, len := len, data := u.cisBytes (k.cisOff + cis) len }) ∧
     (w.fn = 2 → (y.aGet w.sa.toNat).toNat % 8 = 0 →
       exec (.crbWriteImmediate t w x) s = out (.crbWriteImmediate t w x)
         { c with write := true, addr := (y.aGet w.sa.toNat).toNat, cis := k.cisOff, len := 8, data := leBytes 8 x.toNat })) ∧
  (∀ (s : State) (t e : Nat) (r : Run) (k : LKernel),
     let tl := s.tile t; let c := tl.crumb e
     tl.running = some (r, k) → s.tileFrozen t = false → (List.range 32).filter (fun e => (tl.crumb e).st == 1) = [e] →
     tl.eligible k = [] → s.waits = [] → tl.wf = true → spWf dTile s.tiles = true →
     (∀ as, s.tileAs t r.ctx = some as → tl.cached as r.sel c.addr = none) →
     let u := (tl.setCrumb e { c with st := 2, t0 := s.time }).perf 0xA008 1
     exec (.flumeRequestGrant t) s = .next ((s.setTile t u).setTile t (u.perf 0x10 1)))

/-- Reads and writes of the flume that are answered complete (R265, R284, R287, R289): a channel's data waits for delivery into its
ring, a crumb's goes to the cistern, and an acknowledgement frees its tag; a released slot goes back to the flume (R277). A walk
that finds a device page gives the request of its tag the translation, and the tile's cache keeps it (R353, R359). -/
def Obligations.FlumeAnswers : Prop :=
  (∀ (s : State) (t tag : Nat) (r : Run) (k : LKernel) (f : Flight),
     let tl := s.tile t
     tl.kernel = some (r, k) → tl.flight tag = some f →
     (∀ data, f.ans = some (0, data) → f.write = false → f.chan < 32 →
       let u := (tl.dropFlight tag).perf 0x8020 ((s.time - f.t0) * tileMhz s t / 1000); let c := u.chan f.chan
       (c.st = 2 ∧ c.stopping = false) ∨ u.aborting = true →
       exec (.flumeReadResponse t tag) s = .next (s.setTile t ((u.setChan f.chan
         { c with stage := c.stage ++ [{ plane := f.plane, pos := f.pos, data := data }] }).pump k r.ctx f.chan s.time))) ∧
     (∀ data, f.ans = some (0, data) → f.write = false → 0x80 ≤ f.chan → r.jmode = 0 →
       exec (.flumeReadResponse t tag) s = .next (s.setTile t
         (((tl.dropFlight tag).cisPut (tl.crumb (f.chan - 0x80)).cis data).crumbDone (f.chan - 0x80)))) ∧
     (∀ data, f.ans = some (0, data) → f.write = true → f.chan < 32 →
       exec (.flumeWriteAck t tag) s = .next (s.setTile t (((tl.dropFlight tag).recommit f.chan).settle k f.chan s.time))) ∧
     (∀ data, f.ans = some (0, data) → f.write = true → 0x80 ≤ f.chan →
       exec (.flumeWriteAck t tag) s = .next (s.setTile t ((tl.dropFlight tag).crumbDone (f.chan - 0x80)))) ∧
     (∀ n slot, tl.running = some (r, k) → n < 32 → (tl.chan n).ring.sl.getD slot 0 = 2 →
       let u := tl.setChan n { tl.chan n with ring := (tl.chan n).ring.setSlot slot 0 }
       exec (.flumeSlotReclaim t n slot) s =
         .next (s.setTile t (if (tl.chan n).st = 2 then u.pump k r.ctx n s.time else u)))) ∧
  (∀ (s s1 : State) (t tag lvl : Nat) (r : Run) (k : LKernel) (f : Flight) (lf : Leaf),
     (s.tile t).run = some r → (s.tile t).flight tag = some f → f.leaf.kind = 0 → f.ans = none →
     (walk (s.tileAs t r.ctx) (s.tilePart t) r.sel f.addr).go s = (.ok (.ok (lf, lvl)), s1) →
     (s1.tile t).kernel = some (r, k) → spWf dTile s1.tiles = true → lf.kind = 3 → (if f.write then lf.w else lf.r) = true →
     let u := (s1.tile t).cache ((s.tileAs t r.ctx).getD 0) r.sel f.addr lvl lf
     exec (.addressWalk t tag) s = .next ((s1.setTile t u).setTile t (u.putFlight { f with leaf := lf })))

/-- The pool commands complete with the counts and the sequence that R241 gives them: OPEN of a closed sequence, RESERVE of no more
pages than are free, UNRESERVE, and CLOSE of a sequence whose page table lists no page. A RESERVE of more pages than are free
changes nothing and ends with KVP_RESERVE_FAIL. A pool register takes its owner's write while EN is 0; setting EN leaves the
pool with every page free and every sequence closed (R236). KVW writes its tokens in order, each with its events counted, and
KVT writes the page list of its logical pages (R245, R248). -/
def Obligations.Pools : Prop :=
  (∀ (s s1 s2 s3 : State) (q : Nat) (c : QCmd),
     let n := c.f 1 1; let sq := c.f 4 4; let v := s1.queueView q 3; let e := s1.kvSeq n sq; let (u, r) := s1.kvUse n
     let entries := s1.rf (kvReg n 0) 55 48
     ((takeCmd q 0x10).gives s c s1 → (kvCheck (s1.qPart q) n sq false).gives s1 () s1 →
       c.zero 2 2 = true → c.zero 0xC 4 = true → c.zero 0x18 40 = true → c.f 0x10 8 % 64 = 0 →
       (forAll (List.range (entries * c.f 8 4)) fun i => kvPut v (c.f 0x10 8 + 8 * i) (leBytes 8 0)).gives s1 () s2 →
       (kvSetSeq v n sq { isOpen := true, maxpg := c.f 8 4, ptBase := c.f 0x10 8, reserved := 0, inUse := 0, tokens := 0 }).gives
         s2 () s3 →
       ∀ s4, (completeWith q c.seqno 0x10 0 0).gives ((kvCounts n (s3.kvUse n).1 (s3.kvUse n).2).next s3) () s4 →
         exec (.kvOpen q) s = .next s4) ∧
     ((takeCmd q 0x11).gives s c s1 → (kvCheck (s1.qPart q) n sq true).gives s1 () s1 →
       c.zero 2 2 = true → c.zero 0xC 52 = true → 0 < c.f 8 4 →
       (c.f 8 4 ≤ s1.kvFree n → (kvSetSeq v n sq { e with reserved := e.reserved + c.f 8 4 }).gives s1 () s2 →
         let s3 := (kvCounts n u (r + c.f 8 4)).next s2
         ∀ s4, (completeWith q c.seqno 0x11 0 (s3.kvFree n)).gives s3 () s4 → exec (.kvReserve q) s = .next s4) ∧
       (s1.kvFree n < c.f 8 4 → (completeWith q c.seqno 0x11 0x610 (s1.kvFree n)).gives s1 () s2 →
         exec (.kvReserve q) s = .next s2)) ∧
     ((takeCmd q 0x12).gives s c s1 → (kvCheck (s1.qPart q) n sq true).gives s1 () s1 → c.zero 2 2 = true → c.zero 0xC 52 = true →
       let k := min (c.f 8 4) e.reserved
       (kvSetSeq v n sq { e with reserved := e.reserved - k }).gives s1 () s2 →
       (completeWith q c.seqno 0x12 0 0).gives ((kvCounts n u (r - k)).next s2) () s3 → exec (.kvUnreserve q) s = .next s3) ∧
     ((takeCmd q 0x13).gives s c s1 → (kvCheck (s1.qPart q) n sq true).gives s1 () s1 → c.zero 2 2 = true → c.zero 8 56 = true →
       entries * e.maxpg = 0 → (kvSetSeq v n sq .none).gives s1 () s2 →
       (completeWith q c.seqno 0x13 0 0).gives ((kvCounts n (u - e.inUse) (r - e.reserved)).next s2) () s3 →
         exec (.kvClose q) s = .next s3)) ∧
  (∀ (s : State) (n i v : Nat) (o : Origin),
     let off := kvReg n (8 * i)
     n < 64 → i < 4 → s.heard o off = true → s.rb (kvReg n 0) 63 = false →
     (o.isDrd || o.owns (if i = 0 then fld v 62 60 else s.rf (kvReg n 0) 62 60)) = true →
     let s1 := (s.noted o off v).putAt off (keepBits v (kvMask i))
     exec (.kvpPoolCfgWrite n i v o) s = .next (if i = 0 ∧ bit v 63 = true
       then (kvCounts n 0 0).next { s1 with pools := spSet dKvPool s1.pools n (dKvPool n) } else s1)) ∧
  (∀ (s s1 : State) (t : Nat) (w : IWord) (x : W64) (r : Run) (k : LKernel) (v : View) (n : Nat), (s.tile t).running = some (r, k) →
     (s.canIssue t 0x57 w x = true →
       let tl := s.issuing t r 0x57; let kx := s.seen t r k 0x57 w; let y := tl.ctx r.ctx; let s0 := s.setTile t tl
       let count := (y.sGet w.sc.toNat).toNat; let sq := (y.sGet w.sa.toNat).toNat; let per := s0.kvHeads n * 512
       (kvBound kx w sq).gives s0 (v, n) s0 → 1 ≤ count → count ≤ 256 → readable tl k (specCis y (specA x)) (per * count) = true →
       (forAll (List.range count) (kvwToken t r.ctx v n sq (fld w.imm.toNat 23 16) (fld w.imm.toNat 5 4) (y.sGet w.sb.toNat).toNat
         per (tl.cisBytes (k.cisOff + specCis y (specA x)) (per * count)))).gives s0 () s1 →
       exec (.kvw t w x) s = .next (s1.went t r 0x57 w (s1.tile t))) ∧
     (s.canIssue t 0x58 w x = true →
       let tl := s.issuing t r 0x58; let kx := s.seen t r k 0x58 w; let y := tl.ctx r.ctx; let s0 := s.setTile t tl
       let count := (y.sGet w.sc.toNat).toNat; let sq := (y.sGet w.sa.toNat).toNat; let dst := specCis (tl.ctx r.ctx) (specA x)
       (kvBound kx w sq).gives s0 (v, n) s0 → 1 ≤ count → count ≤ 128 →
       ∀ es, ((List.range count).mapM fun i => kvtEntry v n sq (fld w.imm.toNat 23 16) ((y.sGet w.sb.toNat).toNat + i)).gives s0 es s1 →
         dst + es.flatten.length ≤ k.cisBytes →
         exec (.kvt t w x) s = .next (s1.went t r 0x58 w ((s1.tile t).cisPut (k.cisOff + dst) es.flatten))))

/-- The counts of a pool after a command (R237, R238): IN_USE, RESERVED and FREE, and EPOCH advanced by one; nothing else changes. -/
def Obligations.PoolCounts : Prop :=
  ∀ (s : State) (n u r : Nat), n < 64 → spWf regInit s.regs = true → u < 2 ^ 28 → r < 2 ^ 28 →
    let s' := (kvCounts n u r).next s
    s'.kvUse n = (u, r) ∧ s'.kvFree n = s.kvPages n - u - r ∧
    s'.rf (kvReg n 0x20) 63 32 = (s.rf (kvReg n 0x20) 63 32 + 1) % 2 ^ 32 ∧ { s' with regs := s.regs } = s ∧
    ∀ off, off ≠ kvReg n 0x20 → off ≠ kvReg n 0x28 → s'.reg off = s.reg off

/-- A corrected word of the cistern is written back and counted, and the scrubber of a bank goes on to its next line (R307, R310,
R312). A request that finds nothing of its line waiting is served when its hub can serve it, and otherwise waits there (R315,
R336, R375). A request that the headgate denies is answered with a denial and counted, and touches no memory (R670, R672).
Refresh leaves the contents of memory, and everything else the model holds, as they are (R332). A refill gives every weir of the
hub its tokens up to its burst, under the configuration that then takes effect, and clears the units it has counted; a weir
whose new configuration obeys R338 takes its write (R335, R337, R338). A maintenance operation that starts writes every dirty
line of its hub back, an invalidation drops the hub's lines as well, and its end moves BUSY to DONE (R324, R325). -/
def Obligations.CisternAndHubs : Prop :=
  (∀ (s : State) (t : Nat), spWf dTile s.tiles = true →
     let tl := s.tile t
     (∀ word, spGet dBool tl.soft word = true →
       let (bank, line) := cisBankLine word; let key := bank * 65536 + line
       spGet dNat tl.lineCe key + 1 ≠ 16 →
       let v := (tl.reg 0xB000).toNat
       let u := { tl with soft := spSet dBool tl.soft word false }.setReg 0xB000
         (BitVec.ofNat 64 (setFld v 31 0 (min (fld v 31 0 + 1) (2 ^ 32 - 1))))
       exec (.cisEccWriteback t word) s =
         .next ((s.setTile t u).setTile t { u with lineCe := spSet dNat tl.lineCe key (spGet dNat tl.lineCe key + 1) })) ∧
     (∀ bank, bank < 64 → s.tileUp t = true →
       let line := spGet dNat tl.scrub bank
       (∀ i, i < 8 → spGet dBool tl.soft (cisWordAt bank line i) = false ∧ spGet dBool tl.bad (cisWordAt bank line i) = false) →
       exec (.cisScrub t bank) s = .next (s.setTile t { tl with scrub := spSet dNat tl.scrub bank ((line + 1) % 12288) }))) ∧
  (∀ (s s1 : State) (r r' : HubReq),
     (∀ w ∈ s.waits, w.req.addr / 256 ≠ r'.addr / 256) →
     ((hubServe r').gives s () s1 →
       (s.fromFlight { r with write := false } = some r' → exec (.hubReadRequest r) s = .next s1) ∧
       (s.fromFlight { r with write := true } = some r' → exec (.hubWriteRequest r) s = .next s1)) ∧
     (((hubServe r').go s).1 = .error .wait →
       let s2 := { s with waits := s.waits ++ [{ why := s.waitCause r', req := r', since := s.time }] }
       (s.fromFlight { r with write := false } = some r' → exec (.hubReadRequest r) s = .next s2) ∧
       (s.fromFlight { r with write := true } = some r' → exec (.hubWriteRequest r) s = .next s2))) ∧
  (∀ (s : State) (r : HubReq) (c : Nat) (t : Nat), r.who = .tile t → s.headgate (.tile t) (s.tilePart t) r.write r.addr = some c →
     (hubServe r).gives s () ((s.deny (.tile t) (s.tilePart t) c r.addr r.addr).emit (.answer (.tile t) (if c = 1 then 3 else 2) []))) ∧
  (∀ (s : State) (site pch bank : Nat),
     exec (.hbmRefresh site pch bank) s = .next s ∧ exec (.hbmRefreshManagement site pch bank) s = .next s) ∧
  (∀ (s : State) (h : Nat), h < 4 →
     (s.waits = [] → exec (.weirRefill h) s = .next
       ((List.range 2).foldl (fun s set => (List.range 8).foldl (fun s p => s.refill h set p) s) s)) ∧
     (∀ set p, spWf regInit s.regs = true → spWf dW64 s.active = true → set < 2 → p < 8 → s.rf (weirCfg h set p) 47 24 < 2 ^ 23 →
       let c := s.rn (weirCfg h set p); let s' := s.refill h set p
       let add := if set = 0 ∧ bit c 63 then fld c 15 0 * s.hubCap h / 100 else fld c 15 0
       s'.weir h set p = c ∧ s'.rf (weirStat h set p) 47 24 = 0 ∧
       s'.tokens h set p = min (s.tokens h set p + (add : Int)) (fld c 47 24 : Int)) ∧
     (∀ set p v o, set < 2 → p < 8 → (set = 1 → s.nBoards ≠ 0) → s.heard o (weirCfg h set p) = true → bit v 63 = true →
       fld v 15 0 ≤ fld v 47 24 →
       ((List.range 8).filter (· ≠ p)).foldl (fun n q => n + if s.rb (weirCfg h set q) 63 then s.rf (weirCfg h set q) 15 0 else 0) 0 +
         fld v 15 0 ≤ s.weirCapacity h set →
       exec (.weirCfgWrite h set p v o) s =
         .next (s.putAt (weirCfg h set p) (keepBits v (maskBits 63 62 + maskBits 47 24 + maskBits 15 0))))) ∧
  (∀ (s s2 : State) (h : Nat) (o : Origin), h < 4 → s.rb (mscMaint h) 2 = false →
     let s1 (op : Nat) := (s.shadowing (mscMaint h) op).setF (mscMaint h) 2 2 1
     let flush := forAll (s.msc.filter fun e => e.2.dirty != 0) fun e => do
       if (← get).hubOf (e.1 * 256) = h then flushLine (e.1 * 256)
     (flush.gives (s1 1) () s2 → exec (.mscMaintWriteback h false o) s = .next s2) ∧
     (flush.gives (s1 2) () s2 → exec (.mscMaintInvalidate h false o) s =
       .next { s2 with msc := s2.msc.filter fun e => s2.hubOf (e.1 * 256) != h }) ∧
     (∀ s, s.rb (mscMaint h) 2 = true →
       exec (.mscMaintDone h) s = .next ((s.setF (mscMaint h) 2 2 0).setF (mscMaint h) 3 3 1)))

/-- An address space's registers take their owner's writes (R347, R358, R359): its configuration while it is not enabled; a selector
value while nothing else of it is under way, and the flip is then open until it is done; an invalidation, which drops the tiles'
cached translations of its pages, and is open until no request of theirs is. -/
def Obligations.AddressSpaces : Prop :=
  ∀ (s : State) (n v : Nat) (o : Origin), n < 64 →
    (s.heard o (asReg n 0) = true → s.rb (asReg n 0) 63 = false → o.mine (fld v 62 60) = true →
      exec (.hgtAsCfgWrite n v o) s = .next ((s.noted o (asReg n 0) v).putAt (asReg n 0)
        (keepBits v (maskBits 63 60 + maskBits 41 12)))) ∧
    (s.heard o (asReg n 0x10) = true → o.mine (s.rf (asReg n 0) 62 60) = true → s.asBusy n = false → s.rn (asReg n 0x28) = 0 →
      s.rn (asReg n 0x30) = 0 →
      exec (.hgtVselWrite n v o) s = .next (((s.noted o (asReg n 0x10) v).putAt (asReg n 0x10) v).setF (asReg n 0x20) 1 1 1)) ∧
    exec (.vselFlipDone n) s = .next (s.setF (asReg n 0x20) 1 1 0) ∧
    (s.heard o (asReg n 0x18) = true → o.mine (s.rf (asReg n 0) 62 60) = true → s.asBusy n = false →
      exec (.hgtInvalWrite n v o) s = .next ((((s.noted o (asReg n 0x18) v).shadowing (asReg n 0x18) v).dropTlb fun e =>
        e.as == n && pagesMeet (fld v 31 0) (fld v 63 32) e.vpn e.span).setF (asReg n 0x20) 0 0 1)) ∧
    (s.stale n = false → exec (.invalidationDone n) s = .next (s.setF (asReg n 0x20) 0 0 0))

/-- A translation faults with AS_INVALID, cause 1, when the binding has V = 0, or names an address space that is not in service or
is another partition's (R349). -/
def Obligations.InvalidAddressSpaces : Prop :=
  ∀ (s : State) (part sel va : Nat), (walk none part sel va).gives s (.error (1, 0)) s ∧
    ∀ n, s.rb (asReg n 0) 63 = false ∨ s.rf (asReg n 0) 62 60 ≠ part → (walk (some n) part sel va).gives s (.error (1, 0)) s

/-- The frame operations complete when their frames pass the checks of R374 (R373, R376 to R378): FREE makes a MOVED frame PRESENT,
ATTR sets the pin of each frame, UNMIRROR ends the mirrors of its frames, MIRROR makes pairs and copies every sector, and SCAN
writes the frames' dirty bits. A move that passes its checks makes both frames MIGRATING and is under way (R374, R375); its end
copies the frame, forwards the old one to the new and completes the command, with no page-table entry to rewrite here. -/
def Obligations.PageFrames : Prop :=
  (∀ (s s1 s2 s3 : State) (q : Nat) (c : QCmd),
     let p := s1.qPart q; let n := c.f 4 4; let fs := frameRun (c.f 8 8) n
     (let a := c.f 8 8; let f := s1.frame (frameOf a)
      (takeCmd q 0x21).gives s c s1 → c.zero 1 7 = true → c.zero 0x10 48 = true → s1.migFrames p [a] = none → f.state = 2 →
       (completeWith q c.seqno 0x21 0 0).gives ((s1.dropFrame (frameOf a)).setFrame (frameOf a) { f with state := 0, fwd := 0 }) () s2 →
       exec (.migFree q) s = .next s2) ∧
     ((takeCmd q 0x24).gives s c s1 → c.zero 2 2 = true → c.zero 0x10 48 = true → c.f 1 1 ≤ 1 → 1 ≤ n → n ≤ 65536 →
       s1.migFrames p fs = none →
       (completeWith q c.seqno 0x24 0 0).gives (fs.foldl (fun s a =>
         s.setFrame (frameOf a) { s.frame (frameOf a) with pin := c.f 1 1 == 1 }) s1) () s2 →
       exec (.migAttr q) s = .next s2) ∧
     ((takeCmd q 0x23).gives s c s1 → c.zero 1 3 = true → c.zero 0x10 48 = true → 1 ≤ n → n ≤ 65536 → s1.migFrames p fs = none →
       (∀ a ∈ fs, (s1.frame (frameOf a)).state ≠ 1 ∧ (s1.frame (frameOf a)).state ≠ 2 ∧ (s1.frame (frameOf a)).shared = false) →
       (completeWith q c.seqno 0x23 0 0).gives (fs.foldl (fun s a =>
         let f := s.frame (frameOf a)
         if f.mirror then (s.setFrame f.mframe { s.frame f.mframe with mcopy := false, mframe := 0 }).setFrame (frameOf a)
           { f with mirror := false, mstale := 0, mframe := 0 } else s) s1) () s2 →
       exec (.migUnmirror q) s = .next s2) ∧
     (let ms := frameRun (c.f 0x10 8) n
      (takeCmd q 0x22).gives s c s1 → c.zero 1 3 = true → c.zero 0x18 40 = true → 1 ≤ n → n ≤ 65536 → c.f 0x10 8 ≠ 0 →
       s1.migFrames p (fs ++ ms) = none → (∀ x ∈ fs.zip ms, s1.hubOf x.1 = s1.hubOf x.2 ∧ weirSet x.1 ≠ weirSet x.2) →
       (∀ a ∈ fs, (s1.frame (frameOf a)).state = 0 ∧ (s1.frame (frameOf a)).mirror = false ∧ (s1.frame (frameOf a)).mcopy = false) →
       (∀ a ∈ ms, let f := s1.frame (frameOf a)
         f.state = 0 ∧ f.pin = false ∧ f.mirror = false ∧ f.mcopy = false ∧ f.shared = false) →
       (forAll fs (syncMirror p)).gives ((fs.zip ms).foldl (fun s x =>
         (s.setFrame (frameOf x.1) { s.frame (frameOf x.1) with mirror := true, mstale := 0xFFFF, mframe := frameOf x.2 }).setFrame
           (frameOf x.2) { s.frame (frameOf x.2) with mcopy := true, mframe := frameOf x.1 }) s1) () s2 →
       (completeWith q c.seqno 0x22 0 0).gives s2 () s3 → exec (.migMirror q) s = .next s3) ∧
     (let buf := c.f 0x10 8; let bs := fs.flatMap fun a => leBytes 2 (s1.frame (s1.scanFrame (frameOf a))).dirty
      (takeCmd q 0x25).gives s c s1 → c.zero 2 2 = true → c.zero 0x18 40 = true → c.f 1 1 = 0 → 1 ≤ n → n ≤ 65536 →
       s1.migFrames p (fs ++ frameRun buf (ceilDiv (2 * n) 65536)) = none →
       (∀ a ∈ fs, (s1.frame (s1.scanFrame (frameOf a))).state ≠ 1) →
       (∀ x ∈ pieces buf bs.length, s1.headgate (.queue q) p true x.1 = none) →
       (dpaWrite p 0 buf bs).gives s1 () s2 → (completeWith q c.seqno 0x25 0 0).gives s2 () s3 → exec (.migScan q) s = .next s3)) ∧
  ((∀ (s s1 : State) (q : Nat) (c : QCmd),
     let p := s1.qPart q; let src := c.f 8 8; let dst := c.f 0x10 8
     let a := s1.frame (frameOf src); let b := s1.frame (frameOf dst)
     (takeCmd q 0x20).gives s c s1 → c.zero 1 7 = true → c.zero 0x38 8 = true → src ≠ dst → s1.migFrames p [src, dst] = none →
     s1.hubOf src = s1.hubOf dst →
     (∀ f ∈ [a, b], f.state = 0 ∧ f.pin = false ∧ f.mirror = false ∧ f.mcopy = false ∧ f.shared = false) →
     (s1.moves.filter fun m => s1.hubOf (m.src * 65536) == s1.hubOf src).length < 16 →
     s1.snapNames (frameOf src) = false → s1.snapNames (frameOf dst) = false →
     let s2 := (s1.setFrame (frameOf src) { a with state := 1 }).setFrame (frameOf dst) { b with state := 1 }
     let m : Move :=
       { queue := q, seqno := c.seqno, part := p, src := frameOf src, dst := frameOf dst
         ptes := [c.f 0x18 8, c.f 0x20 8, c.f 0x28 8, c.f 0x30 8] }
     exec (.migMove q) s = .next { s2 with moves := s2.moves ++ [m] }) ∧
   (∀ (s s1 s2 s3 s4 : State) (src : Nat) (m : Move),
     s.moves.find? (fun m => m.src == src) = some m → m.ptes = [0, 0, 0, 0] →
     (engineCopy m.part (m.src * 65536) (m.dst * 65536) 65536).gives s () s1 →
     (forAll (List.range 256) fun i => purgeLine (m.src * 65536 + 256 * i)).gives s1 () s2 →
     let u := s2.dropFrame m.src; let f := u.frame m.src
     let u' := u.setFrame m.dst { u.frame m.dst with state := 0, dirty := f.dirty }
     let u'' := { u'.setFrame m.src { f with state := 2, fwd := m.dst } with moves := u'.moves.erase m }
     releaseWaits.gives u'' () s3 →
     (completeWith m.queue m.seqno 0x20 0 0).gives (s3.perf (hubReg (s3.hubOf (m.src * 65536)) 0x30100) 1) () s4 →
     exec (.migMoveDone src) s = .next s4))

/-! ### Launches and the training step -/

/-- LOAD completes with the kernel's handle when its checks pass, UNLOAD frees what the kernel held on every tile of its group, and
LAUNCH is accepted behind the launches before it (R117 to R122). A LOAD stops at the first check that fails, and what it answers
names that check: a header that is not one, a wrong ABI version, a tile of another partition, a tile count out of range, a
context that is not enabled (R117, R118). -/
def Obligations.Kernels : Prop :=
  (∀ (s s1 s2 s3 : State) (q : Nat) (c : QCmd),
     let ctx := s1.rf (qReg q 0) 49 48
     (∀ ext h, (takeCmd q 2).gives s c s1 → c.zero 2 6 = true → c.zero 0x18 40 = true → c.f 1 1 = ctx →
       s1.tilesBlock q (c.f 8 8) true = 0 → (loadKernel q (c.f 1 1) (c.f 8 8) (c.f 0x10 8) ext).gives s1 (0, h) s2 →
       (complete q c.seqno (recordBytes c.seqno 0 2 0xFF 0 0 h s2.time)).gives s2 () s3 → exec (.load q ext) s = .next s3) ∧
     (∀ k, (takeCmd q 3).gives s c s1 → c.zero 1 3 = true → c.zero 8 56 = true → s1.kernelOf q (c.f 4 4) = some k →
       Nat.land k.group (s1.rn (qReg q 8)) = k.group → (∀ l ∈ s1.launches, l.handle = c.f 4 4 → l.part ≠ s1.qPart q) →
       (slcCancel fun p => p.handle == c.f 4 4).gives s1 () s2 →
       (completeWith q c.seqno 3 0 0).gives ((tilesOf k.group).foldl (fun s t =>
         let tl := s.tile t
         let maps := ((findKernel (tl.ctx ctx) (c.f 4 4)).map (·.sfuMap)).getD []
         let u := { tl with sfu := maps.foldl (fun m i => spSet dSfu m i .none) tl.sfu }
         s.setTile t (u.setCtx ctx { u.ctx ctx with kernels := (u.ctx ctx).kernels.filter fun k => k.handle != c.f 4 4 })) s2) () s3 →
       exec (.unload q) s = .next s3) ∧
     (∀ k, (takeCmd q 1).gives s c s1 → c.zero 1 3 = true → c.zero 0x1C 36 = true → c.f 8 8 % 64 = 0 →
       s1.kernelOf q (c.f 4 4) = some k → s1.tilesBlock q k.group false = 0 →
       let l : Launch :=
         { id := s1.nextId, queue := q, seqno := c.seqno, part := s1.qPart q, ctx := ctx, handle := k.handle, mask := k.group
           args := c.f 8 8, tag := c.f 0x10 8, timeout := c.f 0x18 4, phase := 0, sels := [], flush := [], t0 := 0 }
       exec (.launch q) s = .next { s1 with launches := s1.launches ++ [l], nextId := s1.nextId + 1 })) ∧
  (∀ (s s1 : State) (q c mask image : Nat) (ext : Option (List Byte)) (h : List Byte),
     let ts := tilesOf mask; let f := fun off n => leNat ((h.drop off).take n)
     (vaRead (s.cmdView q (ts.headD 0)) 0 image 128 ext).gives s (.ok h) s1 →
     let ends := fun code d => (loadKernel q c mask image ext).gives s (code, d) s1
     (hdrOk h = false → ends 0x301 0) ∧
     (hdrOk h = true → f 6 2 ≠ 1 → ends 0x302 0) ∧
     (hdrOk h = true → f 6 2 = 1 →
       (∀ t, ts.find? (fun t => s.tilePart t != s.qPart q) = some t → ends 0x303 (t * 2 ^ 24)) ∧
       ((∀ t ∈ ts, s.tilePart t = s.qPart q) →
         (ts.length < f 0x20 1 ∨ f 0x21 1 < ts.length → ends 0x304 0) ∧
         (f 0x20 1 ≤ ts.length → ts.length ≤ f 0x21 1 → ∀ t, ts.find? (fun t => !bit (ctxCfg (s.tile t) c) 63) = some t →
           ends 0x305 (t * 2 ^ 24)))))

/-- A queued launch whose tiles are all ready starts on every one of them at its kernel's entry, and then reads its arguments (R80,
R124). Once every tile of a launch has ended and drained, with nothing written to host memory, its record is written and its
tiles are free (R126, R129, R130); a launch whose tiles wrote host memory first sends a flush read on each of those ports
(R559). A launch that runs past its timeout is aborted with TIMEOUT on every tile that still runs it; the other tiles keep how
they ended (R128). -/
def Obligations.Launches : Prop :=
  (∀ (s s2 : State) (id : Nat) (ext : Option (List Byte)) (l : Launch),
     let ts := tilesOf l.mask
     s.launch id = some l → l.phase = 0 → ts.all (s.startOk l) = true →
     (∀ t ∈ ts, s.tileUp t = true ∧ s.tileFrozen t = false ∧ ((s.tile t).ctx l.ctx).poison = false) →
     let sels := ts.map fun t => (t, s.vsel (s.tileAs t l.ctx))
     let s1 := ts.foldl (fun u t =>
       match findKernel ((u.tile t).ctx l.ctx) l.handle with
       | none => u
       | some k => u.setTile t ((u.tile t).begin l k (((sels.find? fun e => e.1 == t).map Prod.snd).getD 0) (s.jrnMode l.part)
           (s.rf (jrnReg l.part 0x10) 31 0) u.time)) s
     (forAll ts fun t => readArgs l t ext).gives (s1.setLaunch { l with phase := 1, sels := sels, t0 := s1.time }) () s2 →
     exec (.launchStart id ext) s = .next s2) ∧
  (∀ (s s1 : State) (id : Nat) (l : Launch),
     let ts := tilesOf l.mask
     s.launch id = some l → l.phase = 1 → (∀ t ∈ ts, (s.tile t).drained = true) →
     let ports := ts.foldl (fun m t => Nat.lor m (((s.tile t).run.map (·.ports)).getD 0)) 0
     let ps := (List.range 4).filter fun p => bit ports p && s.rb (flushReg p l.part) 7
     (ps = [] → (launchEnd l).gives s () s1 → exec (.launchComplete id) s = .next s1) ∧
     (ps ≠ [] → (forAll ps fun p => do
         let s ← get
         let r := s.rn (flushReg p l.part)
         sendHostRead (.queue l.queue) p (fld r 5 0) (fld r 63 8 * 256) 0).gives
         (s.setLaunch { l with phase := 2, flush := (List.range ps.length).map fun i => s.nextId + i }) () s1 →
       exec (.launchComplete id) s = .next s1)) ∧
  (∀ (s : State) (id : Nat) (l : Launch), s.launch id = some l → l.phase = 1 → l.timeout ≠ 0 → l.t0 + 1000 * l.timeout ≤ s.time →
     exec (.watchdogExpiry id) s = .next ((tilesOf l.mask).foldl (fun s t =>
       if (s.tile t).running.isSome then s.setTile t ((s.tile t).abortTask 0x326 0 s.time) else s) s))

/-- A tile that starts a launch has the registers of R80: every register of the context 0, its length masks all open, the program
counter at the kernel's entry, and its queues and channels empty. -/
def Obligations.LaunchRegisters : Prop :=
  ∀ (tl : Tile) (l : Launch) (k : LKernel) (sel jm js now : Nat), tl.wf = true →
    let u := tl.begin l k sel jm js now; let x := u.ctx l.ctx
    x.pc = k.entry ∧ x.loops = [] ∧ (∀ n, x.sGet n = 0 ∧ x.aGet n = 0 ∧ x.tdGet n = 0) ∧ (∀ n, n ≠ 0 → x.pGet n = 0) ∧
    x.lenM = 0x7FFFFFFF ∧ x.lenN = 0x7FFFFFFF ∧ x.lenK = 0x7FFFFFFF ∧ x.mePad = 0 ∧
    u.queues = [] ∧ u.chans = [] ∧ u.crumbs = [] ∧ u.flights = [] ∧ u.cis = tl.cis ∧ u.v = tl.v ∧ u.acc = tl.acc ∧ u.st = tl.st ∧
    x.kernels = (tl.ctx l.ctx).kernels ∧ ∀ c, c ≠ l.ctx → u.ctx c = tl.ctx c

/-- A context switch is accepted behind those before it; on a tile with nothing running it saves the active context and tells tidy
core 0; and after the core's acknowledgement the new context is restored and becomes active (R132 to R134). Without an
acknowledgement in 40 µs the switch goes on without it. The registers that configure a tile's contexts take their owner's writes
within the rules (R77, R348): SEQ_CTX_CFGc when its region is legal and the context idle, TIL_CTX_AS when no context in use
changes its binding. -/
def Obligations.Contexts : Prop :=
  (∀ (s s1 : State) (q t : Nat) (c : QCmd),
     let tl := s.tile t
     ((takeCmd q 4).gives s c s1 → c.zero 2 6 = true → c.zero 0x10 48 = true → c.f 1 1 < 4 → s1.tilesBlock q (c.f 8 8) false = 0 →
       c.f 8 8 ≠ 0 →
       let w : CtxCmd := { id := s1.nextId, queue := q, seqno := c.seqno, ctx := c.f 1 1, todo := c.f 8 8 }
       exec (.ctxSwitch q) s = .next { s1 with switches := s1.switches ++ [w], nextId := s1.nextId + 1 }) ∧
     (∀ w, s.nextSwitch t = some w → tl.run = none → tl.switch = none →
       (∀ l ∈ s.launches, l.id < w.id → bit l.mask t = true → tl.act ≠ some l.ctx) → s.tileFrozen t = false → tl.act ≠ some w.ctx →
       let u := match tl.act with
         | none => tl
         | some a => { tl.save a with chans := [] }
       let u' := (u.toInbox 0 (BitVec.ofNat 64 (0xC0 + w.ctx))).getD u
       exec (.ctxSwitchEffect t) s =
         .next (s.setTile t { u' with switch := some { cmd := w.id, dest := w.ctx, step := 3, t0 := s.time } })) ∧
     (∀ w i, tl.switch = some w → w.step = 3 → tl.post.findIdx? (isHookAck w.dest) = some i →
       let s2 := s.setTile t { tl.restore t w.dest with post := tl.post.eraseIdx i, act := some w.dest, switch := none, tlb := [] }
       ∀ d, s2.switches.find? (fun c => c.id == w.cmd) = some d → (switchDone d t).gives s2 () s1 →
         exec (.ctxSwitchFinish t) s = .next s1) ∧
     (∀ w, tl.switch = some w → w.step = 3 → w.t0 + 40000 ≤ s.time → (∀ e ∈ tl.post, isHookAck w.dest e = false) →
       exec (.hookTimeout t) s = .next (s.setTile t { tl.setReg 0x1020 (BitVec.ofNat 64 (setFld (tl.reg 0x1020).toNat 33 33 1)) with
         switch := some { w with step := 4 } }))) ∧
  (∀ (s : State) (t c v : Nat) (o : Origin), s.tileUp t = true → o.mine (s.tilePart t) = true →
     let tl := s.tile t
     (let new := keepBits v (maskBits 63 63 + maskBits 29 16 + maskBits 13 0); let off := tileReg t (0x1000 + 8 * c)
      c < 4 → s.heard o off = true → tl.cfgOk c new = true →
       let u := tl.setReg (0x1000 + 8 * c) (BitVec.ofNat 64 new)
       exec (.seqCtxCfgWrite t c v o) s = .next ((s.noted o off v).setTile t
         (if bit new 63 = true ∧ bit (ctxCfg tl c) 63 = false then u.setCtx c { u.ctx c with poison := false, saved := false } else u))) ∧
     (let new := keepBits v 0xBFBFBFBF
      s.heard o (tileReg t 0) = true →
       (∀ c, c < 4 → tl.inUse c = true → fld new (8 * c + 7) (8 * c) = fld (tl.reg 0).toNat (8 * c + 7) (8 * c)) →
       exec (.tilCtxAsWrite t v o) s = .next ((s.noted o (tileReg t 0) v).setTile t (tl.setReg 0 (BitVec.ofNat 64 new)))))

/-- What a context switch saves comes back when the context is restored: the vector registers, accumulators and row statistics
(R133, R135). -/
def Obligations.SaveRestores : Prop :=
  ∀ (tl : Tile) (t c a : Nat), tl.wf = true → saveAt tl c = some a →
    let u := (tl.save c).restore t c
    (∀ r l, r < 64 → l < 256 → u.vGet r l = tl.vGet r l) ∧
    (∀ b m n, b < 4 → m < 256 → n < 128 → u.accGet b m n = tl.accGet b m n) ∧
    (∀ r l, r < 4 → l < 256 → u.stGet r l = tl.stGet r l)

/-- SLC opens its operation when the checks of R396 pass, SLCW writes the record of a slot whose operation has ended, and SLC_POST
opens an operation of its queue (R392, R396, R397, R399, R415). SLC checks its descriptor before anything is posted, in the
order of R396: a descriptor that is not one, a range outside the allocation, a communicator that is not the tile's, a slot that
is posted. The first failure aborts the task. Setting EN of a communicator whose record passes R389 puts it in service with
nothing open (R386, R389, R426); a record that cannot be read or breaks the rules leaves it out of service and sets CFG_ERR. -/
def Obligations.SluiceInstructions : Prop :=
  (∀ (s s1 s2 s3 : State),
     (∀ (t : Nat) (w : IWord) (x : W64) (r : Run) (k : LKernel), (s.tile t).running = some (r, k) →
       (s.canIssue t 0x70 w x = true →
         let tl := s.issuing t r 0x70; let s0 := s.setTile t tl
         let slot := slcPhys k (fld w.imm.toNat 3 0); let at' := specCis (tl.ctx r.ctx) (specA x)
         let bs := tl.cisBytes (k.cisOff + at') 128; let d := slcD bs; let key : OpKey := (d.comm, d.tag, d.step)
         let posts := ((s0.op key).map fun o => o.posts).getD []; let was := spGet dSlc tl.slc slot
         readable tl k at' 128 = true → slcDescOk bs = true → (∀ c, s0.comm d.comm = some c → slcCountOk c d = true) →
         slcRanges d (((s0.comm d.comm).map fun c => c.total d.stages).getD 1) k.cisBytes = true →
         s0.slcCommOk (s0.tilePart t) (some t) d = true → d.late = false → was.state ≠ 1 →
         (∀ p ∈ posts, p.who = .tile t → p.ended = true ∧ p.kept = false) → s0.openOps < 256 → tl.run = some r →
         (slcOpen { who := .tile t, slot := slot, ctx := r.ctx, sel := r.sel, cisOff := k.cisOff, launch := r.launch
                    handle := k.handle, jmode := r.jmode, jstep := r.jstep, seqno := 0, desc := bs, t0 := s.time, ended := false
                    status := 0, detail := 0, flags := 0, got := [], taken := false, filled := 0, since := none, kept := false }).gives
           (s0.setTile t { tl with slc := spSet dSlc tl.slc slot { was with state := 1, tag := d.tag, ring := d.ringOf } }) () s1 →
         exec (.slc t w x) s = .next (s1.went t r 0x70 w (s1.tile t))) ∧
       (s.canIssue t 0x71 w x = true →
         let tl := s.issuing t r 0x71; let sl := slcPhys k (fld w.imm.toNat 3 0); let g := spGet dSlc tl.slc sl
         let rec' := if g.state = 0 then slcRecord 0xA09 sl 0 0 0 0 0 0 s.time else g.record
         let at' := specCis (tl.ctx r.ctx) (specA x)
         g.state ≠ 1 → at' + rec'.length ≤ k.cisBytes →
         exec (.slcw t w x) s = .next (s.went t r 0x71 w (tl.cisPut (k.cisOff + at') rec')))) ∧
     (∀ (q : Nat) (c : QCmd) (bs : List Byte),
       let v := s1.queueView q 2; let d := slcD bs; let key : OpKey := (d.comm, d.tag, d.step)
       let posts := ((s2.op key).map fun o => o.posts).getD []
       (takeCmd q 0x30).gives s c s1 → c.zero 1 7 = true → c.zero 0x10 48 = true → c.f 8 8 % 64 = 0 →
       (vaRead v 0 (c.f 8 8) 128 none).gives s1 (.ok bs) s2 → slcDescOk bs = true → d.srcCis = false → d.dstCis = false →
       d.ring = false → bit d.stages 0 = false → (∀ c, s2.comm d.comm = some c → slcCountOk c d = true) →
       s2.slcCommOk (s2.qPart q) none d = true → d.late = false → (∀ p ∈ posts, p.who = .queue q → p.ended = true) → s2.openOps < 256 →
       (slcOpen { who := .queue q, slot := 0xFF, ctx := 0, sel := v.sel, cisOff := 0, launch := 0, handle := 0, jmode := 0, jstep := 0
                  seqno := c.seqno, desc := bs, t0 := s2.time, ended := false, status := 0, detail := 0, flags := 0, got := []
                  taken := false, filled := 0, since := none, kept := false }).gives s2 () s3 →
       exec (.slcPost q) s = .next s3)) ∧
  (∀ (s : State) (t : Nat) (w : IWord) (x : W64) (r : Run) (k : LKernel), (s.tile t).running = some (r, k) →
     s.canIssue t 0x70 w x = true →
     let tl := s.issuing t r 0x70; let s0 := s.setTile t tl; let at' := specCis (tl.ctx r.ctx) (specA x)
     let bs := tl.cisBytes (k.cisOff + at') 128; let d := slcD bs
     let ranges := slcRanges d (((s0.comm d.comm).map fun c => c.total d.stages).getD 1) k.cisBytes
     let aborts := fun code => exec (.slc t w x) s = .next (abortTile s0 t (s0.tile t) code 0)
     readable tl k at' 128 = true →
     (slcDescOk bs = false → aborts 0xA01) ∧
     (slcDescOk bs = true → (∀ c, s0.comm d.comm = some c → slcCountOk c d = true) →
       (ranges = false → aborts 0x321) ∧
       (ranges = true → (s0.slcCommOk (s0.tilePart t) (some t) d = false → aborts 0xA02) ∧
         (s0.slcCommOk (s0.tilePart t) (some t) d = true → d.late = false → s0.op (d.comm, d.tag, d.step) = none →
           (spGet dSlc tl.slc (slcPhys k (fld w.imm.toNat 3 0))).state = 1 → aborts 0xA03)))) ∧
  (∀ (s s1 : State) (n v : Nat) (o : Origin) (r : Option SlcComm),
     let off := commReg n; let new := keepBits v (maskBits 63 54 + maskBits 47 6); let part := fld new 62 60
     n < 64 → s.rb off 63 = false → bit new 63 = true → (o.isDrd || o.owns part) = true →
     (commRead n (fld new 47 6 * 64)).gives (s.putAt off new) r s1 →
     (∀ c, r = some c → s1.commOk part c = true → s1.heard o off = true →
       let s2 := s1.noted o off v
       exec (.slcCommWrite n v o) s = .next { s2 with
         comms := spSet (fun _ => { mask := 0, stages := [] }) s2.comms n c
         ops := s2.ops.filter fun x => x.comm != n
         lates := s2.lates.filter fun x => x.comm != n
         spkOps := s2.spkOps.filter fun x => x.comm != n
         spkEpoch := s2.spkEpoch.filter fun e => e.1 / 8 % 64 != n }) ∧
     ((r.all fun c => !s1.commOk part c) = true →
       let s2 := s1.putAt off (s.rn off)
       s2.reaches o off = true →
       exec (.slcCommWrite n v o) s = .next ((List.range 4).foldl (fun s h => s.setF (slcReg h 0) 40 40 1) (s2.logRec 2 o 0 off v))))

/-- An acknowledgement that arrives ends what it names, and a first data packet is acknowledged, kept and taken up by its operation
(R400, R402, R408, R409). An operation that has nothing left completes its post with status 0, one without LATE that passes its
deadline completes with SLC_TIMEOUT, and a released slot of a ring goes back to the sluice (R410, R414, R417). The completion of
a tile's post (R414, R416): the post has ended with its status, and the slot's registers hold its record. -/
def Obligations.SluiceWork : Prop :=
  (∀ (s s2 : State) (msg : List Byte) (c : SlcComm),
     let f := dfld msg; let k : OpKey := (f 4 2, f 8 4, f 0xC 4); let s1 := s.leaTake 2 msg
     let st := ((s1.op k).bind fun o => if o.desc = [] then none else some (slcD o.desc).stages).getD (s1.stagesOf c k.1 k.2.1)
     let from' := c.rankOf st (f 1 1) (f 0x18 4); let unit := f 0x10 8
     s1.comm k.1 = some c →
     (f 0 1 = 4 →
       let hit := fun (e : SlcSent) => e.stage == f 1 1 && e.hop == f 2 1 && e.unit == unit && e.off == f 0x34 4 && e.dest == from'
       let ack := fun (e : SlcSent) => if hit e then { e with acked := true } else e
       exec (.sluicePacketReceive msg) s = .next (s1.modOp k fun o => { o with sent := o.sent.map ack })) ∧
     (1 ≤ f 0 1 → f 0 1 ≤ 3 → s.staged (unit % 4) + f 0x28 4 ≤ 8 * 2 ^ 20 →
       let s3 := (s1.perf (slcReg (unit % 4) 0x108) (1 + ceilDiv (f 0x28 4) 64)).toMember c (f 1 1) from' unit 2 0x30
         (slcPacket k 4 (f 1 1) (f 2 1) 0 unit (c.global st 0) 0 0 0 (f 0x2C 4) (f 0x34 4) [])
       (s1.op k = none →
         (slcStep k).gives (s3.addTerm k
           { kind := f 0 1, stage := f 1 1, hop := f 2 1, src := f 0x18 4, unit := unit, off := f 0x34 4, contrib := f 0x1C 4
             hdr := f 0x20 8, own := false, digest := f 0x2C 4, data := (msg.drop 64).take (f 0x28 4) }) () s2 →
         exec (.sluicePacketReceive msg) s = .next s2) ∧
       (∀ o, s1.op k = some o → (o.terms.any fun t => t.stage == f 1 1 && t.hop == f 2 1 && t.unit == unit && t.off == f 0x34 4 &&
           t.src == f 0x18 4 && !t.own) = true →
         exec (.sluicePacketReceive msg) s = .next (s3.count (slcReg (unit % 4) 0x18) 1)))) ∧
  (∀ (s s1 s2 : State),
     (∀ (comm tag step post : Nat) (o : SlcOp) (c : SlcComm) (p : SlcPost),
       let k : OpKey := (comm, tag, step); let d := slcD p.desc
       s.op k = some o → o.posts[post]? = some p →
       (slcComplete s k post = true → s.comm comm = some c → d.opk ≠ 5 → d.late = false →
         (forAll (slcHubs d (c.total d.stages)) fun h => do
           let _ ← slcJournal k 3 h (leBytes 4 step ++ leBytes 4 (s.slcPresent k c d) ++ leBytes 4 o.added)).gives s () s1 →
         (slcFinish k post 0 0).gives s1 () s2 → exec (.slcOpComplete comm tag step post) s = .next s2) ∧
       (p.ended = false → d.dead ≠ 0 → bit d.flags 5 = false → p.t0 + 1000 * d.dead ≤ s.time → (slcFinish k post 0xA07 0).gives s () s1 →
         exec (.slcDeadlineExpiry comm tag step post) s = .next s1)) ∧
     (∀ t slot i, (spGet dSlc (s.tile t).slc slot).ring.sl.getD i 0 = 2 → s.ops = [] →
       exec (.sluiceSlotReclaim t slot i) s = .next (s.setTile t { s.tile t with
         slc := spMod dSlc (s.tile t).slc slot fun x => { x with ring := x.ring.setSlot i 0 } }))) ∧
  (∀ (s : State) (k : OpKey) (i t status detail : Nat) (o : SlcOp) (p : SlcPost),
     s.op k = some o → o.posts[i]? = some p → p.ended = false → p.who = .tile t → spWf dTile s.tiles = true →
     spWf dSlc (s.tile t).slc = true →
     ∃ s', (slcFinish k i status detail).gives s () s' ∧
       ((s'.op k).bind fun o => o.posts[i]?).map (fun p => (p.ended, p.status, p.detail)) = some (true, status, detail) ∧
       let x := spGet dSlc (s'.tile t).slc p.slot
       x.status = status ∧ x.state = (if status = 0xA08 then 3 else 2) ∧ dfld x.record 0 2 = status % 65536 ∧
       dfld x.record 4 4 = k.2.1 % 2 ^ 32 ∧ dfld x.record 8 4 = k.2.2 % 2 ^ 32 ∧ dfld x.record 24 8 = s.time % 2 ^ 64)

/-- SPK POST joins the next epoch of its communicator and slot with its values, and SPK WAIT completes when the tile's oldest post
of the slot has its result (R422, R426). A contribution or result that reaches its epoch is taken there, one of an epoch long
past is counted as late; the leader's timeout ends an epoch with what has arrived, and a member's completes its post with
SPK_PARTIAL (R424, R426, R427). The operations of the sprinkle path on two 32-bit words (R423): the wrapping sum, unsigned
maximum and minimum, AND and OR; a barrier carries none. -/
def Obligations.Sprinkle : Prop :=
  (∀ (s s1 : State) (t : Nat) (w : IWord) (x : W64) (r : Run) (k : LKernel), (s.tile t).running = some (r, k) →
     s.canIssue t 0x72 w x = true →
     let tl := s.issuing t r 0x72; let y := tl.ctx r.ctx; let s0 := s.setTile t tl; let slot := fld w.imm.toNat 2 0
     (w.fn = 0 →
       let sa := (y.sGet w.sa.toNat).toNat; let comm := fld sa 15 0; let stages := fld sa 19 16; let op := fld w.imm.toNat 7 4
       let count := fld w.imm.toNat 11 8 + 1; let src := specCis y (specA x); let dst := specCis y (specB x)
       let key := spkCountKey t comm slot; let e := spGet dNat s.spkEpoch key
       comm < 64 → s0.slcCommOk (s0.tilePart t) (some t) { slcD [] with comm := comm, stages := stages } = true → op ≤ 8 →
       (op ≠ 8 → readable tl k src 64 = true) → dst + 128 ≤ k.cisBytes → tl.run = some r →
       ((s.spkOps.filter fun o => o.slot == slot).flatMap fun o => o.posts.filter fun p => p.tile == t && !p.waited).length < 256 →
       s.spkAt (comm, slot, e) = none →
       let p : SpkPost :=
         { tile := t, t0 := s.time, dst := k.cisOff + dst, jmode := r.jmode, jstep := r.jstep
           vals := if op = 8 then [] else wordsOf 4 count (tl.cisBytes (k.cisOff + src) 64), wrote := false, waited := false }
       (spkStep (comm, slot, e) false).gives ({ s0 with spkEpoch := spSet dNat s.spkEpoch key (e + 1) }.modSpk (comm, slot, e) fun o =>
         { o with stages := stages, op := op, count := count, posts := [p] }) () s1 →
       exec (.spkPost t w x) s = .next (s1.went t r 0x72 w (s1.tile t).effect)) ∧
     (w.fn = 1 →
       ((s.spkOps.flatMap fun o => o.posts.filter fun p => o.slot == slot && p.tile == t && !p.waited) = [] →
         exec (.spkWait t w x) s = .next (s.went t r 0x72 w tl)) ∧
       (∀ o p, s.spkOps = [o] → o.posts = [p] → o.slot = slot → p.tile = t → p.waited = false → p.wrote = true →
         exec (.spkWait t w x) s = .next ({ s with spkOps := [{ o with posts := [{ p with waited := true }] }] }.went t r 0x72 w tl)))) ∧
  (∀ (s s2 : State),
     (∀ (msg : List Byte) (c : SlcComm),
       let f := dfld msg; let comm := f 4 2; let slot := f 3 1; let s1 := s.leaTake 3 msg
       let next := s1.spkNext comm slot; let diff := (f 6 2 + 65536 - next % 65536) % 65536; let k : SpkKey := (comm, slot, next + diff)
       let vals := if f 1 1 = 8 then [] else wordsOf 4 (f 2 1 + 1) (msg.drop 0x20)
       s1.comm comm = some c → diff < 256 → s1.spkAt k = none →
       let st := [1, 2, 3].foldl (fun v l => if c.alg l = 0xFF then v else v + 2 ^ l) 1
       (f 0 1 = 0x11 → (spkStep k false).gives (s1.modSpk k fun o =>
           { o with recv := o.recv ++ [(f 0x10 1, c.rankOf st (f 0x10 1) (f 8 4), f 0xC 4, vals)] }) () s2 →
         exec (.sprinkleMessageReceive msg) s = .next s2) ∧
       (f 0 1 = 0x12 → (spkResult k c (f 0x10 1) (f 0xC 4) vals).gives (s1.modSpk k fun o => if o.posts = []
           then { o with stages := st, op := f 1 1, count := f 2 1 + 1 } else o) () s2 →
         exec (.sprinkleMessageReceive msg) s = .next s2)) ∧
     (∀ (comm slot epoch : Nat) (o : SpkOp),
       let k : SpkKey := (comm, slot, epoch)
       s.spkAt k = some o →
       (∀ c p, s.comm comm = some c → (∀ l, l ∈ [1, 2, 3] → bit o.stages l = true → c.rankIn o.stages l = 0) → o.closed = false →
         o.posts.head? = some p → p.t0 + s.spkTimeout comm ≤ s.time → (spkStep k true).gives s () s2 →
         exec (.spkLeaderTimeout comm slot epoch) s = .next s2) ∧
       (∀ t i, (o.posts.findIdx? fun p => p.tile == t && !p.wrote && decide (p.t0 + 2 * s.spkTimeout comm ≤ s.time)) = some i →
         (spkWrite k i 0xA21 0 ((List.range o.count).map fun _ => 0)).gives s () s2 →
         exec (.spkMemberTimeout t comm slot epoch) s = .next s2))) ∧
  (∀ a b, a < 2 ^ 32 → b < 2 ^ 32 →
     spkOp 1 a b = (BitVec.ofNat 32 a + BitVec.ofNat 32 b).toNat ∧ spkOp 4 a b = max a b ∧ spkOp 5 a b = min a b ∧
     spkOp 6 a b = (BitVec.ofNat 32 a &&& BitVec.ofNat 32 b).toNat ∧ spkOp 7 a b = (BitVec.ofNat 32 a ||| BitVec.ofNat 32 b).toNat ∧
     spkOp 8 a b = 0)

/-- A join that reaches the decider counts there once, a step closes when its deadline passes, and a decision that is complete is
known at the package and goes on (R444 to R446). SLC_LATE_CFGn takes its owner's write; setting EN reads the late table (R451).
LBK QUERY writes what is known of a step, LBK FLUSH empties the bucket slots of a late area, and JRN gives its value (R437,
R452, R477); here with the journal off and no late area. -/
def Obligations.LateBuckets : Prop :=
  (∀ (s s2 s3 : State),
     (∀ (msg : List Byte) (c : SlcComm),
       let f := dfld msg; let k : OpKey := (f 4 2, f 0x20 4, f 0x24 4); let s1 := s.leaTake 3 msg
       let st := s1.stagesOf c k.1 k.2.1
       s1.comm k.1 = some c →
       (f 0 1 = 0x13 → (∀ l, l ∈ [1, 2, 3] → bit st l = true → c.rankIn st l = 0) → s1.late k = none →
         (lateJoin k (f 8 4) (f 0x28 4) (s1.jrnMode (s1.commPart k.1)) (s1.rf (jrnReg (s1.commPart k.1) 0x10) 31 0)).gives s1 () s2 →
         (slcStep k).gives s2 () s3 → exec (.lateJoinReceive msg) s = .next s3) ∧
       (f 0 1 = 0x14 → c.packages st ≤ 384 → s1.late k = none → (∀ l, l ∈ [1, 2, 3] → bit st l = true → c.rankIn st l ≠ 0) →
         (∃ l, l ∈ [1, 2, 3] ∧ bit st l = true) →
         let here := (flagList ((msg.drop 0x30).take 48)).map (· + 384 * f 0x28 2)
         let s4 := s1.modLate k fun l => { l with parts := l.parts ++ [f 0x28 2], flags := l.flags ++ here }
         (lateDecided k here).gives s4 () s2 → (slcStep k).gives s2 () s3 → exec (.lateDecisionReceive msg) s = .next s3)) ∧
     (∀ (comm tag step : Nat) (l : SlcLate),
       let k : OpKey := (comm, tag, step)
       s.late k = some l → l.joins ≠ [] → l.first + 1000 * l.limit ≤ s.time → l.jmode ≠ 2 →
       (lateClose k true).gives s () s2 → (slcStep k).gives s2 () s3 → exec (.lateDecisionDeadline comm tag step) s = .next s3)) ∧
  (∀ (s s1 : State) (n v : Nat) (o : Origin),
     let off := lateReg n; let new := keepBits v (maskBits 63 60 + maskBits 57 6); let m := fld new 57 48 + 1
     n < 64 → (o.isDrd || o.owns (s.commPart n)) = true → fld new 62 60 ≤ 4 → s.rb off 63 = false →
     (bit new 63 = false → s.heard o off = true → exec (.slcLateCfgWrite n v o) s = .next ((s.noted o off v).putAt off new)) ∧
     (∀ b, bit new 63 = true → (vaRead (s.commView n) 0 (fld new 47 6 * 64) (32 * m) none).gives s (.ok b) s1 → s1.heard o off = true →
       let s2 := (s1.noted o off v).putAt off new
       let tab := (List.range m).map fun i => (dfld b (32 * i) 4, dfld b (32 * i + 8) 8, dfld b (32 * i + 16) 8)
       exec (.slcLateCfgWrite n v o) s = .next { s2 with lateTab := spSet (fun _ => []) s2.lateTab n tab })) ∧
  (∀ (s : State) (t : Nat) (w : IWord) (x : W64) (r : Run) (k : LKernel), (s.tile t).running = some (r, k) →
     spWf dTile s.tiles = true → r.jmode = 0 →
     let key := fun (tl : Tile) => let y := tl.ctx r.ctx
       ((y.sGet w.sa.toNat).toNat % 65536, (y.sGet w.sb.toNat).toNat % 2 ^ 32, (y.sGet w.sc.toNat).toNat % 2 ^ 32)
     (s.canIssue t 0x79 w x = true →
       let tl := s.issuing t r 0x79; let s0 := s.setTile t tl; let dst := specCis (tl.ctx r.ctx) (specA x)
       (w.fn = 0 → s0.lateEntry (key tl).1 (key tl).2.1 = none → s0.op (key tl) = none → s0.late (key tl) = none →
         dst + 64 ≤ k.cisBytes →
         exec (.lbkQuery t w x) s = .next (s0.went t r 0x79 w (tl.cisPut (k.cisOff + dst) (List.replicate 64 0)))) ∧
       (w.fn = 1 → s0.lateEntry (key tl).1 (key tl).2.1 = none → exec (.lbkFlush t w x) s = .next (s0.went t r 0x79 w tl.effect))) ∧
     (s.canIssue t 0x7A w x = true →
       let tl := s.issuing t r 0x7A; let y := tl.ctx r.ctx
       exec (.jrn t w x) s = .next ((s.setTile t tl).went t r 0x7A w (tl.setCtx r.ctx (y.sSet w.dst.toNat (y.sGet w.sa.toNat))))))

/-- A PUBLISH that passes its checks starts when its selector has none under way, waits behind a running one, and takes the place of
one that waits, which ends with PUB_SUPERSEDED; a running one that has flipped completes once VBUSY is clear (R455 to R457).
SNAP_START takes the cut, clears the DIRTY bits that belong to it and completes with the image's identifier; a sector of its
frames is read and sent once; and when none is left the snapshot ends (R462 to R467). SNAP_WAIT completes with how the last
snapshot ended, or waits for the one that runs; SNAP_ABORT ends the one that runs (R462, R467). The journal's registers take
their owner's writes while no launch of the partition runs (R472, R474): a new step starts the counting of its entries again,
and in record mode its region gets its header. -/
def Obligations.PublishesAndSnapshots : Prop :=
  (∀ (s s1 s2 s3 : State),
     (∀ (q : Nat) (c : QCmd) (ext : List (Nat × Nat)),
       let u : Pub :=
         { as := c.f 1 1, sel := c.f 2 1, value := c.f 3 1, version := c.f 8 8, queue := q, seqno := c.seqno, extents := ext
           running := false, flipped := false }
       let same := s2.pubs.filter fun w => w.as == u.as && w.sel == u.sel
       (takeCmd q 0x40).gives s c s1 → (pubExtents q c).gives s1 (.ok ext) s2 →
       (same = [] → (pubStart u).gives s2 () s3 → exec (.publish q) s = .next s3) ∧
       (∀ w, same = [w] → w.running = true →
         exec (.publish q) s = .next ({ s2 with pubs := s2.pubs ++ [u] }.setPubBit 0x30 u.as u.sel true)) ∧
       (∀ w, same.find? (fun w => !w.running) = some w →
         (completeWith w.queue w.seqno 0x40 0xB02 (u.version % 2 ^ 32)).gives
           { s2 with pubs := s2.pubs.map fun x => if x = w then u else x } () s3 → exec (.publish q) s = .next s3)) ∧
     (∀ (n b : Nat) (u : Pub),
       s.pubs.find? (fun w => w.as == n && w.sel == b && w.running) = some u → u.flipped = true → s.rb (asReg n 0x20) 1 = false →
       let s0 := s.putAt (asReg n (0x200 + 8 * b)) u.version
       (completeWith u.queue u.seqno 0x40 0 0).gives ({ s0 with pubs := s0.pubs.erase u }.setPubBit 0x28 n b false) () s2 →
       s2.pubs.find? (fun w => w.as == n && w.sel == b) = none →
       exec (.publishComplete n b) s = .next s2)) ∧
  (∀ (s s1 s2 s3 s4 : State) (q p : Nat) (c : QCmd) (n : Snap),
     ((snapBuild q 0x48 false fun c f m => if bit (c.f 1 1) 0 then 0xFFFF else Nat.lor f.dirty (m.getD 0)).gives s (some (c, n)) s1 →
       let u := n.cut.foldl (fun s e =>
         let f := s.frame e.1
         s.setFrame e.1 { f with dirty := f.dirty - Nat.land f.dirty e.2 }) s1
       let u' := { u with snaps := u.snaps ++ [n] }.snapBegin n
       (snapSend n n.image true 64 (snapHeader u' n 1)).gives u' () s2 → (completeWith q c.seqno 0x48 0 n.id).gives s2 () s3 →
       exec (.snapStart q) s = .next s3) ∧
     ((snapBuild q 0x4B true fun c _ m => if bit (c.f 1 1) 1 then m.getD 0 else 0xFFFF).gives s (some (c, n)) s1 →
       (snapSend n n.image false 64 []).gives ({ s1 with snaps := s1.snaps ++ [n] }.snapBegin n) () s2 →
       exec (.snapRestore q) s = .next s2) ∧
     (∀ f k img, s.snapOf p = some n → n.set.find? (fun e => e.1 == f) = some (f, img) → n.begun = true → n.err = 0 → k < 16 →
       bit (spGet dNat n.todo f) k = true → s.snapStaged n (s.hubOf (f * 65536)) < 4096 →
       let va := n.sectorAt img k
       let s0 := s.setSnap { n with todo := spMod dNat n.todo f fun m => setFld m k k 0, flying := n.flying ++ [va] }
       (n.restore = true → (snapSend n va false 4096 []).gives s0 () s1 → exec (.snapSectorSend p f k) s = .next s1) ∧
       (n.restore = false → ∀ bs, ((unitsOf (f * 65536 + 4096 * k) 4096).mapM fun a => do
           let (bs, bad) ← engineRead a
           if bad then freeBytes 64 else pure bs).gives s0 bs s1 →
         (engineCharge p (f * 65536) 64).gives s1 () s2 → (snapSend n va true 4096 bs.flatten).gives s2 () s3 →
         releaseWaits.gives s3 () s4 → exec (.snapSectorSend p f k) s = .next s4)) ∧
     (s.snapOf p = some n → n.err = 0 → n.begun = true → n.todo = [] → n.flying = [] → n.restore = true →
       (snapFinish n 0).gives s () s1 → exec (.snapComplete p) s = .next s1) ∧
     (s.snapOf p = some n → n.err ≠ 0 → (snapFinish n n.err).gives s () s1 → exec (.snapComplete p) s = .next s1)) ∧
  (∀ (s s1 s2 s3 : State) (q : Nat) (c : QCmd),
     let p := s1.qPart q; let e := spGet dNat s1.snapEnd p
     ((takeCmd q 0x49).gives s c s1 → c.zero 1 63 = true →
       ((s1.snapOf p).isSome = true → exec (.snapWait q) s = .next { s1 with snapWaits := s1.snapWaits ++ [(p, q, c.seqno)] }) ∧
       (s1.snapOf p = none → e ≠ 0 →
         (completeWith q c.seqno 0x49 (e - 1) 0).gives { s1 with snapEnd := spSet dNat s1.snapEnd p 0 } () s2 →
         exec (.snapWait q) s = .next s2) ∧
       (s1.snapOf p = none → e = 0 → (completeWith q c.seqno 0x49 0xB07 0).gives s1 () s2 → exec (.snapWait q) s = .next s2)) ∧
     ((takeCmd q 0x4A).gives s c s1 → c.zero 1 63 = true →
       (∀ n, s1.snapOf p = some n → (snapFinish n 0xB06).gives s1 () s2 → (completeWith q c.seqno 0x4A 0 0).gives s2 () s3 →
         exec (.snapAbort q) s = .next s3) ∧
       (s1.snapOf p = none → (completeWith q c.seqno 0x4A 0 0).gives s1 () s3 → exec (.snapAbort q) s = .next s3))) ∧
  (∀ (s s2 : State) (n v : Nat) (o : Origin), n < 8 → s.lic 5 = true → o.mine n = true → s.partRuns n = false →
     (∀ base, (base = false → fld v 63 62 ≠ 3) → let off := jrnReg n (if base then 8 else 0)
       s.heard o off = true → exec (.logJrnCfgWrite n base v o) s =
         .next (s.putAt off (keepBits v (if base then maskBits 47 16 else maskBits 63 62 + maskBits 53 40 + maskBits 31 0)))) ∧
     (s.heard o (jrnReg n 0x10) = true →
       let s0 := s.putAt (jrnReg n 0x10) (v % 2 ^ 32)
       let s1 := { s0 with jseq := s0.jseq.filter fun e => e.1 / 2 ^ 27 != n }.setF (jrnReg n 0x18) 31 0 0
       (s.jrnMode n ≠ 1 → exec (.logJrnStepWrite n v o) s = .next s1) ∧
       (∀ a, s.jrnMode n = 1 → (vaWrite (s.jrnView .device n) 0 (s.jrnBase n (v % 2 ^ 32)) (jrnHeader (v % 2 ^ 32) 1 0 0 0)).gives s1 a s2 →
         exec (.logJrnStepWrite n v o) s = .next s2)))

/-- A publish flips its selector value's bit and leaves every other bit as it is (R456). -/
def Obligations.PublishFlips : Prop :=
  ∀ (s : State) (u : Pub), spWf regInit s.regs = true → s.asBusy u.as = false → u.as < 64 → u.sel < 64 → u.value < 2 →
    ∃ s', (pubFlip u).gives s () s' ∧ ∀ i, i < 64 →
      bit (s'.rn (asReg u.as 0x10)) i = (if i = u.sel then decide (u.value = 1) else bit (s.rn (asReg u.as 0x10)) i)

/-! ### The leat -/

/-- A flit of each kind that arrives without error at a port in ACTIVE is taken (R489, R503, R507 to R509): data in order with its
messages, data behind or ahead of the expected number only with its trailer, a NULL flit's trailer, and a replay request, which
sends every outstanding flit again. One with an error is discarded whole and asked for again (R491). The link's timers act when
their time has come (R509, R510, R512, R516, R522): a replay request again after 1 µs, the outstanding flits again after 4 µs
without an acknowledgement, a retrain after 10 µs without a flit, training again 100 ms after a failure, and the end of a port
that is disabled and holds nothing. -/
def Obligations.Flits : Prop :=
  (∀ (s : State) (n : Nat) (corr : List Nat) (flit : List Byte), n < 16 → spWf dLPort s.lports = true →
     let t := flitTrailer flit; let s1 := s.flitIn n corr; let p := s1.lport n; let d := (fld t 13 2 + 4096 - p.expect) % 4096
     (2 ≤ s.leaState n → s.leaState n ≤ 5 → ∀ bad, bad ≠ 0 ∨ flitOk flit = false →
       exec (.leatDataFlit n bad corr flit) s = .next ((s.flitCounted n bad corr).leaDiscard n)) ∧
     (s.leaState n = 3 → flitOk flit = true →
       (fld t 1 0 = 1 →
         (∀ r, d = 0 → p.parse t flit = some r → exec (.leatDataFlit n 0 corr flit) s = .next (r.done.foldl (fun s e => s.leaPlace n e)
           ((s1.setLport n { p with vcs := r.vcs, expect := (p.expect + 1) % 4096, replay := none }).trailed n t))) ∧
         (0 < d → d < 2048 → exec (.leatDataFlit n 0 corr flit) s = .next (((s1.trailed n t).count (leaErr n 2) 1).leaAsk n)) ∧
         (2048 ≤ d → exec (.leatDataFlit n 0 corr flit) s = .next ((s1.trailed n t).count (leaErr n 3) 1))) ∧
       (fld t 1 0 = 0 → exec (.leatNullFlit n 0 corr flit) s = .next (s1.trailed n t)) ∧
       (fld t 1 0 = 2 → (flit.headD 0).toNat = 1 →
         let s2 := s1.trailed n t; let q := s2.lport n; let e := leNat ((flit.drop 8).take 2)
         q.acks e = true → exec (.leatReplayReq n 0 corr flit) s = .next ((s2.setLport n (q.ack e s2.time)).leaResend n)))) ∧
  (∀ (s s1 : State) (n : Nat),
     let p := s.lport n
     (∀ t, p.replay = some t → t + 1000 ≤ s.time → exec (.leatReplayReqRepeat n) s = .next (s.leaAsk n)) ∧
     (p.st = 3 ∨ p.st = 5 → p.out ≠ [] → p.lastAdv + 4000 ≤ s.time → exec (.leatAckTimeout n) s = .next (s.leaResend n)) ∧
     (p.st = 3 ∨ p.st = 5 → p.lastFlit + 10000 ≤ s.time →
       exec (.leatLinkLost n) s = .next (s.leaRetrain n 4 (s.askWidth n))) ∧
     (∀ k, p.st = 3 ∨ p.st = 5 → k < 5 → bit p.lact k = true →
       exec (.leatLaneLockLoss n k) s = .next (((s.setLport n { p with lfail := Nat.lor p.lfail (2 ^ k) }).laneFailed n k).leaRetrain n 1
         ((s.setLport n { p with lfail := Nat.lor p.lfail (2 ^ k) }).askWidth n))) ∧
     (p.st = 6 → s.leaEn n = true → p.failT + 100000000 ≤ s.time → exec (.leatFailedRetry n) s = .next (s.leaGo n 1)) ∧
     (n < 16 → p.st ≠ 0 → s.rb (leatReg n 0) 63 = false → p.drainT + 1000000 ≤ s.time → (leaFail n 0).gives s () s1 →
       exec (.leatDisableDrainEnd n) s = .next s1))

/-- The layout of a flit (R488): what a port writes into a flit's trailer a port reads out of it, and the flit is accepted. -/
def Obligations.FlitLayout : Prop :=
  ∀ (ftype seq ack cvc cred : Nat) (cont : Option Nat) (slots : List Byte),
    ftype < 3 → seq < 4096 → ack < 4096 → cvc < 8 → cred < 32768 → (∀ v, cont = some v → v < 8) → slots.length = 2560 →
    let flit := flitBytes ftype seq ack cvc cred cont slots; let t := flitTrailer flit
    flitOk flit = true ∧ flit.take 2560 = slots ∧ fld t 1 0 = ftype ∧ fld t 13 2 = seq ∧ fld t 25 14 = ack ∧ fld t 28 26 = cvc ∧
    fld t 43 29 = cred ∧ bit t 44 = cont.isSome ∧ (∀ v, cont = some v → fld t 47 45 = v)

/-- An acknowledgement of a leat port (R508): one that lies within the outstanding flits frees every flit before it and is the
oldest from then on, and any other is ignored. -/
def Obligations.FlitAcknowledgements : Prop :=
  ∀ (p : LPort) (a now : Nat), a < 4096 → p.next < 4096 → p.out.length < 4096 →
    let k := (a + 4096 - p.oldest) % 4096
    (k ≤ p.out.length → (p.ack a now).out = p.out.drop k ∧ (p.ack a now).oldest = a) ∧ (p.out.length < k → p.ack a now = p)

/-- Training (R512, R513): a port that finds a partner trains; with lanes qualified at both ends it sends its IDENT; and with the
partner's IDENT it goes ACTIVE, whichever comes first. Retraining (R516 to R519, R523): a write of LEA_PORTn_CTRL starts one,
the partner's request is answered with the lower width, its answer makes this end the leader, the lanes that pass set the width,
and the partner's CREDIT_SYNC lets the link go on. Lane sparing (R514, R515, R521): a window without a degraded lane only starts
the next one; a swap that the partner asks for is acknowledged; an acknowledged swap is agreed; and at its frame the spare takes
the degraded lane's place. -/
def Obligations.LinkTraining : Prop :=
  (∀ (s : State) (n : Nat), spWf dLPort s.lports = true →
     let p := s.lport n
     (∀ devid, p.st = 1 → exec (.leatPartnerDetect n devid) s =
       .next ((s.setLport n { p with pid := devid, lfail := 0, good := none, sizes := [] }).leaGo n 2)) ∧
     (∀ good pgood, p.st = 2 → s.defects = [] → good % 32 = 31 → pgood % 32 ≠ 0 →
       exec (.leatTrainingDone n good pgood) s =
         .next (((s.setLport n { p with lfail := 0, good := some (31, pgood % 32) }).leaCtrl n 7 (s.identOf n)).leaActivate n)) ∧
     (∀ corr flit, n < 16 → p.st = 2 → flitOk flit = true → fld (flitTrailer flit) 1 0 = 2 → (flit.headD 0).toNat = 7 →
       let s1 := s.flitIn n corr; let f := dfld flit
       exec (.leatIdent n 0 corr flit) s = .next ((s1.setLport n { s1.lport n with
         pid := f 8 16, pnode := f 0x18 2, pport := f 0x1A 1 % 16, pswitch := bit (f 0x1B 1) 0, pmaxw := fld (f 0x1B 1) 2 1
         ident := true, sizes := (List.range 5).map fun v => f (0x1C + 2 * v) 2 }).leaActivate n))) ∧
  (∀ (s : State) (n : Nat), spWf dLPort s.lports = true →
     let p := s.lport n
     (∀ v o, s.leatThere n = true → s.heard o (leatReg n 8) = true → o.mine (s.rf (leatReg n 0) 62 60) = true →
       (bit v 0 = true → p.st = 3) →
       let s1 := (s.shadowing (leatReg n 8) (v % 8)).putAt (leatReg n 8) (keepBits v 6)
       exec (.leaRetrainRequest n v o) s = .next (if bit v 0 then s1.leaRetrain n 0 (s1.askWidth n) else s1)) ∧
     (∀ devid width x y, (p.st = 3 ∨ p.st = 5) → (width = 1 ∨ width = 2 ∨ width = 4) →
       let s1 := s.setLport n { p with pid := devid }
       let s2 := s1.setLport n { p with pid := devid, good := none, synced := false, swap := none, replay := none }
       exec (.leatTrainReq n devid width x y) s =
         .next (((s2.count (leaErr n 5) 1).leaGo n 4).leaAnswer n (min width (s2.maxWidth n)))) ∧
     (∀ devid width x y own, p.st = 4 → p.req = some own → (width = 1 ∨ width = 2 ∨ width = 4) →
       exec (.leatTrainAck n devid width x y) s =
         .next (s.setLport n { p with req := none, agreed := min own width, leader := true, pid := devid })) ∧
     (∀ failed pgood, p.st = 4 → p.agreed ≠ 0 → p.good = none →
       let s1 := s.setLport n { p with lfail := Nat.lor p.lfail (failed % 32) }; let g := s1.goodLanes n
       let w := widthFor (min (min (popcount 5 g) (popcount 5 pgood)) p.agreed)
       w ≠ 0 →
       let s2 := s1.setLport n { s1.lport n with
         good := some (g, pgood % 32), width := widthCode w, lact := lowLanes g w, tact := lowLanes (pgood % 32) w }
       let q := s2.lport n
       let occ := fun (c : LVc) => (c.part.length + (c.ready.map List.length).sum) / 64
       exec (.leatRetrainDone n failed pgood) s = .next ((s2.leaCtrl n 4 (leBytes 2 q.expect ++ leBytes 2 0 ++
         (List.range 5).flatMap fun v => leBytes 2 (bufSlots v - occ (q.vc v)) ++ leBytes 2 (q.vc v).freed)).leaResume n)) ∧
     (∀ corr flit, n < 16 → p.st = 4 → flitOk flit = true → fld (flitTrailer flit) 1 0 = 2 → (flit.headD 0).toNat = 4 →
       let s1 := s.flitIn n corr; let f := dfld flit; let q := (s1.lport n).ack (f 8 2) s1.time
       let q := (List.range 5).foldl (fun (q : LPort) v => q.setVc v { q.vc v with
         held := f (0xC + 4 * v) 2 - q.out.foldl (fun k e => k + e.counts.getD v 0) 0
         last := f (0xE + 4 * v) 2 % 32768 }) q
       exec (.leatCreditSync n 0 corr flit) s = .next ((s1.setLport n { q with synced := true }).leaResume n))) ∧
  (∀ (s : State) (n : Nat), spWf dLPort s.lports = true →
     let p := s.lport n
     (∀ spares, (p.st = 3 ∨ p.st = 5) → p.winT + 1000000 ≤ s.time → p.uncorr ≤ 16 → (∀ k, k < 5 → bit p.lact k = true → p.corr.getD k 0 ≤ 20000) →
       exec (.leatErrorWindow n spares) s =
         .next (s.setLport n { p with corr := [0, 0, 0, 0, 0], uncorr := 0, hot := [0, 0, 0, 0, 0], winT := s.time })) ∧
     (∀ corr flit, n < 16 → flitOk flit = true → fld (flitTrailer flit) 1 0 = 2 →
       let s1 := (s.flitIn n corr).trailed n (flitTrailer flit); let q := s1.lport n
       (p.st = 3 → (flit.headD 0).toNat = 5 →
         exec (.leatLaneSwap n 0 corr flit) s = .next (((s1.setLport n { q with swap := some (swapOf flit false) }).leaGo n 5).leaCtrl n 6
           (swapFields (swapOf flit false)))) ∧
       (p.st = 5 → (flit.headD 0).toNat = 6 → q.swap = some { swapOf flit true with agreed := false } →
         exec (.leatLaneSwapAck n 0 corr flit) s = .next (s1.setLport n { q with swap := some (swapOf flit true) }))) ∧
     (∀ w, p.st = 5 → p.swap = some w → w.agreed = true →
       let move := fun (m : Nat) => Nat.lor (lanesLess m (2 ^ w.old)) (2 ^ w.new % 32)
       exec (.leatLaneSwapApply n) s = .next (((s.setLport n { p with
         swap := none, lact := if w.rx then move p.lact else p.lact, tact := if w.rx then p.tact else move p.tact
         hot := if w.rx then p.hot.set w.old 0 else p.hot }).count (leaErr n 6) 1).leaGo n 3)))

/-- A peer's read or write that keeps R494 is done through the port's address space and answered (R495, R496); a response ends its
request, a request without one times out (R500, R501); and a management message goes to the ditchrider (R493). LEA_NODE takes a
value until it is locked, and LEA_PORTn_CFG its owner's while the port is disabled; a port that gets what it needs leaves
DISABLED (R483, R529, R530). -/
def Obligations.PeerMessages : Prop :=
  (∀ (s s1 s2 : State) (n : Nat) (m : List Byte) (rest : List (List Byte)),
     let f := dfld m; let cfg := s.rn (leatReg n 0); let as := some (fld cfg 58 53)
     let v : View := { who := .leat n (f 6 2), part := fld cfg 62 60, as := as, sel := s.vsel as, src := 5, fn := none }
     let head := fun kind len => memHeader kind 0 len (f 6 2) (s.rf 0x70000 15 0) (f 8 2) 0 0
     (((s.lport n).vc 0).ready = m :: rest → reqFormat m = true → bit cfg 59 = true →
       (∀ bs, (m.headD 0).toNat = 0x20 → (inRead v (f 1 1) (f 0x10 8) (f 2 2)).gives s (.ok bs) s1 →
         exec (.leatRdReq n) s = .next ((s1.leaPop n 0).leaSend n 1 (head 0x22 (f 2 2) ++ padSlots bs))) ∧
       ((m.headD 0).toNat = 0x21 → (inWrite v (f 1 1) (f 0x10 8) ((m.drop 64).take (f 2 2))).gives s (.ok ()) s1 →
         exec (.leatWrReq n) s = .next ((s1.leaPop n 0).leaSend n 1 (head 0x23 0)))) ∧
     (((s.lport n).vc 1).ready = m :: rest →
       ∀ r, (s.leaPop n 1).peerReqs.find? (fun r => r.port == n && r.tag == f 8 2 && r.sent && r.write == ((m.headD 0).toNat == 0x23)) = some r →
         ((m.headD 0).toNat = 0x22 → (m.getD 0xA 0) = 0 → r.len ≤ m.length - 64 →
           (peerDone r 0 ((m.drop 64).take r.len)).gives (s.leaPop n 1) () s2 → exec (.leatRdRsp n) s = .next s2) ∧
         ((m.headD 0).toNat = 0x23 → (peerDone r (m.getD 0xA 0).toNat []).gives (s.leaPop n 1) () s2 →
           exec (.leatWrRsp n) s = .next s2)) ∧
     (∀ tag r, s.peerReqs.find? (fun r => r.port == n && r.tag == tag && r.sent) = some r →
       r.t0 + 1000 * s.rf (leatReg n 0) 15 0 ≤ s.time → (peerDone r 0x11 []).gives s () s1 →
       exec (.leatRspTimeout n tag) s = .next s1) ∧
     (((s.lport n).vc 4).ready = m :: rest → exec (.leatMgtMsg n) s = .next ((s.leaPop n 4).emit (.mgt n m)))) ∧
  (∀ (s : State) (n v : Nat) (o : Origin),
     (s.heard o 0x70000 = true → (o.isDrd || originPf0 o) = true → s.rb 0x70000 16 = false →
       exec (.leaNodeWrite v o) s =
         .next ((List.range 16).foldl State.leaWake ((s.noted o 0x70000 v).putAt 0x70000 (keepBits v 0x1FFFF)))) ∧
     (s.heard o 0x70000 = true → (o.isDrd || originPf0 o) = true → s.rb 0x70000 16 = true →
       exec (.leaNodeWrite v o) s = .next ((s.logRec 3 o 0 0x70000 v).count 0x70FF8 1)) ∧
     (s.leatThere n = true → s.heard o (leatReg n 0) = true → o.mine (s.rf (leatReg n 0) 62 60) = true → s.rb (leatReg n 0) 63 = false →
       let s1 := s.putAt (leatReg n 0) (Nat.lor (keepBits v (maskBits 63 50)) (max 3000 (fld v 15 0)))
       exec (.leaPortCfgWrite n v o) s = .next (if bit v 63 then s1.leaWake n else s1)))

/-! ### The host and the network -/

/-- A read through BAR0 that its function may make is completed with its data, a write is performed, and an access of a function
that is not open is answered with Unsupported Request or counted (R539, R552, R553). A function-level reset and a link that goes
down drop the waiting posted writes of their functions (R542, R543). HFLUSH of no port completes at once; of ports with a flush
target it sends a read of no bytes to each and is outstanding; a flush read's return, a completion and a timeout after 50 ms end
the read they name (R543, R557, R558). -/
def Obligations.HostAccesses : Prop :=
  (∀ (s s1 : State) (p f va : Nat), p < 4 → f < 64 →
     let up := fun (s : State) => { s with pcieDown := setFld s.pcieDown p p 0 }
     (s.fnOpen p f = true →
       (∀ bs len, (inRead (s.fnView p f) 0 va len).gives s (.ok bs) s1 →
         exec (.pcieBar0Read p f va len) s = .next ((up s1).emit (.completion p 0 bs))) ∧
       (∀ data, (inWrite (s.fnView p f) 0 va data).gives s (.ok ()) s1 → exec (.pcieBar0Write p f va data) s = .next (up s1))) ∧
     (s.fnOpen p f = false →
       (∀ len, exec (.pcieBar0Read p f va len) s = .next ((up s).emit (.completion p 1 []))) ∧
       (∀ data, exec (.pcieBar0Write p f va data) s = .next ((up s).count (portErr p 0) 1))) ∧
     exec (.pcieFlr p f) s =
       .next { s with waits := s.waits.filter fun w => !(w.req.who == .fn p f && w.req.write) } ∧
     (∀ lost, ∃ s', exec (.pcieLinkDown p lost) s = .next s' ∧ { s' with waits := s.waits, pcieDown := s.pcieDown } = s ∧
       s'.pcieDown = setFld s.pcieDown p p (b2n lost) ∧
       ∀ w, w ∈ s'.waits ↔ w ∈ s.waits ∧ ¬ (w.req.write = true ∧ ∃ g, w.req.who = .fn p g))) ∧
  ((∀ (s s1 : State) (t : Nat) (w : IWord) (r : Run) (k : LKernel), (s.tile t).running = some (r, k) → s.canIssue t 0x74 w 0 = true →
     let tl := s.issuing t r 0x74; let ports := (List.range 4).filter fun p => bit w.imm.toNat p
     (∀ e ∈ tl.outstanding, tl.issued ≤ e.seq + 1) → bit k.flags 1 = true → spWf dTile s.tiles = true →
     (ports = [] → exec (.hflush t w) s = .next (s.went t r 0x74 w tl)) ∧
     (ports ≠ [] → (∀ p ∈ ports, s.rb (flushReg p (s.tilePart t)) 7 = true) →
       (forAll ports fun p => do
         let g := (← get).rn (flushReg p (s.tilePart t))
         sendHostRead (.tile t) p (fld g 5 0) (fld g 63 8 * 256) 0).gives (s.setTile t tl) () s1 →
       exec (.hflush t w) s = .next (s1.went t r 0x74 w ((s1.tile t).pushQueue 4
         { s.entry t r (.hflush t w) 0x74 w 0 with started := true, ref := s.nextId })))) ∧
   (∀ (s s1 : State) (tag : Nat) (h : HostReq), s.hostReqs.find? (fun r => r.tag == tag) = some h →
     (∀ ok data, (hostReadEnd tag ok data).gives s () s1 → exec (.hostReadCompletion tag ok data) s = .next s1) ∧
     (h.t0 + 50000000 ≤ s.time → (hostReadEnd tag false []).gives s () s1 → exec (.hostReadTimeout tag) s = .next s1) ∧
     (s.time < h.t0 + 50000000 → exec (.hostReadTimeout tag) s = .next s) ∧
     (h.len = 0 → (hostReadEnd tag true []).gives s () s1 → exec (.hflushReadReturn tag) s = .next s1)))

/-- The doorbell of a queue that is in service, from its bound function (R547): one at least 2^31 behind PI is ignored, one that
claims more commands than the ring holds is ignored and counted, and any other sets PI. A doorbell of another function's queue
is ignored and counted (R541). -/
def Obligations.Doorbells : Prop :=
  ∀ (s : State) (q v p f : Nat), q < 8192 → p < 4 → s.ready = true → s.fnFrozen p f = false →
    let cfg := s.rn (qReg q 0); let cons := s.rf (qReg q 0x20) 31 0; let pi := s.rf (qReg q 0x20) 63 32
    (fld cfg 47 46 = p → fld cfg 45 40 = f → bit cfg 63 = true → v < 2 ^ 32 →
      (2 ^ 31 ≤ (v + 2 ^ 32 - pi) % 2 ^ 32 → exec (.queueDoorbell q v p f) s = .next s) ∧
      ((v + 2 ^ 32 - pi) % 2 ^ 32 < 2 ^ 31 → 2 ^ fld cfg 39 35 < (v + 2 ^ 32 - cons) % 2 ^ 32 →
        exec (.queueDoorbell q v p f) s = .next (s.count (portErr p 0x10) 1)) ∧
      ((v + 2 ^ 32 - pi) % 2 ^ 32 < 2 ^ 31 → (v + 2 ^ 32 - cons) % 2 ^ 32 ≤ 2 ^ fld cfg 39 35 →
        exec (.queueDoorbell q v p f) s = .next (s.setF (qReg q 0x20) 63 32 v))) ∧
    (fld cfg 47 46 ≠ p ∨ fld cfg 45 40 ≠ f → exec (.queueDoorbell q v p f) s = .next (s.count (portErr p 0x10) 1))

/-- The queue's next command is fetched with its sequence number, and one of a TYPE that the target does not serve ends with
CMD_INVALID (R545, R548). The interrupt timer reports the records that no interrupt has (R550). The registers of queues,
functions, Ethernet ports and the discipline of device time take the writes their rules allow: a queue is enabled with its
counters at 0 and disabled by clearing EN alone, CCONS advances, a function's configuration keeps its fields, and so do a port's
and GLB_PTP_CFG (R538, R545, R546, R549, R567, R576). -/
def Obligations.QueuesAndRegisters : Prop :=
  (∀ (s s1 s2 : State) (q : Nat), q < 8192 →
     let cfg := s.rn (qReg q 0); let cons := s.rf (qReg q 0x20) 31 0; let pi := s.rf (qReg q 0x20) 63 32
     (∀ ext bytes, bit cfg 63 = true → cons ≠ pi → s.isFrozen 2 q = false →
       (s.rf (qReg q 0x28) 63 32 + (s.cq q).owed.length + 2 ^ 32 - s.rf (qReg q 0x28) 31 0) % 2 ^ 32 < 2 ^ fld cfg 39 35 →
       (vaRead (s.queueView q 4) 0 (s.rf (qReg q 0x10) 47 6 * 64 + 64 * (cons % 2 ^ fld cfg 39 35)) 64 ext).gives s (.ok bytes) s1 →
       let u := s1.setF (qReg q 0x20) 31 0 (cons + 1)
       let u := u.setCq q { u.cq q with owed := (u.cq q).owed ++ [(cons, none)] }
       let ty := (bytes.headD 0).toNat
       (targetTakes (fld cfg 53 50) ty = true → (fld cfg 53 50 < 6 ∨ s.lic 2 = true) →
         exec (.queueCommandFetch q ext) s =
           .next (u.setCq q { u.cq q with cmds := (u.cq q).cmds ++ [{ seqno := cons, bytes := bytes }] })) ∧
       (targetTakes (fld cfg 53 50) ty = false → (completeWith q cons ty 0x311 0).gives u () s2 →
         exec (.queueCommandFetch q ext) s = .next s2)) ∧
     exec (.queueIrqTimer q) s = .next (if s.rb (qReg q 0x30) 63 = true ∧ (s.cq q).unrep ≠ 0 ∧
       (s.cq q).since + 1000 * s.rf (qReg q 0x30) 15 0 ≤ s.time then s.queueIrq q else s)) ∧
  (∀ (s : State) (v : Nat) (o : Origin),
     (∀ q, q < 8192 → o.isDrd = true →
       let cfg := s.rn (qReg q 0)
       (s.heard o (qReg q 0) = true →
         let n := keepBits v (maskBits 63 35); let s1 := (s.noted o (qReg q 0) v).putAt (qReg q 0) n
         (bit cfg 63 = false → fld n 53 50 ≤ 8 → bit n 63 = true → 4 ≤ fld n 39 35 → fld n 39 35 ≤ 16 →
           exec (.hifQCfgWrite q 0 v o) s = .next ((s1.putAt (qReg q 0x20) 0).putAt (qReg q 0x28) 0)) ∧
         (bit cfg 63 = true → n = setFld cfg 63 63 0 → bit n 63 = false → exec (.hifQCfgWrite q 0 v o) s = .next s1)) ∧
       (∀ k, 0 < k → k < 4 → bit cfg 63 = false → s.heard o (qReg q (8 * k)) = true →
         exec (.hifQCfgWrite q k v o) s = .next ((s.noted o (qReg q (8 * k)) v).putAt (qReg q (8 * k))
           (if k = 1 then v else keepBits v (maskBits 47 6)))) ∧
       (v < 2 ^ 32 → (s.rf (qReg q 0x28) 63 32 + 2 ^ 32 - v) % 2 ^ 32 < 2 ^ 31 → s.heard o (qReg q 0x28) = true →
         exec (.hifCconsWrite q v o) s = .next (s.setF (qReg q 0x28) 31 0 v))) ∧
     (∀ p f, p < 4 → f < 64 → o.isDrd = true → s.heard o (fnCfg p f) = true → (f = 0 ∨ s.rb (fnCfg p f) 63 = false) →
       let n := keepBits v (maskBits 63 53)
       exec (.hifFnCfgWrite p f v o) s =
         .next ((s.noted o (fnCfg p f) v).putAt (fnCfg p f) (if f = 0 then setFld n 63 63 1 else n))) ∧
     (∀ n, n < 4 → s.lic 2 = true → s.heard o (ethReg n) = true → s.rb (ethReg n) 63 = false →
       let k := keepBits v (maskBits 63 32 + maskBits 13 0)
       o.mine (fld k 62 60) = true → fld k 59 58 ≠ 3 → exec (.ethPortCfgWrite n v o) s = .next (s.putAt (ethReg n) k)) ∧
     (s.heard o 0x30 = true → (o.isDrd || o.isPf) = true → fld v 62 61 ≠ 1 ∨ s.lic 2 = true →
       exec (.glbPtpCfgWrite v o) s = .next ((s.noted o 0x30 v).putAt 0x30 (keepBits v (maskBits 63 49)))))

/-- A write that completes an inbound message puts it behind the others, one that does not only changes the buffer; a mailbox's
consumed count and binding take their writes; an outbound message goes to its ring with the interrupt its binding asks for
(R541, R561, R562, R564). MBX takes the oldest inbound message into the cistern, sends 64 bytes of it, and counts the messages
that wait; with an empty mailbox RECV waits, and with a full one SEND does (R563). -/
def Obligations.Mailboxes : Prop :=
  (∀ (s : State) (p f m : Nat), m < 1024 → s.ready = true → s.fnFrozen p f = false →
     let t := m / 16; let k := m % 16; let tl := s.tile t; let b := tl.mbxAt k
     (tl.mbxBound k false p f = true →
       ∀ off data, off + data.length ≤ 64 → data ≠ [] →
       let buf := spWrite dByte b.buf off data
       (off + data.length < 64 → exec (.mbxInboundWrite p f m off data) s =
         .next (s.setTile t (tl.setMbx k { b with buf := buf }))) ∧
       (off + data.length = 64 → b.msgs.length < 16 → exec (.mbxInboundWrite p f m off data) s =
         .next (s.setTile t (tl.setMbx k
           { b with buf := [], msgs := b.msgs ++ [spRead dByte buf 0 64], committed := (b.committed + 1) % 2 ^ 32 }))) ∧
       (off + data.length = 64 → 16 ≤ b.msgs.length → exec (.mbxInboundWrite p f m off data) s =
         .next (s.setTile t ((tl.setMbx k { b with buf := [] }).setReg 0xC100 (satCount (tl.reg 0xC100) 1))))) ∧
     (∀ off data, tl.mbxBound k false p f = false → off + List.length data ≤ 64 →
       exec (.mbxInboundWrite p f m off data) s = .next (s.count (portErr p 0x10) 1)) ∧
     (∀ v, tl.mbxBound k true p f = true →
       let left := (b.sent + 2 ^ 32 - v % 2 ^ 32) % 2 ^ 32
       left ≤ b.sent - b.consumed → exec (.mbxConsumedWrite p f m v) s =
         .next (s.setTile t (tl.setMbx k { b with consumed := b.sent - left }))) ∧
     (∀ x rest, let r := (tl.reg (mbxReg k true)).toNat
       b.outbox = x :: rest → bit r 63 = true →
       let s1 := (s.setTile t (tl.setMbx k { b with outbox := rest, delivered := b.delivered + 1 })).toHost (fld r 62 61)
         (fld r 60 55) (fld r 42 6 * 64 + 64 * (b.delivered % 16)) x
       exec (.mbxOutboundDeliver t k) s = .next (if bit r 43 then s1.emit (.msix (fld r 62 61) (fld r 60 55) (fld r 54 44)) else s1)) ∧
     (∀ v o, s.tileUp t = true → s.heard o (tileReg t (mbxReg k false)) = true → o.mine (s.tilePart t) = true → b.msgs = [] →
       let n := keepBits v (maskBits 63 55)
       s.rf (fnCfg (fld n 62 61) (fld n 60 55)) 62 60 = s.tilePart t →
       exec (.mbxCfgWrite t k false v o) s = .next (s.setTile t (tl.setReg (mbxReg k false) (BitVec.ofNat 64 n))))) ∧
  (∀ (s : State) (t : Nat) (w : IWord) (r : Run) (k : LKernel), (s.tile t).running = some (r, k) → s.canIssue t 0x73 w 0 = true →
     let tl := s.issuing t r 0x73; let y := tl.ctx r.ctx; let a := (y.aGet w.sa.toNat).toNat
     let m := 4 * r.ctx + fld w.imm.toNat 1 0; let b := tl.mbxAt m
     (w.fn = 0 → bit (tl.reg (mbxReg m false)).toNat 63 = true → a % 64 = 0 → a + 64 ≤ k.cisBytes → r.jmode = 0 →
       spWf dTile s.tiles = true → ∀ x rest, b.msgs = x :: rest →
       let u := tl.setMbx m { b with msgs := rest, taken := (b.taken + 1) % 2 ^ 32 }
       exec (.mbxRecv t w) s = .next (s.went t r 0x73 w (u.effect.cisPut (k.cisOff + a) x))) ∧
     (w.fn = 1 → bit (tl.reg (mbxReg m true)).toNat 63 = true → a % 64 = 0 → b.sent - b.consumed < 16 → readable tl k a 64 = true →
       exec (.mbxSend t w) s = .next (s.went t r 0x73 w
         (tl.setMbx m { b with outbox := b.outbox ++ [tl.cisBytes (k.cisOff + a) 64], sent := b.sent + 1 }).effect)) ∧
     (w.fn = 2 → bit (tl.reg (mbxReg m false)).toNat 63 = true →
       exec (.mbxCount t w) s = .next (s.went t r 0x73 w (tl.setCtx r.ctx (y.sSet w.dst.toNat (BitVec.ofNat 64 b.msgs.length))))))

/-- The commands on queue pairs and memory regions complete (R570, R571): QP_SET moves a queue pair to INIT, RTR or RTS, with the
packet sequence numbers of the states that set them, or back to RESET; DESTROY forgets it; MR_REG and MR_DEREG enter and remove
a region. A QP_SET that breaks R571 and an MR_REG of a key in use change nothing. The entries of a send queue go out on a queue
pair in RTS with the bytes at LADDR, a READ without them, a raw frame as it is; a receive entry is posted; and a frame that is
neither RoCE nor PTP fills the oldest entry posted to RAWQ or is dropped and counted (R567, R568, R572). -/
def Obligations.RdmaCommands : Prop :=
  (∀ (s s1 s2 s3 : State) (q : Nat) (c : QCmd),
     let n := c.f 4 4; let v := s1.queueView q 6; let old := s1.qp n; let st := c.f 2 1
     ((takeCmd q 0x50).gives s c s1 → c.zero 0x35 11 = true →
       (s1.qpSetOk q c = true →
         (st ≠ 0 → st ≠ 4 →
           (completeWith q c.seqno 0x50 0 0).gives (s1.setQp n { old with
             state := st, port := c.f 1 1, mtu := c.f 3 1, sq := c.f 8 2, rq := c.f 0xA 2, dqpn := c.f 0xC 4
             dgid := (c.bytes.drop 0x10).take 16, dmac := (c.bytes.drop 0x20).take 6, vlan := c.f 0x26 2, dscp := c.f 0x30 1
             prio := c.f 0x31 1, retry := c.f 0x32 1, timeout := c.f 0x33 1, maxrd := c.f 0x34 1, part := v.part, as := v.as.getD 0
             psn := if st = 3 then c.f 0x28 4 else old.psn, epsn := if st = 2 then c.f 0x2C 4 else old.epsn
             left := c.f 0x32 1 }) () s2 →
           exec (.rdmaQpSet q) s = .next s2) ∧
         (st = 0 → (qpFlush n).gives s1 () s2 →
           (completeWith q c.seqno 0x50 0 0).gives (s2.setQp n
             { Qp.none with port := c.f 1 1, sq := c.f 8 2, rq := c.f 0xA 2, part := v.part, as := v.as.getD 0 }) () s3 →
           exec (.rdmaQpSet q) s = .next s3)) ∧
       (s1.qpSetOk q c = false → (completeWith q c.seqno 0x50 0xC10 0).gives s1 () s2 → exec (.rdmaQpSet q) s = .next s2)) ∧
     ((takeCmd q 0x51).gives s c s1 → c.zero 1 3 = true → c.zero 8 56 = true → old ≠ .none → old.part = s1.qPart q →
       (qpFlush n).gives s1 () s2 → (completeWith q c.seqno 0x51 0 0).gives (s2.setQp n .none) () s3 →
       exec (.rdmaQpDestroy q) s = .next s3) ∧
     ((takeCmd q 0x52).gives s c s1 → c.zero 2 2 = true → c.zero 0x18 40 = true → c.f 1 1 < 4 → c.f 0x10 8 ≠ 0 → s1.mrs.length < 65536 →
       (spGet dMr s1.mrs n = none → (completeWith q c.seqno 0x52 0 0).gives { s1 with mrs := spSet dMr s1.mrs n (some
           { access := c.f 1 1, base := c.f 8 8, len := c.f 0x10 8, part := s1.qPart q, as := s1.rf (qReg q 0) 59 54 }) } () s2 →
         exec (.rdmaMrReg q) s = .next s2) ∧
       (spGet dMr s1.mrs n ≠ none → (completeWith q c.seqno 0x52 0xC11 0).gives s1 () s2 → exec (.rdmaMrReg q) s = .next s2)) ∧
     ((takeCmd q 0x53).gives s c s1 → c.zero 1 3 = true → c.zero 8 56 = true →
       ∀ m, spGet dMr s1.mrs n = some m → m.part = s1.qPart q →
         (completeWith q c.seqno 0x53 0 0).gives { s1 with mrs := spSet dMr s1.mrs n none } () s2 →
         exec (.rdmaMrDereg q) s = .next s2)) ∧
  (∀ (s s1 s2 s3 : State) (q n : Nat) (c : QCmd),
     let qp := s1.qp n; let reads := (qp.out.filter fun m => m.type == 0x64).length
     let m := fun type data => ({
       psn := 0, pkts := 0, type := type, data := data, raddr := c.f 0x18 8, rkey := c.f 0x20 4, len := c.f 4 4, imm := c.f 0x24 4
       cmd := some (q, c.seqno), tag := c.f 0x10 8, laddr := c.f 8 8, got := 0 } : QpMsg)
     (s.qpOfQueue q true = some n → qp.state = 3 → bit (c.f 1 1) 0 = false ∨ reads = 0 →
       (∀ ext bs type i, (type, i) ∈ [(0x60, Instr.rdmaSend q ext), (0x61, .rdmaSendImm q ext), (0x62, .rdmaWrite q ext), (0x63, .rdmaWriteImm q ext)] →
         (takeCmd q type).gives s c s1 → (vaRead (s1.rdmaView q (.qp n)) 0 (c.f 8 8) (c.f 4 4) ext).gives s1 (.ok bs) s2 →
         exec i s = .next (s2.qpPost n (m type bs))) ∧
       ((takeCmd q 0x64).gives s c s1 → reads < qp.maxrd → exec (.rdmaRead q) s = .next (s1.qpPost n (m 0x64 [])))) ∧
     (∀ ext bs, s.qpOfQueue q true = some n → (takeCmd q 0x65).gives s c s1 → qp.state ≠ 4 → 60 ≤ c.f 4 4 →
       c.f 4 4 + 4 ≤ s1.rf (ethReg qp.port) 45 32 →
       (vaRead (s1.rdmaView q (.qp n)) 0 (c.f 8 8) (c.f 4 4) ext).gives s1 (.ok bs) s2 →
       (complete q c.seqno (rdmaRecord c 0 0 bs.length 0xFF s2.time)).gives (s2.emit (.eth qp.port bs)) () s3 →
       exec (.rawSend q ext) s = .next s3) ∧
     ((takeCmd q 0x68).gives s c s1 → (∀ n, s1.qpOfQueue q false = some n → (s1.qp n).state ≠ 4) →
       exec (.rdmaRecvPost q) s = .next (s1.setCq q { s1.cq q with posted := (s1.cq q).posted ++ [c] })) ∧
     (∀ port frame, port < 4 → s.lic 2 = true → s.rb (ethReg port) 63 = true → frame.length ≤ s.rf (ethReg port) 45 32 →
       passesOn frame = false →
       let raw := s.rf (ethReg port) 12 0
       (s.rb (ethReg port) 13 = true → (s.cq raw).posted ≠ [] → ∀ a, (recvInto raw (.queue raw) frame none).gives s a s1 →
         exec (.ethFrameReceive port frame) s = .next s1) ∧
       (s.rb (ethReg port) 13 = false → exec (.ethFrameReceive port frame) s = .next (s.count (0x60100 + 8 * port) 1))))

/-- A responder serves the message whose turn it is (R569, R573): a READ with its data, a WRITE and a SEND with an acknowledgement;
a message ahead of its turn gets a NAK, and one that passes no check of R573 a NAK for remote access error. A requester's queue
pair takes its responses (R569, R573): an acknowledgement completes what it covers, a NAK for remote access error fails the
oldest entry, an RNR NAK waits 10 µs and sends again, and a timeout sends everything outstanding again and uses up a retry. A
sprinkle message goes out a second time when its second copy is due (R575). -/
def Obligations.RdmaMessages : Prop :=
  (∀ (s s1 : State) (n psn : Nat), s.qp n ≠ .none → s.lic 2 = true →
     let q := s.qp n
     let ack := fun k p (s : State) =>
       s.emit (.roce (s.qp n).port (s.qp n).dgid (s.qp n).dqpn 0x11 p (beBytes 1 k ++ beBytes 3 (s.qp n).msn))
     let served := fun k (s : State) => s.setQp n { s.qp n with epsn := ((s.qp n).epsn + k) % 2 ^ 24, msn := ((s.qp n).msn + 1) % 2 ^ 24 }
     (∀ key va len m bs, psn = q.epsn → s.mrFor n key va len 0 = some m → (inRead (s.mrView n m) 0 va len).gives s (.ok bs) s1 →
       exec (.rdmaInboundRead n psn key va len) s = .next (served (q.packets len) (s1.readResponse n psn bs))) ∧
     (∀ key va data m, psn = q.epsn → s.mrFor n key va data.length 1 = some m →
       (inWrite (s.mrView n m) 0 va data).gives s (.ok ()) s1 →
       exec (.rdmaInboundWrite n psn key va data none) s =
         .next (ack 0x1F ((psn + q.packets data.length - 1) % 2 ^ 24) (served (q.packets data.length) s1))) ∧
     (∀ data imm, (q.state = 2 ∨ q.state = 3) → psn = q.epsn → q.rq ≠ 0xFFFF →
       (recvInto q.rq (.qp n) data imm).gives s (some false) s1 →
       exec (.rdmaInboundSend n psn data imm) s =
         .next (ack 0x1F ((psn + q.packets data.length - 1) % 2 ^ 24) (served (q.packets data.length) s1))) ∧
     (∀ key va len data imm, psn ≠ q.epsn → psnBefore psn q.epsn = false →
       exec (.rdmaInboundRead n psn key va len) s = .next (ack 0x60 q.epsn s) ∧
       exec (.rdmaInboundWrite n psn key va data imm) s = .next (ack 0x60 q.epsn s) ∧
       (q.state = 2 ∨ q.state = 3 → exec (.rdmaInboundSend n psn data imm) s = .next (ack 0x60 q.epsn s))) ∧
     (∀ key va len, psn = q.epsn → s.mrFor n key va len 0 = none →
       exec (.rdmaInboundRead n psn key va len) s = .next (ack 0x62 psn s))) ∧
  (∀ (s s1 s2 : State) (n psn : Nat),
     let q := s.qp n; let before := (psn + 2 ^ 24 - 1) % 2 ^ 24
     let again := fun (s : State) =>
       ((s.qp n).out.foldl (fun s m => s.sendPackets n m) s)
     (q.state = 3 → q.out ≠ [] →
       ((qpAcked n psn).gives s () s1 → ∀ data, exec (.rdmaResponseReceive n 0 psn data) s = .next s1) ∧
       ((qpAcked n before).gives s () s1 → ∀ data,
         ((qpFail n 0xC12).gives s1 () s2 → exec (.rdmaResponseReceive n 2 psn data) s = .next s2) ∧
         exec (.rdmaResponseReceive n 4 psn data) s = .next (s1.setQp n { s1.qp n with rnr := true, since := s1.time }) ∧
         exec (.rdmaResponseReceive n 5 psn data) s = .next (again s1))) ∧
     (0 < q.left →
       let s0 := s.setQp n { q with left := q.left - 1, since := s.time, rnr := false }
       (q.rnr = true → q.since + 10000 ≤ s.time → exec (.rdmaRnrRetry n) s = .next (again s0)) ∧
       (q.state = 3 → q.out ≠ [] → q.rnr = false → q.since + 4096 * 2 ^ q.timeout ≤ s.time →
         exec (.rdmaRetransmitTimeout n) s = .next (again s0))) ∧
     (q.left = 0 → (qpFail n 0xC13).gives s () s1 →
       (q.state = 3 → q.out ≠ [] → q.rnr = false → q.since + 4096 * 2 ^ q.timeout ≤ s.time →
         exec (.rdmaRetransmitTimeout n) s = .next s1)) ∧
     (∀ due port m rest, s.udAgain = (due, port, n, m) :: rest → due ≤ s.time →
       exec .spkUdResend s = .next ({ s with udAgain := rest }.emit (.roce port q.dgid 2 0x64 0 m))))

/-- A measurement of the discipline's chosen source steps GLB_PTP_OFFSET when the error is above 1 ms, and keeps the error and the
lock in GLB_PTP_STATUS, which resets to 0 and whose other bits stay 0 (R579): the lock comes with the sixteenth error in a row
below 100 ns, and goes with one of 1 µs or more. -/
def Obligations.DeviceTime : Prop :=
  State.reset.rn 0x40 = 0 ∧ State.reset.ptpGood = 0 ∧
  ∀ (s : State) (n : Nat) (err : Int), spWf regInit s.regs = true → s.rb 0x30 63 = true → s.rf 0x30 60 59 = n →
    let good := if err.natAbs < 100 then s.ptpGood + 1 else 0
    let after := fun i => ∃ s', exec i s = .next s' ∧ s'.ptpGood = good ∧
      s'.rf 0x40 31 0 = wrap 32 err ∧ s'.rf 0x40 62 32 = 0 ∧
      s'.rb 0x40 63 = (if 1000 ≤ err.natAbs then false else if 16 ≤ good then true else s.rb 0x40 63) ∧
      s'.rn 0x38 = (if 1000000 < err.natAbs then wrap 64 ((s.rn 0x38 : Int) + err) else s.rn 0x38) ∧
      (∀ off, off ≠ 0x38 → off ≠ 0x40 → s'.reg off = s.reg off) ∧ { s' with ptpGood := s.ptpGood, regs := s.regs } = s
    (s.rf 0x30 62 61 = 1 → s.lic 2 = true → after (.ptpMessageReceive n err)) ∧
    (s.rf 0x30 62 61 = 2 → after (.ptmResponseReceive n err))

/-! ### The media unit -/

/-- A doorbell of a media ring moves PI, a job is fetched behind the others, and a ring's configuration takes its owner's write
while the ring is disabled (R586, R587, R588). MED_OPEN and MED_CLOSE run when their turn has come and their checks pass: a
session with its number, direction and engine, and its end (R591 to R594). A job of a session that is not open ends with
MED_BAD_SESSION. MED_DECODE of a session decodes its units, writes out the frames that its output takes, as planes or as a
tensor, each with its frame-info entry, keeps what stays ready, and reports them (R594 to R604). MED_ENCODE codes its frames in
order from its input and reports the bytes it made (R605, R609). A job that has run writes its result record and completes with
its status (R616, R618); a slice entry that waits goes into its ring once there is room (R612); and an engine that fails takes
its sessions with it, whose jobs end with MED_ENGINE_FAILED (R617). -/
def Obligations.Media : Prop :=
  (∀ (s s1 : State) (r : Nat), r < 32 →
     let q := ringQ r; let cons := s.rf (qReg q 0x20) 31 0
     (∀ v o, let off := hifReg (0x4030 + 0x40 * r)
       s.heard o off = true → (o.isPf && o.part == s.rf (qReg q 0) 62 60) = true → v < 2 ^ 32 →
       let s0 := (s.noted o off v).shadowing off v; let pi := s0.rf (qReg q 0x20) 63 32; let n := s0.rf (qReg q 0x20) 31 0
       s.rb (qReg q 0) 63 = true → (v + 2 ^ 32 - pi) % 2 ^ 32 < 2 ^ 31 → (v + 2 ^ 32 - n) % 2 ^ 32 ≤ s0.qSize q →
       exec (.hifMrDoorbell r v o) s = .next (s0.setF (qReg q 0x20) 63 32 v)) ∧
     (∀ k v o, k < 3 → o.isDrd = true → s.heard o (hifReg (0x4000 + 0x40 * r + 8 * k)) = true → s.rb (qReg q 0) 63 = false →
       (k = 0 → bit v 63 = true → 4 ≤ fld v 44 40 ∧ fld v 44 40 ≤ 12) →
       let off := hifReg (0x4000 + 0x40 * r + 8 * k); let n := keepBits v (if k = 0 then maskBits 63 40 else maskBits 47 6)
       let s1 := (s.noted o off v).putAt off n
       exec (.hifMrCfgWrite r k v o) s = .next
         ((if k = 0 ∧ bit n 63 = true then (s1.putAt (qReg q 0x20) 0).putAt (qReg q 0x28) 0 else s1).closeRing r)) ∧
     (∀ ext bytes, s.rb (qReg q 0) 63 = true → cons ≠ s.rf (qReg q 0x20) 63 32 →
       (s.rf (qReg q 0x28) 63 32 + (s.cq q).owed.length + 2 ^ 32 - s.rf (qReg q 0x28) 31 0) % 2 ^ 32 < s.qSize q →
       (vaRead (s.queueView q 7) 0 (s.rf (qReg q 0x10) 47 6 * 64 + 128 * (cons % s.qSize q)) 128 ext).gives s (.ok bytes) s1 →
       let u := s1.setF (qReg q 0x20) 31 0 (cons + 1); let u := u.setCq q { u.cq q with owed := (u.cq q).owed ++ [(cons, none)] }
       let j : MedJob := { ring := r, idx := cons, bytes := bytes, t0 := s.time, res := none }
       s.medThere (s.rf (qReg q 0) 53 53) = true → 0x70 ≤ j.type → j.type ≤ 0x73 →
       exec (.mediaJobFetch r ext) s = .next { u with jobs := u.jobs ++ [j] })) ∧
  (∀ (s : State) (r i : Nat) (j : MedJob), s.medWaits j = false →
     let done := fun (res : MedRes) (s : State) =>
       { s with jobs := s.jobs.map fun k => if k.ring = r ∧ k.idx = i then { k with res := some res } else k }
     let turn := fun ty => s.jobs.find? fun j => j.ring == r && j.idx == i && j.res.isNone && j.type == ty
     (turn 0x70 = some j →
       let d := s.rf (qReg (ringQ r) 0) 53 53; let enc := j.f 0x19 1 == 1
       let rate := if j.f 0x40 1 = 2 then j.f 0x54 4 else j.f 0x48 4
       ((!enc || s.lic 4) = true → medOpenOk j = true → medSupported j = true →
         (s.sessions.filter fun x => x.die == d).length < 64 → medStore j ≤ j.f 0x38 8 → j.f 0x1D 1 ≠ 0 →
         ∀ e, s.medEngines d enc = [e] → exec (.medOpen r i) s =
           .next (done { MedRes.zero with detail := s.nextId % 2 ^ 32 } { s with nextId := s.nextId + 1, sessions := s.sessions ++ [
             { num := s.nextId % 2 ^ 32, ring := r, die := d, eng := e, desc := j.bytes, failed := false, shown := 0, ready := [], coded := 0
               full := min (rate * j.f 0x50 4) (1000 * j.f 0x4C 4) * j.f 0x24 4, seq := 0, fall := none }] })) ∧
       ((enc && !s.lic 4) = true → exec (.medOpen r i) s = .next (done { MedRes.zero with status := 0x10 } s))) ∧
     (turn 0x73 = some j → (j.hdrOk 0 && j.zero 0x18 104) = true →
       (∀ x, s.session j.num = some x → x.ring = j.ring → exec (.medClose r i) s =
         .next (done MedRes.zero { s with sessions := s.sessions.filter fun y => y.num != x.num })) ∧
       (s.session j.num = none → exec (.medClose r i) s = .next (done { MedRes.zero with status := 0xD02 } s)))) ∧
  (∀ (s s1 s2 s3 : State) (r i : Nat) (j : MedJob) (x : Sess), s.medWaits j = false → s.session j.num = some x → x.ring = j.ring →
     x.failed = false →
     let done := fun (res : MedRes) (s : State) =>
       { s with jobs := s.jobs.map fun k => if k.ring = r ∧ k.idx = i then { k with res := some res } else k }
     let turn := fun ty => s.jobs.find? fun j => j.ring == r && j.idx == i && j.res.isNone && j.type == ty
     (turn 0x71 = some j → medDecodeOk j = true → x.f 0x19 1 = 0 → ∀ us tail bs pix pr data,
       let room := j.f 0x38 4; let step := j.f 0x29 1
       let w0 : MedWork := { units := 0, bytes := 0, out := [], ready := x.ready, shown := x.shown, conceal := 0, resync := 0, samples := 0 }
       let w1 := medUnits j (w0.drain step room) us
       let w := if j.f 1 1 = 1 ∧ w1.out.length < room then { w1 with ready := w1.ready ++ tail }.drain step room else w1
       let used := min w.bytes (j.f 0x20 4); let d := tdOf (BitVec.ofNat 512 (leNat pr))
       (medRead x (j.f 0x30 8) 64 pix).gives s pr s1 → (medRead x (j.f 0x18 8) used bs).gives s1 data s2 →
       (j.f 0x28 1 = 1 → medTdOk d (3 * room) = true ∧ ∀ g ∈ w.out, medOutSize j g = (d.cols, d.rows)) →
       let u := (((s2.setSession { x with shown := w.shown, ready := w.ready }).count (medReg x.die 8) w.conceal).count
         (medReg x.die 0x10) w.resync).perf (medReg x.die 0x100) w.samples
       (forAll w.out.zipIdx fun p => do
         if j.f 0x28 1 = 0 then medPlanes x j pr p.1 p.2
         else forAll [0, 1, 2] fun c => medChannel x j d p.1 c (3 * p.2 + c)
         medWrite x (j.f 0x40 8 + 16 * p.2) (medInfo p.1)).gives u () s3 →
       exec (.medDecode r i us tail bs pix) s = .next (done { MedRes.zero with
         flags := b2n (decide (0 < w.conceal)) + 2 * b2n (decide (0 < w.resync)) + 64 * b2n (decide (room ≤ w.out.length))
         units := w.units, frames := w.out.length, bytes := used, detail := used
         conc := (w.out.filter fun g => bit g.flags 0).length, first := (w.out.head?.map (·.order)).getD 0
         last := (w.out.getLast?.map (·.order)).getD 0 } s3)) ∧
     (turn 0x72 = some j → medEncodeOk j = true → x.f 0x19 1 = 1 → ∀ cs pr pix cons st,
       j.f 0x22 2 ≤ x.f 0x20 2 → j.f 0x24 2 ≤ x.f 0x22 2 → medSlices x j = false →
       (medInput x j pr pix).gives s () s1 →
       (medFrames j 0 { at_ := 0, x := x, flags := 0, status := 0, samples := 0 } cs).gives s1 st s2 →
       s3 = (s2.setSession st.x).perf (medReg x.die 0x108) st.samples → st.status = 0 →
       exec (.medEncode r i cs pr pix cons) s = .next (done { MedRes.zero with
           flags := st.flags, frames := cs.length, bytes := st.at_, detail := st.at_, first := (cs.head?.map (·.order)).getD 0
           last := (cs.getLast?.map (·.order)).getD 0, full := st.x.full / max 1 (x.f 0x24 4) } s3))) ∧
  (∀ (s s1 s2 : State),
     (∀ r i j m, s.jobs.find? (fun j => j.ring == r && j.idx == i) = some j → j.res = some m → (∀ x ∈ s.sessions, x.fall = none) →
       j.f 0x10 8 % 64 = 0 →
       (vaWrite { s.queueView (ringQ r) 7 with who := .media j.num } 0 (j.f 0x10 8) (m.record s.time)).gives s (.ok ()) s1 →
       (complete (ringQ r) i (recordBytes i m.status j.type 0xFF (j.f 8 8) m.flags m.detail s.time)).gives
         { s1 with jobs := s1.jobs.filter fun k => !(k.ring == r && k.idx == i) } () s2 →
       exec (.medJobComplete r i) s = .next (s2.closeRing r)) ∧
     (∀ num x idx e j c cons y, s.session num = some x → x.fall = some (idx, e) →
       s.jobs.find? (fun j => j.ring == x.ring && j.idx == idx) = some j → (medRead x (j.f 0x38 8) 4 cons).gives s c s1 →
       (putSlice x j (leNat c) e).gives s1 (y, true) s2 →
       exec (.sliceFallbackEntry num cons) s = .next (s2.setSession { y with fall := none })) ∧
     (∀ d e, d < 2 → e < 3 → s.medThere d = true →
       let u := { s.defect 8 (4 * d + e) 0 1 with medDead := Nat.lor (Nat.lor s.medDead (2 ^ (4 * d + e))) (2 ^ (4 * d + 3)) }
       let hit := s.sessions.filter fun x => x.die == d && x.eng == e
       let u1 := hit.foldl (fun s x => s.failSession x.num) u
       let u2 := { u1 with jobs := u1.jobs.map fun (j : MedJob) =>
         if j.res.isNone ∧ j.type ≠ 0x70 ∧ hit.any (fun x => x.ring == j.ring && x.num == j.num) then
           { j with res := some { MedRes.zero with status := 0xD0B } } else j }
       exec (.medEngineFault d e false) s = .next (u2.logRec 6 Origin.drd 0 (medReg d 0) (4 * d + e)).capChange.reservice))

/-! ### The device -/

/-- Cold reset and the power lands (R708, R709, R714, R717): standby power brings the part up under cold reset, power good is taken
while it is held, an assertion of 10 µs and a loss of power good clear what R709 clears, and shorter ones do nothing. A cold
start (R623, R628 to R631): a part that fails its own tests asserts FAULT_N and stays where it is, one without a bootable bank
goes to recovery mode with cause 5, and one whose images pass goes on through its stages to the end of its start. Device time
counts from 0. A warm restart (R656 to R659, R717): the pin held for 10 µs, or a GLB_RESET with its key, starts it outside cold
reset; one whose banks do not boot ends in recovery mode; and it keeps memory, the page states, device time and the flash. -/
def Obligations.Starts : Prop :=
  (∀ (s : State) (us strap : Nat),
     (s.pins.standby = false → exec (.standbyPowerUp strap) s =
       .next { s.cleared with pins := { Pins.reset with pwrgd := false, smb := strap % 8 } }) ∧
     (s.pins.standby = true → s.pins.cold = true → exec .pwrgdAssert s = .next { s with pins := { s.pins with pwrgd := true } }) ∧
     (10 ≤ us → s.pins.standby = true → exec (.coldResetAssert us) s = .next s.coldReset) ∧
     (us < 10 → exec (.coldResetAssert us) s = .next s) ∧
     (1 ≤ us → s.pins.pwrgd = true →
       let s1 := { s with pins := { s.pins with pwrgd := false } }
       exec (.pwrgdLoss us) s = .next (if s.pins.cold then s1 else (s1.noteEvent 8 0 0 0).coldReset.setFault true)) ∧
     exec (.pwrgdLoss 0) s = .next s ∧
     s.cleared.mem = [] ∧ s.cleared.regs = [] ∧ s.cleared.flash = s.flash ∧ s.cleared.fuses = s.fuses ∧ s.cleared.pending = s.pending) ∧
  (∀ (s v v1 s1 s2 s3 : State) (b : Findings) (bank : Option Nat),
     s.pins.cold = true → s.pins.pwrgd = true → s.pins.standby = true →
     let s0 := { s with time := 0, pins := { s.pins with cold := false } }
     ((b.testLow || !b.fuseOk) = true → exec (.coldResetRelease b) s = .next (s0.setFault true)) ∧
     ((b.testLow || !b.fuseOk) = false → (s0.stage 2).selectBank = (v, bank) →
       let u := { v with boot := { v.boot with ports := b.ports % 16 } }
       (bank = none → exec (.coldResetRelease b) s = .next (u.recover (5, 1, 0, 0, 0))) ∧
       (∀ k, bank = some k → (checkImages k).gives (u.stage 3) true v1 → (commonStart b).gives (v1.stage 4) () s1 →
         (qualifyStacks b).gives (s1.stage 7) () s2 →
         (finishStart b).gives ((((s2.qualifyBoards b).stage 9).assignSites b.badSites (deadTiles b)).stage 0xA) () s3 →
         exec (.coldResetRelease b) s = .next s3) ∧
       (∀ k, bank = some k → (checkImages k).gives (u.stage 3) false s1 → exec (.coldResetRelease b) s = .next s1))) ∧
  (∀ (s s1 : State) (us v : Nat) (o : Origin) (b : Findings),
     (s.pins.cold = false → s.pins.trip = false → s.rf 0x18 31 24 ≠ 1 → (∀ n, s.fw.busy ≠ some (5, n) ∧ s.fw.busy ≠ some (6, n)) →
       (10 ≤ us → o.isDrd = false → (warmStart b).gives s () s1 → exec (.warmRestart none us o b) s = .next s1) ∧
       (us < 10 → o.isDrd = false → exec (.warmRestart none us o b) s = .next s) ∧
       (v < 2 ^ 32 → fld v 31 16 = 0xA5C3 → (o.isDrd || originPf0 o) = true →
         let s0 := (s.noted o 0x20 v).shadowing 0x20 v
         (bit v 0 = true → (warmStart b).gives s0 () s1 → exec (.warmRestart (some v) us o b) s = .next s1) ∧
         (bit v 0 = false → exec (.warmRestart (some v) us o b) s = .next s0))) ∧
     (s.ready = false →
       let w := (s.warmCleared.setF 0x18 19 19 1).stage 0x13
       ∀ u, (if w.power.brake then w.setF 0x30008 61 61 1 else w).selectBank = (u, none) →
         (warmStart b).gives s () (u.recover (5, 1, 0, 0, 0))) ∧
     (let w := s.warmCleared
      w.mem = s.mem ∧ w.frames = s.frames ∧ w.time = s.time ∧ w.flash = s.flash ∧ w.excluded = s.excluded ∧ w.boards = s.boards))

/-- The operations of DRD_FW_CTRL (R632): each of the seven starts when none runs, and is recorded. The end of an operation of the
flash unit (R634, R638, R647): BEGIN opens the staging, CHUNK writes the window behind the bytes staged, COMMIT makes a bank
that passes its checks the next to boot, ABORT ends the staging with its code, and what breaks the rules has its code and no
effect. -/
def Obligations.FlashUnit : Prop :=
  (∀ (s : State) (len : Nat) (o : Origin), s.heard o 0x10010 = true → (originPf0 o || o.cls == 4) = true → s.fw.busy = none →
     ∀ op i, (op, i) ∈ [(1, Instr.fwBegin len o), (2, .fwChunk len o), (3, .fwCommit len o), (4, .fwAbort len o), (5, .licAdd len o),
         (6, .defectClear len o), (7, .fwRead len o)] →
       let v := op <<< 60 + len % 2 ^ 32; let s1 := (s.noted o 0x10010 v).shadowing 0x10010 v
       exec i s = .next { s1 with fw := { s1.fw with busy := some (op, len % 2 ^ 32) } }) ∧
  (∀ (s : State) (len : Nat),
     let ends := fun op (r : State × Nat) => s.fw.busy = some (op, len) →
       exec (.fwOpComplete true) s = .next { r.1 with fw := { r.1.fw with busy := none, code := r.2 } }
     let closed := { s with fw := { s.fw with staging := none } }
     let (_, _, active, next, bootno) := s.flashHdr
     (s.fw.staging = none →
       (1 ≤ len → len ≤ 31457280 → let u := if next = 0xFF then s else s.putHdr active 0xFF bootno
         ends 1 ({ u with fw := { u.fw with staging := some len, got := 0, pend := false } }, 0)) ∧
       (len = 0 → ends 1 (s, 0x0E05)) ∧ ends 2 (s, 0x0E05) ∧ ends 4 (closed, 0) ∧
       (∀ u, s.licOk (s.fwWin 128) = true → s.addLicence (s.fwWin 128) = some u → ends 5 (u, 0)) ∧
       (s.licOk (s.fwWin 128) = false → ends 5 (s, 0x0E07)) ∧
       (∀ d, s.defects[len]? = some d → d.kind = 5 ∨ d.kind = 6 → ends 6 ({ s with
         defects := s.defects.set len { d with st := 2 }, defPrev := s.defects, defSeq := (s.defSeq + 1) % 2 ^ 32 }, 0)) ∧
       (s.defects[len]? = none → ends 6 (s, 0x0E09))) ∧
     (∀ total, s.fw.staging = some total →
       ends 1 (s, 0x0E01) ∧
       (1 ≤ len → len ≤ 65536 → s.fw.got + len ≤ total →
         let u := s.flWrite (bankBase s.stagedBank + s.fw.got) (s.fwWin len)
         ends 2 ({ u with fw := { u.fw with got := u.fw.got + len } }, 0)) ∧
       (s.fw.got ≠ total → ends 3 (closed, 0x0E05)) ∧
       (s.fw.got = total → s.bankFault s.stagedBank = none →
         let u := s.putHdr active s.stagedBank bootno
         ends 3 ({ u with fw := { u.fw with staging := none, pend := true } }, 0)) ∧
       ends 4 (closed, 0x0E06)) ∧
     ends 7 (s.putWin (s.flashRead len 65536), 0) ∧ (s.fw.busy = none → ∀ ok, exec (.fwOpComplete ok) s = .next s))

/-- The partition registers take the writes of partition management (R665 to R669, R674): an enabled partition's limits, tiles that
no other partition holds, granules with nothing under way, which take effect when the change is done, and releases of frozen
masters and partitions. SHARE of mirrored frames of their owner to enabled partitions marks the frames and opens their granules
to the readers; a SHARE that R677 denies says so and changes no frame; UNSHARE takes the owner's frames back (R677 to R679). -/
def Obligations.PartitionsAndSharing : Prop :=
  (∀ (s : State) (n v : Nat) (o : Origin), o.manages = true →
     (n < 8 → s.heard o (partCfg n) = true → s.enOk n (bit v 63) = true →
       let s1 := s.noted o (partCfg n) v
       exec (.hgtPartCfgWrite n v o) s =
         .next ((if n = 0 then s1 else s1.setF (partCfg n) 63 63 (b2n (bit v 63))).setF (partCfg n) 47 0 (fld v 47 0))) ∧
     (n < 8 → s.heard o (partTiles n) = true → v < 2 ^ s.nTiles →
       (∀ t m, t < 64 → m < 8 → bit v t = true → m ≠ n → s.rb (partTiles m) t = false) →
       (∀ t, t < 64 → bit v t = false → s.rb (partTiles n) t = false) →
       exec (.hgtPartTilesWrite n v o) s = .next ((s.noted o (partTiles n) v).putAt (partTiles n) v)) ∧
     (∀ board g, g < s.granules board → let off := granReg (granBase board g)
       s.heard o off = true → (∀ e ∈ s.granFrames board g, e.2.shared = false ∧ e.2.state ≠ 1) → s.rb (partCfg (fld v 30 28)) 63 = true →
       s.meetsOverflow board g = false →
       let s1 := s.noted o off v
       exec (.hgtGranuleWrite board g v o) s = .next { s1 with grants := s1.grants ++ [(off, fld v 31 28)] }) ∧
     exec .granuleChangeDone s = .next { s.grants.foldl (fun s e => s.setF e.1 31 28 e.2) s with grants := [] } ∧
     (s.heard o 0x100008 = true → v < 2 ^ 32 →
       let i := fld v 7 0; let e := 0x101000 + 8 * i; let s1 := (s.noted o 0x100008 v).shadowing 0x100008 v
       (bit v 8 = true → s.partFrozen (i % 8) = true → exec (.hgtFrzRel v o) s =
         .next ((s1.setF (partCfg (i % 8)) 62 62 0).logRec 5 { o with part := i % 8 } 0 (256 + i % 8) 0)) ∧
       (bit v 8 = false → s.rb e 63 = true → s.rf e 59 56 ≠ 1 → exec (.hgtFrzRel v o) s =
         .next ((s1.setReg e 0).logRec 5 { o with part := s.rf e 62 60 } 0 i 0)))) ∧
  (∀ (s : State) (v : Nat) (o : Origin), s.heard o 0x100018 = true → o.manages = true →
     let s1 := (s.noted o 0x100018 v).shadowing 0x100018 v; let fs := s1.shareRange
     ((∀ f ∈ fs, s1.granted (fld v 18 16) (f * 65536) = true) → (∀ p, p < 8 → bit (fld v 15 8) p = true → s1.rb (partCfg p) 63 = true) →
       (∀ f ∈ fs, (s1.frame f).mirror = true ∧ (s1.frame f).mstale = 0 ∧ (s1.frame f).state = 0) →
       exec (.share v o) s = .next ((fs.foldl (fun s f => (s.setFrame f { s.frame f with shared := true }).setF (granReg (f * 65536)) 15 8
         (Nat.lor (s.rf (granReg (f * 65536)) 15 8) (fld v 15 8))) s1).shareEnd 0 (fs.filter fun f => !(s1.frame f).shared).length)) ∧
     (∀ f ∈ fs, s1.granted (fld v 18 16) (f * 65536) = false → exec (.share v o) s = .next (s1.shareEnd 0xF03 0)) ∧
     (let mine := fs.filter fun f => s1.rb (granReg (f * 65536)) 31 && s1.rf (granReg (f * 65536)) 30 28 == fld v 18 16
      let s2 := mine.foldl (fun s f => s.setFrame f { s.frame f with shared := false }) s1
      exec (.unshare v o) s = .next ((((mine.map fun f => granuleOf (f * 65536)).eraseDups).foldl (fun s g =>
       if (s.granFrames g.1 g.2).any fun e => e.2.shared then s else s.setF (granReg (granBase g.1 g.2)) 15 8 0) s2).shareEnd 0
         (mine.filter fun f => (s1.frame f).shared).length)))

/-- A lost board channel or stack re-homes its hub's frames and is recorded as a defect (R683, R696); a tile that faults is replaced
by its die's spare, or goes OFFLINE with the launch that runs on it ended (R686 to R692); a ditchrider that fails leaves the
other alone (R693). The log's registers take the writes of partition management within their rules (R700), and a wrap of a
performance counter goes into the ditchrider's extension (R166, R703). -/
def Obligations.LossesAndLog : Prop :=
  (∀ (s s1 : State),
     (∀ board k, (if board then k < 16 ∧ bit s.boards k = true else s.sites.contains k = true) →
       let u := ((s.tierFrames (if board then k / 4 else k / 3) board).foldl State.rehome s).defect (if board then 5 else 4) k 0 2
       let u := if board then { u with boot := { u.boot with lostCh := Nat.lor u.boot.lostCh (2 ^ k) } }
         else { u with boot := { u.boot with deadDies := Nat.lor u.boot.deadDies (2 ^ (20 + k)) } }
       releaseWaits.gives u.capChange.reservice () s1 → exec (.memoryChannelLoss board k) s = .next s1) ∧
     (∀ t lost, s.tileUp t = true → s.launches = [] →
       let old := s.siteOf t; let d := (s.dieOf t).1
       let retire := fun k (s : State) => { s.defect 1 k 0 1 with boot := { s.boot with badSites := Nat.lor s.boot.badSites (2 ^ k) } }
       let u := retire old (s.logRec 6 Origin.drd 6 0 t)
       (s.spareOf d = none → ∀ ok,
         let u := (u.faultTile t).rasBit (u.tilePart t) 3
         exec (.tileFault t ok lost) s =
           .next (({ u with offline := Nat.lor u.offline (2 ^ t) }).logRec 9 Origin.drd 0 t old).capChange.reservice) ∧
       (∀ k, s.spareOf d = some k → k ≠ s.fusedSite t →
         let u := u.setTile t ((u.tile t).moveSite t lost)
         exec (.tileFault t true lost) s = .next
           ((({ u with holders := spSet dNat u.holders t k }).logRec 9 Origin.drd 0 t k).logRec 9 Origin.drd 0 t old).capChange)) ∧
     (∀ f, f < 2 → s.rb 0x10000 2 = true →
       let u := ((s.setF 0x10000 2 2 0).setF 0x10000 1 1 (if f = 0 then 1 else 0)).setF 0x10000 31 16 (min (s.rf 0x10000 31 16 + 1) 65535)
       exec (.ditchriderTakeover (some f)) s =
         .next ((u.noteEvent 8 0 0x10000 (u.rn 0x10000)).logRec 6 Origin.drd 0 0x10000 (u.rn 0x10000)).reservice)) ∧
  (∀ (s : State) (v : Nat) (o : Origin), o.manages = true →
     (s.heard o 0x40018 = true →
       (v ≤ s.rn 0x40008 → exec (.logAckWrite v o) s = .next ((s.noted o 0x40018 v).putAt 0x40018 v)) ∧
       (s.rn 0x40008 < v → exec (.logAckWrite v o) s = .next (s.logRec 2 o 0 0x40018 v))) ∧
     (s.heard o 0x40000 = true → s.rb 0x40000 63 = false →
       let new := keepBits v (maskBits 63 63 + maskBits 57 32 + maskBits 15 0); let s1 := (s.noted o 0x40000 v).putAt 0x40000 new
       let tail := max (s1.rn 0x40010) (s1.rn 0x40008 - 65536)
       exec (.logCfgWrite v o) s = .next (if bit new 63 then s1
         else { (s1.putAt 0x40010 tail).setF 0x40020 0 0 0 with log := s1.log.filter fun e => decide (tail ≤ e.1) })) ∧
     (∀ off, off < 0x1000000 → exec (.perfWrapService off) s = .next { s with
       telem := spMod dNat s.telem off (· + spGet dNat s.wraps off), wraps := spSet dNat s.wraps off 0 }) ∧
     (∀ t k, t < 64 → k < 0x40000 → exec (.perfWrapService (0x1000000 + 0x40000 * t + k)) s =
       .next { s.setTile t { s.tile t with wraps := spSet dNat (s.tile t).wraps k 0 } with
         telem := spMod dNat s.telem (0x1000000 + 0x40000 * t + k) (· + spGet dNat (s.tile t).wraps k) }))

/-- A record of the change log goes to the head of the ring with its sequence number, and the head moves on (R698 to R700). -/
def Obligations.LogRecords : Prop :=
  ∀ (s : State) (r : LogRec), spWf regInit s.regs = true → spWf dLog s.log = true →
    let head := s.rn 0x40008; let tail := s.rn 0x40010
    head < 2 ^ 63 → tail ≤ head → head - tail < 65536 →
    let s' := s.logPut r
    s'.rn 0x40008 = head + 1 ∧ s'.rn 0x40010 = tail ∧ spGet dLog s'.log head = { r with seq := head % 2 ^ 32 } ∧
    (∀ n, n ≠ head → spGet dLog s'.log n = spGet dLog s.log n) ∧ { s' with regs := s.regs, log := s.log } = s

/-- The end of a period moves F_pwr by the rules of R722 and reports NOW, AVG and PEAK; the clamp falls on four samples above
CLAMP_W and lifts after ten calm periods (R721 to R724). The power brake and its release set their ceilings (R725), and the
monitors' calibration changes no state but its own. A die's temperature is kept with its maximum, starts protection at its
threshold and trips the part at 125 °C; a stack's temperature moves its step and starts protection at step 5 (R341, R343, R729
to R731). THM_PWR_CFG keeps its fields within their limits until it is locked (R726); an alert is answered with the part's
address (R716, R733); and PPS_OUT pulses once a second of reference time (R714). The steps of a stack (R341): step k is entered
at its threshold, and left 3 °C below it. Every tile runs at the lowest of its ceilings (R723): THM_ECLKt of each holds it after
a change of the ceilings, and no ceiling is below it. -/
def Obligations.PowerAndTemperature : Prop :=
  (∀ (s : State) (now us : Nat) (samples : List Nat),
     (let nows := (now :: s.power.nows).take 10; let (sum, n) := nowSum nows
      let s1 := (s.setF 0x30008 15 0 (min now 65535)).setF 0x30008 47 32 (min (sum / n) 65535)
      let s2 := s1.setF 0x30008 31 16 (max (s1.rf 0x30008 31 16) (min now 65535))
      let calm := if sum ≤ s.limitW * n then s.power.calm + 1 else 0
      let held := s.power.clamp != 0; let f := nextFpwr s.power.fpwr s.limitW nows held
      exec (.powerPeriodUpdate now) s = .next (s2.setPower fun p =>
       if held = true ∧ 10 ≤ calm then { p with nows := nows, calm := calm, fpwr := min f p.clamp, clamp := 0 }
       else { p with nows := nows, calm := calm, fpwr := f })) ∧
     (4 ≤ samples.length → (∀ x ∈ samples, s.rf 0x30000 31 16 < x) → exec (.clampTrigger samples) s =
       .next ((s.setF 0x30008 62 62 1).setPower fun p => { p with clamp := s.rf 0x30000 47 32, calm := 0 })) ∧
     ((∃ x ∈ samples, x ≤ s.rf 0x30000 31 16) → exec (.clampTrigger samples) s = .next s) ∧
     (1 ≤ us → exec (.powerBrakeAssert us) s = .next (s.setPower fun p => { p with brake := true })) ∧
     (1000 ≤ us → s.power.brake = true →
       exec (.powerBrakeRelease us) s = .next (s.setPower fun p => { p with brake := false, fpwr := 400 })) ∧
     exec .monitorCalibration s = .next { s with power := { s.power with cals := s.power.cals + 1 } }) ∧
  (∀ (s : State) (i tj : Nat), s.pins.trip = false → tj < 256 →
     (s.logicDie i = true →
       let off := 0x30400 + 8 * i
       let s1 := ((s.setF off 23 16 tj).setF off 15 8 (max (s.rf off 15 8) tj)).setF off 1 1 (b2n (decide (100 ≤ tj)))
       (tj < alarmTemp i → exec (.dieTempRead i tj) s = .next s1.watchCool) ∧
       (alarmTemp i ≤ tj → tj < 125 → s.rb off 0 = false →
         exec (.dieTempRead i tj) s = .next ((s1.setF off 0 0 1).pfIrq 2).protect.watchCool) ∧
       (125 ≤ tj → s.rb off 0 = true → exec (.dieTempRead i tj) s = .next ((s1.setF off 0 0 1).protect.watchCool.thermTrip off))) ∧
     (s.fittedSites.contains i = true →
       let off := hubReg (i / 3) (0x200 + 8 * (i % 3)); let old := s.rf off 10 8; let new := nextStep old tj
       let s1 := ((s.setF off 23 16 tj).setF off 10 8 new).setF off 3 1 (max (s.rf off 3 1) new)
       (new ≤ old ∨ new < 4 → tj < 115 → exec (.stackTempRead i tj) s = .next s1.watchCool) ∧
       (old < new → new = 5 → tj < 115 → s.rb off 0 = true →
         exec (.stackTempRead i tj) s = .next (s1.setF off 0 0 1).protect.watchCool)) ∧
     (i < 16 →
       let c := spGet dCeil s.power.ftemp i; let now := s.rf (0x30400 + 8 * i) 23 16
       let f := if 100 ≤ now then max 400 (c - 25) else if now ≤ 97 then min 1500 (c + 25) else c
       exec (.dieTempCeilingUpdate i) s = .next (s.setPower fun p => { p with ftemp := spSet dCeil p.ftemp i f })) ∧
     (∀ since, s.power.cool = some since → s.power.prot = true →
       (since + 100000000 ≤ s.time → exec .protectionEnd s = .next (s.setPower fun p => { p with prot := false, fpwr := 400 })) ∧
       (s.time < since + 100000000 → exec .protectionEnd s = .next s))) ∧
  (∀ (s : State) (v : Nat) (o : Origin),
     (s.heard o 0x30000 = true → o.manages = true →
       let limit := max 600 (min 2200 (fld v 15 0)); let clampW := min 2420 (fld v 31 16); let mhz := fld v 47 32
       limit ≤ clampW → 400 ≤ mhz → mhz ≤ 1500 → mhz % 25 = 0 →
       (s.rb 0x30000 63 = false → exec (.thmPwrCfgWrite v o) s =
         .next ((s.noted o 0x30000 v).putAt 0x30000 (b2n (bit v 63) <<< 63 + mhz <<< 32 + clampW <<< 16 + limit))) ∧
       (s.rb 0x30000 63 = true → exec (.thmPwrCfgWrite v o) s = .next ((s.logRec 3 o 0 0x30000 v).count 0x30FF8 1))) ∧
     (s.pins.standby = true → s.alert = true → exec .smbusAlertResponse s = .next (s.emit (.alertAddr (0x38 + s.pins.smb)))) ∧
     (s.alert = false → exec .smbusAlertResponse s = .next s) ∧
     (let sec := wrap 64 ((s.time : Int) + sgn 64 (s.rn 0x38)) / 1000000000
      (sec ≠ s.pins.pps → exec .ppsPulse s = .next ({ s with pins := { s.pins with pps := sec } }.emit (.pin 0 1))) ∧
      (sec = s.pins.pps → exec .ppsPulse s = .next s))) ∧
  (∀ step temp : Nat, step ≤ 5 →
     let entry := fun k => [0, 85, 95, 100, 105, 110].getD k 0
     nextStep step temp ≤ 5 ∧ (step < 5 → entry (step + 1) ≤ temp → step < nextStep step temp) ∧
     (nextStep step temp < step ↔ temp + 3 ≤ entry step ∧ step ≠ 0) ∧
     (∀ k, 1 ≤ k → k ≤ 5 → step < k → (k ≤ nextStep step temp ↔ entry k ≤ temp))) ∧
  (∀ (s : State) (f : Power → Power), spWf regInit s.regs = true →
     let s' := s.setPower f
     (∀ t, t < s.nTiles → s'.rf (0x30100 + 8 * t) 10 0 = s'.eclk t) ∧
     (∀ t, s'.eclk t ≤ 1500 ∧ ∀ c ∈ s'.ceilings t, s'.eclk t ≤ c) ∧ s'.power = f s.power ∧ s'.tiles = s.tiles ∧ s'.mem = s.mem)

/-- A write at an offset of the register view reaches the register there: outside the view, at an offset of a debug view, of a size
or alignment that R737 does not allow, it changes no register; a register with a row of its own takes the row's meaning; another
keeps the fields that its layout makes writable (R7, R8, R736, R737). The sideband interface (R716, R746): with standby power
and a good PEC a read answers the register view's eight bytes, a write acts as the partition-management function's, an offset
outside the view is refused, and the result is read out; without them nothing happens. -/
def Obligations.RegisterView : Prop :=
  (∀ (s : State) (off size v : Nat) (o : Origin),
     (0x20000000 ≤ off → exec (.registerWrite off size v o) s = .next s) ∧
     (s.reaches o off = true → off < 0x20000000 →
       (0x10000000 ≤ off ∨ (size ≠ 4 ∧ size ≠ 8) ∨ off % size ≠ 0 → exec (.registerWrite off size v o) s = .next (s.logRec 2 o 0 off v)) ∧
       (off < 0x10000000 → off % 8 = 0 → size = 8 →
         ∀ h, findReg off = some h → s.regThere h = true → s.vfSees h o = true → h.reg.wide = true →
         (∀ g s', rowWrite h (v % 2 ^ 64) o = some g → g s = .next s' → exec (.registerWrite off size v o) s = .next s') ∧
         (rowWrite h (v % 2 ^ 64) o = none → h.lock = none → s.heard o h.off = true →
           (s.mayWrite h o && s.writeOk h (v % 2 ^ 64)) = true → (∀ f ∈ h.reg.flds, f.2.2 ≠ .wo) →
           let s1 := if h.logged then s.noted o h.off (v % 2 ^ 64) else s
           exec (.registerWrite off size v o) s = .next (s1.store h (h.reg.write false (s1.stored h) (v % 2 ^ 64)))))) ∧
     (s.reaches o off = false → exec (.registerWrite off size v o) s = .next s)) ∧
  (∀ (s : State) (off v : Nat) (pec : Bool),
     ((pec && s.pins.standby) = true →
       (off < 0x20000000 → off % 8 = 0 →
         exec (.sbReadRequest off pec) s = .next { s with sb := (0, s.readView off) } ∧
         exec (.sbWriteRequest off v pec) s =
           .next { (viewWrite off 8 v sbOrigin).next s with sb := (if s.sbDenied off v then 0x1002 else 0, 0) }) ∧
       (0x20000000 ≤ off ∨ off % 8 ≠ 0 → exec (.sbReadRequest off pec) s = .next { s with sb := (0x1001, 0) } ∧
         exec (.sbWriteRequest off v pec) s = .next { s with sb := (0x1001, 0) }) ∧
       exec (.sbResultRead pec) s = .next (s.emit (.sideband s.sb.1 s.sb.2))) ∧
     ((pec && s.pins.standby) = false → exec (.sbReadRequest off pec) s = .next s ∧ exec (.sbWriteRequest off v pec) s = .next s ∧
       exec (.sbResultRead pec) s = .next s))

/-- A register's bits after a write (R7, R8): RW and RWS fields take the value's, RWL fields too unless their lock is set, W1C bits
clear where it has ones, and RO, WO and reserved bits stay. -/
def Obligations.FieldAccess : Prop :=
  ∀ (d : RegD) (locked : Bool) (old v : Nat), (∀ f ∈ d.flds, f.2.1 ≤ f.1 ∧ f.1 < 64) → old < 2 ^ 64 →
    d.flds.Pairwise (fun f g => f.1 < g.2.1 ∨ g.1 < f.2.1) →
    ∀ i, i < 64 → bit (d.write locked old v) i =
      (match d.flds.find? (fun f => decide (f.2.1 ≤ i) && decide (i ≤ f.1)) with
       | none => bit old i
       | some f => match f.2.2 with
         | .rw => bit v i
         | .rws => bit v i
         | .rwl => if locked then bit old i else bit v i
         | .w1c => bit old i && !bit v i
         | .ro => bit old i
         | .wo => bit old i)
end

