-- ==== Sys2Proof/Laws/State.lean ====
section
/-! SUPPORT. One lemma per field per update of the state, of a tile and of a context: what an update leaves alone, and what it
sets. -/

namespace Sys2Proof.Machine

/-! ### The state -/

@[simp] theorem State.setReg_pending (s : State) (off : Nat) (v : W64) : (s.setReg off v).pending = s.pending := rfl
@[simp] theorem State.setReg_regs (s : State) (off : Nat) (v : W64) : (s.setReg off v).regs = spSet regInit s.regs off v := rfl
@[simp] theorem State.setReg_shadow (s : State) (off : Nat) (v : W64) : (s.setReg off v).shadow = s.shadow := rfl
@[simp] theorem State.setReg_tiles (s : State) (off : Nat) (v : W64) : (s.setReg off v).tiles = s.tiles := rfl
@[simp] theorem State.setReg_time (s : State) (off : Nat) (v : W64) : (s.setReg off v).time = s.time := rfl
@[simp] theorem State.setReg_launches (s : State) (off : Nat) (v : W64) : (s.setReg off v).launches = s.launches := rfl
@[simp] theorem State.setReg_switches (s : State) (off : Nat) (v : W64) : (s.setReg off v).switches = s.switches := rfl
@[simp] theorem State.setReg_nextId (s : State) (off : Nat) (v : W64) : (s.setReg off v).nextId = s.nextId := rfl
@[simp] theorem State.setReg_mem (s : State) (off : Nat) (v : W64) : (s.setReg off v).mem = s.mem := rfl
@[simp] theorem State.setReg_units (s : State) (off : Nat) (v : W64) : (s.setReg off v).units = s.units := rfl
@[simp] theorem State.setReg_msc (s : State) (off : Nat) (v : W64) : (s.setReg off v).msc = s.msc := rfl
@[simp] theorem State.setReg_mclk (s : State) (off : Nat) (v : W64) : (s.setReg off v).mclk = s.mclk := rfl
@[simp] theorem State.setReg_busDir (s : State) (off : Nat) (v : W64) : (s.setReg off v).busDir = s.busDir := rfl
@[simp] theorem State.setReg_frames (s : State) (off : Nat) (v : W64) : (s.setReg off v).frames = s.frames := rfl
@[simp] theorem State.setReg_waits (s : State) (off : Nat) (v : W64) : (s.setReg off v).waits = s.waits := rfl
@[simp] theorem State.setReg_moves (s : State) (off : Nat) (v : W64) : (s.setReg off v).moves = s.moves := rfl
@[simp] theorem State.setReg_remaps (s : State) (off : Nat) (v : W64) : (s.setReg off v).remaps = s.remaps := rfl
@[simp] theorem State.setReg_defects (s : State) (off : Nat) (v : W64) : (s.setReg off v).defects = s.defects := rfl
@[simp] theorem State.setReg_pools (s : State) (off : Nat) (v : W64) : (s.setReg off v).pools = s.pools := rfl
@[simp] theorem State.setReg_queues (s : State) (off : Nat) (v : W64) : (s.setReg off v).queues = s.queues := rfl
@[simp] theorem State.setReg_log (s : State) (off : Nat) (v : W64) : (s.setReg off v).log = s.log := rfl
@[simp] theorem State.setReg_wraps (s : State) (off : Nat) (v : W64) : (s.setReg off v).wraps = s.wraps := rfl
@[simp] theorem State.setReg_telem (s : State) (off : Nat) (v : W64) : (s.setReg off v).telem = s.telem := rfl
@[simp] theorem State.setReg_outs (s : State) (off : Nat) (v : W64) : (s.setReg off v).outs = s.outs := rfl
@[simp] theorem State.setReg_free (s : State) (off : Nat) (v : W64) : (s.setReg off v).free = s.free := rfl
@[simp] theorem State.setReg_variant (s : State) (off : Nat) (v : W64) : (s.setReg off v).variant = s.variant := rfl
@[simp] theorem State.setReg_uid (s : State) (off : Nat) (v : W64) : (s.setReg off v).uid = s.uid := rfl
@[simp] theorem State.setReg_fuses (s : State) (off : Nat) (v : W64) : (s.setReg off v).fuses = s.fuses := rfl
@[simp] theorem State.setReg_licences (s : State) (off : Nat) (v : W64) : (s.setReg off v).licences = s.licences := rfl
@[simp] theorem State.setReg_excluded (s : State) (off : Nat) (v : W64) : (s.setReg off v).excluded = s.excluded := rfl
@[simp] theorem State.setReg_boards (s : State) (off : Nat) (v : W64) : (s.setReg off v).boards = s.boards := rfl
@[simp] theorem State.setReg_boardGib (s : State) (off : Nat) (v : W64) : (s.setReg off v).boardGib = s.boardGib := rfl
@[simp] theorem State.setReg_defDropped (s : State) (off : Nat) (v : W64) : (s.setReg off v).defDropped = s.defDropped := rfl
@[simp] theorem State.setReg_active (s : State) (off : Nat) (v : W64) : (s.setReg off v).active = s.active := rfl
@[simp] theorem State.setReg_snaps (s : State) (off : Nat) (v : W64) : (s.setReg off v).snaps = s.snaps := rfl
@[simp] theorem State.setReg_jseq (s : State) (off : Nat) (v : W64) : (s.setReg off v).jseq = s.jseq := rfl
@[simp] theorem State.setReg_hostReqs (s : State) (off : Nat) (v : W64) : (s.setReg off v).hostReqs = s.hostReqs := rfl
@[simp] theorem State.setReg_peerReqs (s : State) (off : Nat) (v : W64) : (s.setReg off v).peerReqs = s.peerReqs := rfl
@[simp] theorem State.setReg_leaQ (s : State) (off : Nat) (v : W64) : (s.setReg off v).leaQ = s.leaQ := rfl
@[simp] theorem State.setReg_holders (s : State) (off : Nat) (v : W64) : (s.setReg off v).holders = s.holders := rfl
@[simp] theorem State.setReg_offline (s : State) (off : Nat) (v : W64) : (s.setReg off v).offline = s.offline := rfl
@[simp] theorem State.setReg_boardMts (s : State) (off : Nat) (v : W64) : (s.setReg off v).boardMts = s.boardMts := rfl
@[simp] theorem State.setReg_comms (s : State) (off : Nat) (v : W64) : (s.setReg off v).comms = s.comms := rfl
@[simp] theorem State.setReg_lateTab (s : State) (off : Nat) (v : W64) : (s.setReg off v).lateTab = s.lateTab := rfl
@[simp] theorem State.setReg_ops (s : State) (off : Nat) (v : W64) : (s.setReg off v).ops = s.ops := rfl
@[simp] theorem State.setReg_lates (s : State) (off : Nat) (v : W64) : (s.setReg off v).lates = s.lates := rfl
@[simp] theorem State.setReg_spkOps (s : State) (off : Nat) (v : W64) : (s.setReg off v).spkOps = s.spkOps := rfl
@[simp] theorem State.setReg_spkEpoch (s : State) (off : Nat) (v : W64) : (s.setReg off v).spkEpoch = s.spkEpoch := rfl
@[simp] theorem State.setReg_qps (s : State) (off : Nat) (v : W64) : (s.setReg off v).qps = s.qps := rfl
@[simp] theorem State.setReg_udAgain (s : State) (off : Nat) (v : W64) : (s.setReg off v).udAgain = s.udAgain := rfl
@[simp] theorem State.setReg_lateFmt (s : State) (off : Nat) (v : W64) : (s.setReg off v).lateFmt = s.lateFmt := rfl
@[simp] theorem State.setReg_pubs (s : State) (off : Nat) (v : W64) : (s.setReg off v).pubs = s.pubs := rfl
@[simp] theorem State.setReg_snapEnd (s : State) (off : Nat) (v : W64) : (s.setReg off v).snapEnd = s.snapEnd := rfl
@[simp] theorem State.setReg_snapWaits (s : State) (off : Nat) (v : W64) : (s.setReg off v).snapWaits = s.snapWaits := rfl
@[simp] theorem State.setReg_mrs (s : State) (off : Nat) (v : W64) : (s.setReg off v).mrs = s.mrs := rfl
@[simp] theorem State.setReg_pcieDown (s : State) (off : Nat) (v : W64) : (s.setReg off v).pcieDown = s.pcieDown := rfl
@[simp] theorem State.setReg_ptpGood (s : State) (off : Nat) (v : W64) : (s.setReg off v).ptpGood = s.ptpGood := rfl
@[simp] theorem State.setReg_lports (s : State) (off : Nat) (v : W64) : (s.setReg off v).lports = s.lports := rfl
@[simp] theorem State.setReg_flash (s : State) (off : Nat) (v : W64) : (s.setReg off v).flash = s.flash := rfl
@[simp] theorem State.setReg_defPrev (s : State) (off : Nat) (v : W64) : (s.setReg off v).defPrev = s.defPrev := rfl
@[simp] theorem State.setReg_defSeq (s : State) (off : Nat) (v : W64) : (s.setReg off v).defSeq = s.defSeq := rfl
@[simp] theorem State.setReg_events (s : State) (off : Nat) (v : W64) : (s.setReg off v).events = s.events := rfl
@[simp] theorem State.setReg_boot (s : State) (off : Nat) (v : W64) : (s.setReg off v).boot = s.boot := rfl
@[simp] theorem State.setReg_revoked (s : State) (off : Nat) (v : W64) : (s.setReg off v).revoked = s.revoked := rfl
@[simp] theorem State.setReg_fw (s : State) (off : Nat) (v : W64) : (s.setReg off v).fw = s.fw := rfl
@[simp] theorem State.setReg_power (s : State) (off : Nat) (v : W64) : (s.setReg off v).power = s.power := rfl
@[simp] theorem State.setReg_pins (s : State) (off : Nat) (v : W64) : (s.setReg off v).pins = s.pins := rfl
@[simp] theorem State.setReg_sb (s : State) (off : Nat) (v : W64) : (s.setReg off v).sb = s.sb := rfl
@[simp] theorem State.setReg_grants (s : State) (off : Nat) (v : W64) : (s.setReg off v).grants = s.grants := rfl
@[simp] theorem State.setReg_sessions (s : State) (off : Nat) (v : W64) : (s.setReg off v).sessions = s.sessions := rfl
@[simp] theorem State.setReg_jobs (s : State) (off : Nat) (v : W64) : (s.setReg off v).jobs = s.jobs := rfl
@[simp] theorem State.setReg_medDead (s : State) (off : Nat) (v : W64) : (s.setReg off v).medDead = s.medDead := rfl

@[simp] theorem State.setTile_pending (s : State) (t : Nat) (tl : Tile) : (s.setTile t tl).pending = s.pending := rfl
@[simp] theorem State.setTile_regs (s : State) (t : Nat) (tl : Tile) : (s.setTile t tl).regs = s.regs := rfl
@[simp] theorem State.setTile_shadow (s : State) (t : Nat) (tl : Tile) : (s.setTile t tl).shadow = s.shadow := rfl
@[simp] theorem State.setTile_tiles (s : State) (t : Nat) (tl : Tile) : (s.setTile t tl).tiles = spSet dTile s.tiles t tl := rfl
@[simp] theorem State.setTile_time (s : State) (t : Nat) (tl : Tile) : (s.setTile t tl).time = s.time := rfl
@[simp] theorem State.setTile_launches (s : State) (t : Nat) (tl : Tile) : (s.setTile t tl).launches = s.launches := rfl
@[simp] theorem State.setTile_switches (s : State) (t : Nat) (tl : Tile) : (s.setTile t tl).switches = s.switches := rfl
@[simp] theorem State.setTile_nextId (s : State) (t : Nat) (tl : Tile) : (s.setTile t tl).nextId = s.nextId := rfl
@[simp] theorem State.setTile_mem (s : State) (t : Nat) (tl : Tile) : (s.setTile t tl).mem = s.mem := rfl
@[simp] theorem State.setTile_units (s : State) (t : Nat) (tl : Tile) : (s.setTile t tl).units = s.units := rfl
@[simp] theorem State.setTile_msc (s : State) (t : Nat) (tl : Tile) : (s.setTile t tl).msc = s.msc := rfl
@[simp] theorem State.setTile_mclk (s : State) (t : Nat) (tl : Tile) : (s.setTile t tl).mclk = s.mclk := rfl
@[simp] theorem State.setTile_busDir (s : State) (t : Nat) (tl : Tile) : (s.setTile t tl).busDir = s.busDir := rfl
@[simp] theorem State.setTile_frames (s : State) (t : Nat) (tl : Tile) : (s.setTile t tl).frames = s.frames := rfl
@[simp] theorem State.setTile_waits (s : State) (t : Nat) (tl : Tile) : (s.setTile t tl).waits = s.waits := rfl
@[simp] theorem State.setTile_moves (s : State) (t : Nat) (tl : Tile) : (s.setTile t tl).moves = s.moves := rfl
@[simp] theorem State.setTile_remaps (s : State) (t : Nat) (tl : Tile) : (s.setTile t tl).remaps = s.remaps := rfl
@[simp] theorem State.setTile_defects (s : State) (t : Nat) (tl : Tile) : (s.setTile t tl).defects = s.defects := rfl
@[simp] theorem State.setTile_pools (s : State) (t : Nat) (tl : Tile) : (s.setTile t tl).pools = s.pools := rfl
@[simp] theorem State.setTile_queues (s : State) (t : Nat) (tl : Tile) : (s.setTile t tl).queues = s.queues := rfl
@[simp] theorem State.setTile_log (s : State) (t : Nat) (tl : Tile) : (s.setTile t tl).log = s.log := rfl
@[simp] theorem State.setTile_wraps (s : State) (t : Nat) (tl : Tile) : (s.setTile t tl).wraps = s.wraps := rfl
@[simp] theorem State.setTile_telem (s : State) (t : Nat) (tl : Tile) : (s.setTile t tl).telem = s.telem := rfl
@[simp] theorem State.setTile_outs (s : State) (t : Nat) (tl : Tile) : (s.setTile t tl).outs = s.outs := rfl
@[simp] theorem State.setTile_free (s : State) (t : Nat) (tl : Tile) : (s.setTile t tl).free = s.free := rfl
@[simp] theorem State.setTile_variant (s : State) (t : Nat) (tl : Tile) : (s.setTile t tl).variant = s.variant := rfl
@[simp] theorem State.setTile_uid (s : State) (t : Nat) (tl : Tile) : (s.setTile t tl).uid = s.uid := rfl
@[simp] theorem State.setTile_fuses (s : State) (t : Nat) (tl : Tile) : (s.setTile t tl).fuses = s.fuses := rfl
@[simp] theorem State.setTile_licences (s : State) (t : Nat) (tl : Tile) : (s.setTile t tl).licences = s.licences := rfl
@[simp] theorem State.setTile_excluded (s : State) (t : Nat) (tl : Tile) : (s.setTile t tl).excluded = s.excluded := rfl
@[simp] theorem State.setTile_boards (s : State) (t : Nat) (tl : Tile) : (s.setTile t tl).boards = s.boards := rfl
@[simp] theorem State.setTile_boardGib (s : State) (t : Nat) (tl : Tile) : (s.setTile t tl).boardGib = s.boardGib := rfl
@[simp] theorem State.setTile_defDropped (s : State) (t : Nat) (tl : Tile) : (s.setTile t tl).defDropped = s.defDropped := rfl
@[simp] theorem State.setTile_active (s : State) (t : Nat) (tl : Tile) : (s.setTile t tl).active = s.active := rfl
@[simp] theorem State.setTile_snaps (s : State) (t : Nat) (tl : Tile) : (s.setTile t tl).snaps = s.snaps := rfl
@[simp] theorem State.setTile_jseq (s : State) (t : Nat) (tl : Tile) : (s.setTile t tl).jseq = s.jseq := rfl
@[simp] theorem State.setTile_hostReqs (s : State) (t : Nat) (tl : Tile) : (s.setTile t tl).hostReqs = s.hostReqs := rfl
@[simp] theorem State.setTile_peerReqs (s : State) (t : Nat) (tl : Tile) : (s.setTile t tl).peerReqs = s.peerReqs := rfl
@[simp] theorem State.setTile_leaQ (s : State) (t : Nat) (tl : Tile) : (s.setTile t tl).leaQ = s.leaQ := rfl
@[simp] theorem State.setTile_holders (s : State) (t : Nat) (tl : Tile) : (s.setTile t tl).holders = s.holders := rfl
@[simp] theorem State.setTile_offline (s : State) (t : Nat) (tl : Tile) : (s.setTile t tl).offline = s.offline := rfl
@[simp] theorem State.setTile_boardMts (s : State) (t : Nat) (tl : Tile) : (s.setTile t tl).boardMts = s.boardMts := rfl
@[simp] theorem State.setTile_comms (s : State) (t : Nat) (tl : Tile) : (s.setTile t tl).comms = s.comms := rfl
@[simp] theorem State.setTile_lateTab (s : State) (t : Nat) (tl : Tile) : (s.setTile t tl).lateTab = s.lateTab := rfl
@[simp] theorem State.setTile_ops (s : State) (t : Nat) (tl : Tile) : (s.setTile t tl).ops = s.ops := rfl
@[simp] theorem State.setTile_lates (s : State) (t : Nat) (tl : Tile) : (s.setTile t tl).lates = s.lates := rfl
@[simp] theorem State.setTile_spkOps (s : State) (t : Nat) (tl : Tile) : (s.setTile t tl).spkOps = s.spkOps := rfl
@[simp] theorem State.setTile_spkEpoch (s : State) (t : Nat) (tl : Tile) : (s.setTile t tl).spkEpoch = s.spkEpoch := rfl
@[simp] theorem State.setTile_qps (s : State) (t : Nat) (tl : Tile) : (s.setTile t tl).qps = s.qps := rfl
@[simp] theorem State.setTile_udAgain (s : State) (t : Nat) (tl : Tile) : (s.setTile t tl).udAgain = s.udAgain := rfl
@[simp] theorem State.setTile_lateFmt (s : State) (t : Nat) (tl : Tile) : (s.setTile t tl).lateFmt = s.lateFmt := rfl
@[simp] theorem State.setTile_pubs (s : State) (t : Nat) (tl : Tile) : (s.setTile t tl).pubs = s.pubs := rfl
@[simp] theorem State.setTile_snapEnd (s : State) (t : Nat) (tl : Tile) : (s.setTile t tl).snapEnd = s.snapEnd := rfl
@[simp] theorem State.setTile_snapWaits (s : State) (t : Nat) (tl : Tile) : (s.setTile t tl).snapWaits = s.snapWaits := rfl
@[simp] theorem State.setTile_mrs (s : State) (t : Nat) (tl : Tile) : (s.setTile t tl).mrs = s.mrs := rfl
@[simp] theorem State.setTile_pcieDown (s : State) (t : Nat) (tl : Tile) : (s.setTile t tl).pcieDown = s.pcieDown := rfl
@[simp] theorem State.setTile_ptpGood (s : State) (t : Nat) (tl : Tile) : (s.setTile t tl).ptpGood = s.ptpGood := rfl
@[simp] theorem State.setTile_lports (s : State) (t : Nat) (tl : Tile) : (s.setTile t tl).lports = s.lports := rfl
@[simp] theorem State.setTile_flash (s : State) (t : Nat) (tl : Tile) : (s.setTile t tl).flash = s.flash := rfl
@[simp] theorem State.setTile_defPrev (s : State) (t : Nat) (tl : Tile) : (s.setTile t tl).defPrev = s.defPrev := rfl
@[simp] theorem State.setTile_defSeq (s : State) (t : Nat) (tl : Tile) : (s.setTile t tl).defSeq = s.defSeq := rfl
@[simp] theorem State.setTile_events (s : State) (t : Nat) (tl : Tile) : (s.setTile t tl).events = s.events := rfl
@[simp] theorem State.setTile_boot (s : State) (t : Nat) (tl : Tile) : (s.setTile t tl).boot = s.boot := rfl
@[simp] theorem State.setTile_revoked (s : State) (t : Nat) (tl : Tile) : (s.setTile t tl).revoked = s.revoked := rfl
@[simp] theorem State.setTile_fw (s : State) (t : Nat) (tl : Tile) : (s.setTile t tl).fw = s.fw := rfl
@[simp] theorem State.setTile_power (s : State) (t : Nat) (tl : Tile) : (s.setTile t tl).power = s.power := rfl
@[simp] theorem State.setTile_pins (s : State) (t : Nat) (tl : Tile) : (s.setTile t tl).pins = s.pins := rfl
@[simp] theorem State.setTile_sb (s : State) (t : Nat) (tl : Tile) : (s.setTile t tl).sb = s.sb := rfl
@[simp] theorem State.setTile_grants (s : State) (t : Nat) (tl : Tile) : (s.setTile t tl).grants = s.grants := rfl
@[simp] theorem State.setTile_sessions (s : State) (t : Nat) (tl : Tile) : (s.setTile t tl).sessions = s.sessions := rfl
@[simp] theorem State.setTile_jobs (s : State) (t : Nat) (tl : Tile) : (s.setTile t tl).jobs = s.jobs := rfl
@[simp] theorem State.setTile_medDead (s : State) (t : Nat) (tl : Tile) : (s.setTile t tl).medDead = s.medDead := rfl

@[simp] theorem State.setFrame_pending (s : State) (f : Nat) (e : Frame) : (s.setFrame f e).pending = s.pending := rfl
@[simp] theorem State.setFrame_regs (s : State) (f : Nat) (e : Frame) : (s.setFrame f e).regs = s.regs := rfl
@[simp] theorem State.setFrame_shadow (s : State) (f : Nat) (e : Frame) : (s.setFrame f e).shadow = s.shadow := rfl
@[simp] theorem State.setFrame_tiles (s : State) (f : Nat) (e : Frame) : (s.setFrame f e).tiles = s.tiles := rfl
@[simp] theorem State.setFrame_time (s : State) (f : Nat) (e : Frame) : (s.setFrame f e).time = s.time := rfl
@[simp] theorem State.setFrame_launches (s : State) (f : Nat) (e : Frame) : (s.setFrame f e).launches = s.launches := rfl
@[simp] theorem State.setFrame_switches (s : State) (f : Nat) (e : Frame) : (s.setFrame f e).switches = s.switches := rfl
@[simp] theorem State.setFrame_nextId (s : State) (f : Nat) (e : Frame) : (s.setFrame f e).nextId = s.nextId := rfl
@[simp] theorem State.setFrame_mem (s : State) (f : Nat) (e : Frame) : (s.setFrame f e).mem = s.mem := rfl
@[simp] theorem State.setFrame_units (s : State) (f : Nat) (e : Frame) : (s.setFrame f e).units = s.units := rfl
@[simp] theorem State.setFrame_msc (s : State) (f : Nat) (e : Frame) : (s.setFrame f e).msc = s.msc := rfl
@[simp] theorem State.setFrame_mclk (s : State) (f : Nat) (e : Frame) : (s.setFrame f e).mclk = s.mclk := rfl
@[simp] theorem State.setFrame_busDir (s : State) (f : Nat) (e : Frame) : (s.setFrame f e).busDir = s.busDir := rfl
@[simp] theorem State.setFrame_frames (s : State) (f : Nat) (e : Frame) : (s.setFrame f e).frames = spSet dFrame s.frames f e := rfl
@[simp] theorem State.setFrame_waits (s : State) (f : Nat) (e : Frame) : (s.setFrame f e).waits = s.waits := rfl
@[simp] theorem State.setFrame_moves (s : State) (f : Nat) (e : Frame) : (s.setFrame f e).moves = s.moves := rfl
@[simp] theorem State.setFrame_remaps (s : State) (f : Nat) (e : Frame) : (s.setFrame f e).remaps = s.remaps := rfl
@[simp] theorem State.setFrame_defects (s : State) (f : Nat) (e : Frame) : (s.setFrame f e).defects = s.defects := rfl
@[simp] theorem State.setFrame_pools (s : State) (f : Nat) (e : Frame) : (s.setFrame f e).pools = s.pools := rfl
@[simp] theorem State.setFrame_queues (s : State) (f : Nat) (e : Frame) : (s.setFrame f e).queues = s.queues := rfl
@[simp] theorem State.setFrame_log (s : State) (f : Nat) (e : Frame) : (s.setFrame f e).log = s.log := rfl
@[simp] theorem State.setFrame_wraps (s : State) (f : Nat) (e : Frame) : (s.setFrame f e).wraps = s.wraps := rfl
@[simp] theorem State.setFrame_telem (s : State) (f : Nat) (e : Frame) : (s.setFrame f e).telem = s.telem := rfl
@[simp] theorem State.setFrame_outs (s : State) (f : Nat) (e : Frame) : (s.setFrame f e).outs = s.outs := rfl
@[simp] theorem State.setFrame_free (s : State) (f : Nat) (e : Frame) : (s.setFrame f e).free = s.free := rfl
@[simp] theorem State.setFrame_variant (s : State) (f : Nat) (e : Frame) : (s.setFrame f e).variant = s.variant := rfl
@[simp] theorem State.setFrame_uid (s : State) (f : Nat) (e : Frame) : (s.setFrame f e).uid = s.uid := rfl
@[simp] theorem State.setFrame_fuses (s : State) (f : Nat) (e : Frame) : (s.setFrame f e).fuses = s.fuses := rfl
@[simp] theorem State.setFrame_licences (s : State) (f : Nat) (e : Frame) : (s.setFrame f e).licences = s.licences := rfl
@[simp] theorem State.setFrame_excluded (s : State) (f : Nat) (e : Frame) : (s.setFrame f e).excluded = s.excluded := rfl
@[simp] theorem State.setFrame_boards (s : State) (f : Nat) (e : Frame) : (s.setFrame f e).boards = s.boards := rfl
@[simp] theorem State.setFrame_boardGib (s : State) (f : Nat) (e : Frame) : (s.setFrame f e).boardGib = s.boardGib := rfl
@[simp] theorem State.setFrame_defDropped (s : State) (f : Nat) (e : Frame) : (s.setFrame f e).defDropped = s.defDropped := rfl
@[simp] theorem State.setFrame_active (s : State) (f : Nat) (e : Frame) : (s.setFrame f e).active = s.active := rfl
@[simp] theorem State.setFrame_snaps (s : State) (f : Nat) (e : Frame) : (s.setFrame f e).snaps = s.snaps := rfl
@[simp] theorem State.setFrame_jseq (s : State) (f : Nat) (e : Frame) : (s.setFrame f e).jseq = s.jseq := rfl
@[simp] theorem State.setFrame_hostReqs (s : State) (f : Nat) (e : Frame) : (s.setFrame f e).hostReqs = s.hostReqs := rfl
@[simp] theorem State.setFrame_peerReqs (s : State) (f : Nat) (e : Frame) : (s.setFrame f e).peerReqs = s.peerReqs := rfl
@[simp] theorem State.setFrame_leaQ (s : State) (f : Nat) (e : Frame) : (s.setFrame f e).leaQ = s.leaQ := rfl
@[simp] theorem State.setFrame_holders (s : State) (f : Nat) (e : Frame) : (s.setFrame f e).holders = s.holders := rfl
@[simp] theorem State.setFrame_offline (s : State) (f : Nat) (e : Frame) : (s.setFrame f e).offline = s.offline := rfl
@[simp] theorem State.setFrame_boardMts (s : State) (f : Nat) (e : Frame) : (s.setFrame f e).boardMts = s.boardMts := rfl
@[simp] theorem State.setFrame_comms (s : State) (f : Nat) (e : Frame) : (s.setFrame f e).comms = s.comms := rfl
@[simp] theorem State.setFrame_lateTab (s : State) (f : Nat) (e : Frame) : (s.setFrame f e).lateTab = s.lateTab := rfl
@[simp] theorem State.setFrame_ops (s : State) (f : Nat) (e : Frame) : (s.setFrame f e).ops = s.ops := rfl
@[simp] theorem State.setFrame_lates (s : State) (f : Nat) (e : Frame) : (s.setFrame f e).lates = s.lates := rfl
@[simp] theorem State.setFrame_spkOps (s : State) (f : Nat) (e : Frame) : (s.setFrame f e).spkOps = s.spkOps := rfl
@[simp] theorem State.setFrame_spkEpoch (s : State) (f : Nat) (e : Frame) : (s.setFrame f e).spkEpoch = s.spkEpoch := rfl
@[simp] theorem State.setFrame_qps (s : State) (f : Nat) (e : Frame) : (s.setFrame f e).qps = s.qps := rfl
@[simp] theorem State.setFrame_udAgain (s : State) (f : Nat) (e : Frame) : (s.setFrame f e).udAgain = s.udAgain := rfl
@[simp] theorem State.setFrame_lateFmt (s : State) (f : Nat) (e : Frame) : (s.setFrame f e).lateFmt = s.lateFmt := rfl
@[simp] theorem State.setFrame_pubs (s : State) (f : Nat) (e : Frame) : (s.setFrame f e).pubs = s.pubs := rfl
@[simp] theorem State.setFrame_snapEnd (s : State) (f : Nat) (e : Frame) : (s.setFrame f e).snapEnd = s.snapEnd := rfl
@[simp] theorem State.setFrame_snapWaits (s : State) (f : Nat) (e : Frame) : (s.setFrame f e).snapWaits = s.snapWaits := rfl
@[simp] theorem State.setFrame_mrs (s : State) (f : Nat) (e : Frame) : (s.setFrame f e).mrs = s.mrs := rfl
@[simp] theorem State.setFrame_pcieDown (s : State) (f : Nat) (e : Frame) : (s.setFrame f e).pcieDown = s.pcieDown := rfl
@[simp] theorem State.setFrame_ptpGood (s : State) (f : Nat) (e : Frame) : (s.setFrame f e).ptpGood = s.ptpGood := rfl
@[simp] theorem State.setFrame_lports (s : State) (f : Nat) (e : Frame) : (s.setFrame f e).lports = s.lports := rfl
@[simp] theorem State.setFrame_flash (s : State) (f : Nat) (e : Frame) : (s.setFrame f e).flash = s.flash := rfl
@[simp] theorem State.setFrame_defPrev (s : State) (f : Nat) (e : Frame) : (s.setFrame f e).defPrev = s.defPrev := rfl
@[simp] theorem State.setFrame_defSeq (s : State) (f : Nat) (e : Frame) : (s.setFrame f e).defSeq = s.defSeq := rfl
@[simp] theorem State.setFrame_events (s : State) (f : Nat) (e : Frame) : (s.setFrame f e).events = s.events := rfl
@[simp] theorem State.setFrame_boot (s : State) (f : Nat) (e : Frame) : (s.setFrame f e).boot = s.boot := rfl
@[simp] theorem State.setFrame_revoked (s : State) (f : Nat) (e : Frame) : (s.setFrame f e).revoked = s.revoked := rfl
@[simp] theorem State.setFrame_fw (s : State) (f : Nat) (e : Frame) : (s.setFrame f e).fw = s.fw := rfl
@[simp] theorem State.setFrame_power (s : State) (f : Nat) (e : Frame) : (s.setFrame f e).power = s.power := rfl
@[simp] theorem State.setFrame_pins (s : State) (f : Nat) (e : Frame) : (s.setFrame f e).pins = s.pins := rfl
@[simp] theorem State.setFrame_sb (s : State) (f : Nat) (e : Frame) : (s.setFrame f e).sb = s.sb := rfl
@[simp] theorem State.setFrame_grants (s : State) (f : Nat) (e : Frame) : (s.setFrame f e).grants = s.grants := rfl
@[simp] theorem State.setFrame_sessions (s : State) (f : Nat) (e : Frame) : (s.setFrame f e).sessions = s.sessions := rfl
@[simp] theorem State.setFrame_jobs (s : State) (f : Nat) (e : Frame) : (s.setFrame f e).jobs = s.jobs := rfl
@[simp] theorem State.setFrame_medDead (s : State) (f : Nat) (e : Frame) : (s.setFrame f e).medDead = s.medDead := rfl

@[simp] theorem State.emit_pending (s : State) (o : Out) : (s.emit o).pending = s.pending := rfl
@[simp] theorem State.emit_regs (s : State) (o : Out) : (s.emit o).regs = s.regs := rfl
@[simp] theorem State.emit_shadow (s : State) (o : Out) : (s.emit o).shadow = s.shadow := rfl
@[simp] theorem State.emit_tiles (s : State) (o : Out) : (s.emit o).tiles = s.tiles := rfl
@[simp] theorem State.emit_time (s : State) (o : Out) : (s.emit o).time = s.time := rfl
@[simp] theorem State.emit_launches (s : State) (o : Out) : (s.emit o).launches = s.launches := rfl
@[simp] theorem State.emit_switches (s : State) (o : Out) : (s.emit o).switches = s.switches := rfl
@[simp] theorem State.emit_nextId (s : State) (o : Out) : (s.emit o).nextId = s.nextId := rfl
@[simp] theorem State.emit_mem (s : State) (o : Out) : (s.emit o).mem = s.mem := rfl
@[simp] theorem State.emit_units (s : State) (o : Out) : (s.emit o).units = s.units := rfl
@[simp] theorem State.emit_msc (s : State) (o : Out) : (s.emit o).msc = s.msc := rfl
@[simp] theorem State.emit_mclk (s : State) (o : Out) : (s.emit o).mclk = s.mclk := rfl
@[simp] theorem State.emit_busDir (s : State) (o : Out) : (s.emit o).busDir = s.busDir := rfl
@[simp] theorem State.emit_frames (s : State) (o : Out) : (s.emit o).frames = s.frames := rfl
@[simp] theorem State.emit_waits (s : State) (o : Out) : (s.emit o).waits = s.waits := rfl
@[simp] theorem State.emit_moves (s : State) (o : Out) : (s.emit o).moves = s.moves := rfl
@[simp] theorem State.emit_remaps (s : State) (o : Out) : (s.emit o).remaps = s.remaps := rfl
@[simp] theorem State.emit_defects (s : State) (o : Out) : (s.emit o).defects = s.defects := rfl
@[simp] theorem State.emit_pools (s : State) (o : Out) : (s.emit o).pools = s.pools := rfl
@[simp] theorem State.emit_queues (s : State) (o : Out) : (s.emit o).queues = s.queues := rfl
@[simp] theorem State.emit_log (s : State) (o : Out) : (s.emit o).log = s.log := rfl
@[simp] theorem State.emit_wraps (s : State) (o : Out) : (s.emit o).wraps = s.wraps := rfl
@[simp] theorem State.emit_telem (s : State) (o : Out) : (s.emit o).telem = s.telem := rfl
@[simp] theorem State.emit_outs (s : State) (o : Out) : (s.emit o).outs = s.outs ++ [o] := rfl
@[simp] theorem State.emit_free (s : State) (o : Out) : (s.emit o).free = s.free := rfl
@[simp] theorem State.emit_variant (s : State) (o : Out) : (s.emit o).variant = s.variant := rfl
@[simp] theorem State.emit_uid (s : State) (o : Out) : (s.emit o).uid = s.uid := rfl
@[simp] theorem State.emit_fuses (s : State) (o : Out) : (s.emit o).fuses = s.fuses := rfl
@[simp] theorem State.emit_licences (s : State) (o : Out) : (s.emit o).licences = s.licences := rfl
@[simp] theorem State.emit_excluded (s : State) (o : Out) : (s.emit o).excluded = s.excluded := rfl
@[simp] theorem State.emit_boards (s : State) (o : Out) : (s.emit o).boards = s.boards := rfl
@[simp] theorem State.emit_boardGib (s : State) (o : Out) : (s.emit o).boardGib = s.boardGib := rfl
@[simp] theorem State.emit_defDropped (s : State) (o : Out) : (s.emit o).defDropped = s.defDropped := rfl
@[simp] theorem State.emit_active (s : State) (o : Out) : (s.emit o).active = s.active := rfl
@[simp] theorem State.emit_snaps (s : State) (o : Out) : (s.emit o).snaps = s.snaps := rfl
@[simp] theorem State.emit_jseq (s : State) (o : Out) : (s.emit o).jseq = s.jseq := rfl
@[simp] theorem State.emit_hostReqs (s : State) (o : Out) : (s.emit o).hostReqs = s.hostReqs := rfl
@[simp] theorem State.emit_peerReqs (s : State) (o : Out) : (s.emit o).peerReqs = s.peerReqs := rfl
@[simp] theorem State.emit_leaQ (s : State) (o : Out) : (s.emit o).leaQ = s.leaQ := rfl
@[simp] theorem State.emit_holders (s : State) (o : Out) : (s.emit o).holders = s.holders := rfl
@[simp] theorem State.emit_offline (s : State) (o : Out) : (s.emit o).offline = s.offline := rfl
@[simp] theorem State.emit_boardMts (s : State) (o : Out) : (s.emit o).boardMts = s.boardMts := rfl
@[simp] theorem State.emit_comms (s : State) (o : Out) : (s.emit o).comms = s.comms := rfl
@[simp] theorem State.emit_lateTab (s : State) (o : Out) : (s.emit o).lateTab = s.lateTab := rfl
@[simp] theorem State.emit_ops (s : State) (o : Out) : (s.emit o).ops = s.ops := rfl
@[simp] theorem State.emit_lates (s : State) (o : Out) : (s.emit o).lates = s.lates := rfl
@[simp] theorem State.emit_spkOps (s : State) (o : Out) : (s.emit o).spkOps = s.spkOps := rfl
@[simp] theorem State.emit_spkEpoch (s : State) (o : Out) : (s.emit o).spkEpoch = s.spkEpoch := rfl
@[simp] theorem State.emit_qps (s : State) (o : Out) : (s.emit o).qps = s.qps := rfl
@[simp] theorem State.emit_udAgain (s : State) (o : Out) : (s.emit o).udAgain = s.udAgain := rfl
@[simp] theorem State.emit_lateFmt (s : State) (o : Out) : (s.emit o).lateFmt = s.lateFmt := rfl
@[simp] theorem State.emit_pubs (s : State) (o : Out) : (s.emit o).pubs = s.pubs := rfl
@[simp] theorem State.emit_snapEnd (s : State) (o : Out) : (s.emit o).snapEnd = s.snapEnd := rfl
@[simp] theorem State.emit_snapWaits (s : State) (o : Out) : (s.emit o).snapWaits = s.snapWaits := rfl
@[simp] theorem State.emit_mrs (s : State) (o : Out) : (s.emit o).mrs = s.mrs := rfl
@[simp] theorem State.emit_pcieDown (s : State) (o : Out) : (s.emit o).pcieDown = s.pcieDown := rfl
@[simp] theorem State.emit_ptpGood (s : State) (o : Out) : (s.emit o).ptpGood = s.ptpGood := rfl
@[simp] theorem State.emit_lports (s : State) (o : Out) : (s.emit o).lports = s.lports := rfl
@[simp] theorem State.emit_flash (s : State) (o : Out) : (s.emit o).flash = s.flash := rfl
@[simp] theorem State.emit_defPrev (s : State) (o : Out) : (s.emit o).defPrev = s.defPrev := rfl
@[simp] theorem State.emit_defSeq (s : State) (o : Out) : (s.emit o).defSeq = s.defSeq := rfl
@[simp] theorem State.emit_events (s : State) (o : Out) : (s.emit o).events = s.events := rfl
@[simp] theorem State.emit_boot (s : State) (o : Out) : (s.emit o).boot = s.boot := rfl
@[simp] theorem State.emit_revoked (s : State) (o : Out) : (s.emit o).revoked = s.revoked := rfl
@[simp] theorem State.emit_fw (s : State) (o : Out) : (s.emit o).fw = s.fw := rfl
@[simp] theorem State.emit_power (s : State) (o : Out) : (s.emit o).power = s.power := rfl
@[simp] theorem State.emit_pins (s : State) (o : Out) : (s.emit o).pins = s.pins := rfl
@[simp] theorem State.emit_sb (s : State) (o : Out) : (s.emit o).sb = s.sb := rfl
@[simp] theorem State.emit_grants (s : State) (o : Out) : (s.emit o).grants = s.grants := rfl
@[simp] theorem State.emit_sessions (s : State) (o : Out) : (s.emit o).sessions = s.sessions := rfl
@[simp] theorem State.emit_jobs (s : State) (o : Out) : (s.emit o).jobs = s.jobs := rfl
@[simp] theorem State.emit_medDead (s : State) (o : Out) : (s.emit o).medDead = s.medDead := rfl

/-! ### A tile -/

@[simp] theorem Tile.setCtx_regs (tl : Tile) (c : Nat) (x : Ctx) : (tl.setCtx c x).regs = tl.regs := rfl
@[simp] theorem Tile.setCtx_ctxs (tl : Tile) (c : Nat) (x : Ctx) : (tl.setCtx c x).ctxs = spSet dCtx tl.ctxs c x := rfl
@[simp] theorem Tile.setCtx_v (tl : Tile) (c : Nat) (x : Ctx) : (tl.setCtx c x).v = tl.v := rfl
@[simp] theorem Tile.setCtx_acc (tl : Tile) (c : Nat) (x : Ctx) : (tl.setCtx c x).acc = tl.acc := rfl
@[simp] theorem Tile.setCtx_st (tl : Tile) (c : Nat) (x : Ctx) : (tl.setCtx c x).st = tl.st := rfl
@[simp] theorem Tile.setCtx_cis (tl : Tile) (c : Nat) (x : Ctx) : (tl.setCtx c x).cis = tl.cis := rfl
@[simp] theorem Tile.setCtx_bad (tl : Tile) (c : Nat) (x : Ctx) : (tl.setCtx c x).bad = tl.bad := rfl
@[simp] theorem Tile.setCtx_soft (tl : Tile) (c : Nat) (x : Ctx) : (tl.setCtx c x).soft = tl.soft := rfl
@[simp] theorem Tile.setCtx_lineCe (tl : Tile) (c : Nat) (x : Ctx) : (tl.setCtx c x).lineCe = tl.lineCe := rfl
@[simp] theorem Tile.setCtx_scrub (tl : Tile) (c : Nat) (x : Ctx) : (tl.setCtx c x).scrub = tl.scrub := rfl
@[simp] theorem Tile.setCtx_code (tl : Tile) (c : Nat) (x : Ctx) : (tl.setCtx c x).code = tl.code := rfl
@[simp] theorem Tile.setCtx_sfu (tl : Tile) (c : Nat) (x : Ctx) : (tl.setCtx c x).sfu = tl.sfu := rfl
@[simp] theorem Tile.setCtx_chans (tl : Tile) (c : Nat) (x : Ctx) : (tl.setCtx c x).chans = tl.chans := rfl
@[simp] theorem Tile.setCtx_flights (tl : Tile) (c : Nat) (x : Ctx) : (tl.setCtx c x).flights = tl.flights := rfl
@[simp] theorem Tile.setCtx_crumbs (tl : Tile) (c : Nat) (x : Ctx) : (tl.setCtx c x).crumbs = tl.crumbs := rfl
@[simp] theorem Tile.setCtx_slc (tl : Tile) (c : Nat) (x : Ctx) : (tl.setCtx c x).slc = tl.slc := rfl
@[simp] theorem Tile.setCtx_queues (tl : Tile) (c : Nat) (x : Ctx) : (tl.setCtx c x).queues = tl.queues := rfl
@[simp] theorem Tile.setCtx_issued (tl : Tile) (c : Nat) (x : Ctx) : (tl.setCtx c x).issued = tl.issued := rfl
@[simp] theorem Tile.setCtx_post (tl : Tile) (c : Nat) (x : Ctx) : (tl.setCtx c x).post = tl.post := rfl
@[simp] theorem Tile.setCtx_inbox (tl : Tile) (c : Nat) (x : Ctx) : (tl.setCtx c x).inbox = tl.inbox := rfl
@[simp] theorem Tile.setCtx_latch (tl : Tile) (c : Nat) (x : Ctx) : (tl.setCtx c x).latch = tl.latch := rfl
@[simp] theorem Tile.setCtx_scratch (tl : Tile) (c : Nat) (x : Ctx) : (tl.setCtx c x).scratch = tl.scratch := rfl
@[simp] theorem Tile.setCtx_act (tl : Tile) (c : Nat) (x : Ctx) : (tl.setCtx c x).act = tl.act := rfl
@[simp] theorem Tile.setCtx_switch (tl : Tile) (c : Nat) (x : Ctx) : (tl.setCtx c x).switch = tl.switch := rfl
@[simp] theorem Tile.setCtx_run (tl : Tile) (c : Nat) (x : Ctx) : (tl.setCtx c x).run = tl.run := rfl
@[simp] theorem Tile.setCtx_aborting (tl : Tile) (c : Nat) (x : Ctx) : (tl.setCtx c x).aborting = tl.aborting := rfl
@[simp] theorem Tile.setCtx_wraps (tl : Tile) (c : Nat) (x : Ctx) : (tl.setCtx c x).wraps = tl.wraps := rfl
@[simp] theorem Tile.setCtx_mbx (tl : Tile) (c : Nat) (x : Ctx) : (tl.setCtx c x).mbx = tl.mbx := rfl
@[simp] theorem Tile.setCtx_tlb (tl : Tile) (c : Nat) (x : Ctx) : (tl.setCtx c x).tlb = tl.tlb := rfl
@[simp] theorem Tile.setCtx_free (tl : Tile) (c : Nat) (x : Ctx) : (tl.setCtx c x).free = tl.free := rfl

@[simp] theorem Tile.setReg_regs (tl : Tile) (off : Nat) (v : W64) : (tl.setReg off v).regs = spSet dW64 tl.regs off v := rfl
@[simp] theorem Tile.setReg_ctxs (tl : Tile) (off : Nat) (v : W64) : (tl.setReg off v).ctxs = tl.ctxs := rfl
@[simp] theorem Tile.setReg_v (tl : Tile) (off : Nat) (v : W64) : (tl.setReg off v).v = tl.v := rfl
@[simp] theorem Tile.setReg_acc (tl : Tile) (off : Nat) (v : W64) : (tl.setReg off v).acc = tl.acc := rfl
@[simp] theorem Tile.setReg_st (tl : Tile) (off : Nat) (v : W64) : (tl.setReg off v).st = tl.st := rfl
@[simp] theorem Tile.setReg_cis (tl : Tile) (off : Nat) (v : W64) : (tl.setReg off v).cis = tl.cis := rfl
@[simp] theorem Tile.setReg_bad (tl : Tile) (off : Nat) (v : W64) : (tl.setReg off v).bad = tl.bad := rfl
@[simp] theorem Tile.setReg_soft (tl : Tile) (off : Nat) (v : W64) : (tl.setReg off v).soft = tl.soft := rfl
@[simp] theorem Tile.setReg_lineCe (tl : Tile) (off : Nat) (v : W64) : (tl.setReg off v).lineCe = tl.lineCe := rfl
@[simp] theorem Tile.setReg_scrub (tl : Tile) (off : Nat) (v : W64) : (tl.setReg off v).scrub = tl.scrub := rfl
@[simp] theorem Tile.setReg_code (tl : Tile) (off : Nat) (v : W64) : (tl.setReg off v).code = tl.code := rfl
@[simp] theorem Tile.setReg_sfu (tl : Tile) (off : Nat) (v : W64) : (tl.setReg off v).sfu = tl.sfu := rfl
@[simp] theorem Tile.setReg_chans (tl : Tile) (off : Nat) (v : W64) : (tl.setReg off v).chans = tl.chans := rfl
@[simp] theorem Tile.setReg_flights (tl : Tile) (off : Nat) (v : W64) : (tl.setReg off v).flights = tl.flights := rfl
@[simp] theorem Tile.setReg_crumbs (tl : Tile) (off : Nat) (v : W64) : (tl.setReg off v).crumbs = tl.crumbs := rfl
@[simp] theorem Tile.setReg_slc (tl : Tile) (off : Nat) (v : W64) : (tl.setReg off v).slc = tl.slc := rfl
@[simp] theorem Tile.setReg_queues (tl : Tile) (off : Nat) (v : W64) : (tl.setReg off v).queues = tl.queues := rfl
@[simp] theorem Tile.setReg_issued (tl : Tile) (off : Nat) (v : W64) : (tl.setReg off v).issued = tl.issued := rfl
@[simp] theorem Tile.setReg_post (tl : Tile) (off : Nat) (v : W64) : (tl.setReg off v).post = tl.post := rfl
@[simp] theorem Tile.setReg_inbox (tl : Tile) (off : Nat) (v : W64) : (tl.setReg off v).inbox = tl.inbox := rfl
@[simp] theorem Tile.setReg_latch (tl : Tile) (off : Nat) (v : W64) : (tl.setReg off v).latch = tl.latch := rfl
@[simp] theorem Tile.setReg_scratch (tl : Tile) (off : Nat) (v : W64) : (tl.setReg off v).scratch = tl.scratch := rfl
@[simp] theorem Tile.setReg_act (tl : Tile) (off : Nat) (v : W64) : (tl.setReg off v).act = tl.act := rfl
@[simp] theorem Tile.setReg_switch (tl : Tile) (off : Nat) (v : W64) : (tl.setReg off v).switch = tl.switch := rfl
@[simp] theorem Tile.setReg_run (tl : Tile) (off : Nat) (v : W64) : (tl.setReg off v).run = tl.run := rfl
@[simp] theorem Tile.setReg_aborting (tl : Tile) (off : Nat) (v : W64) : (tl.setReg off v).aborting = tl.aborting := rfl
@[simp] theorem Tile.setReg_wraps (tl : Tile) (off : Nat) (v : W64) : (tl.setReg off v).wraps = tl.wraps := rfl
@[simp] theorem Tile.setReg_mbx (tl : Tile) (off : Nat) (v : W64) : (tl.setReg off v).mbx = tl.mbx := rfl
@[simp] theorem Tile.setReg_tlb (tl : Tile) (off : Nat) (v : W64) : (tl.setReg off v).tlb = tl.tlb := rfl
@[simp] theorem Tile.setReg_free (tl : Tile) (off : Nat) (v : W64) : (tl.setReg off v).free = tl.free := rfl

@[simp] theorem Tile.setQueue_regs (tl : Tile) (q : Nat) (es : List QEntry) : (tl.setQueue q es).regs = tl.regs := rfl
@[simp] theorem Tile.setQueue_ctxs (tl : Tile) (q : Nat) (es : List QEntry) : (tl.setQueue q es).ctxs = tl.ctxs := rfl
@[simp] theorem Tile.setQueue_v (tl : Tile) (q : Nat) (es : List QEntry) : (tl.setQueue q es).v = tl.v := rfl
@[simp] theorem Tile.setQueue_acc (tl : Tile) (q : Nat) (es : List QEntry) : (tl.setQueue q es).acc = tl.acc := rfl
@[simp] theorem Tile.setQueue_st (tl : Tile) (q : Nat) (es : List QEntry) : (tl.setQueue q es).st = tl.st := rfl
@[simp] theorem Tile.setQueue_cis (tl : Tile) (q : Nat) (es : List QEntry) : (tl.setQueue q es).cis = tl.cis := rfl
@[simp] theorem Tile.setQueue_bad (tl : Tile) (q : Nat) (es : List QEntry) : (tl.setQueue q es).bad = tl.bad := rfl
@[simp] theorem Tile.setQueue_soft (tl : Tile) (q : Nat) (es : List QEntry) : (tl.setQueue q es).soft = tl.soft := rfl
@[simp] theorem Tile.setQueue_lineCe (tl : Tile) (q : Nat) (es : List QEntry) : (tl.setQueue q es).lineCe = tl.lineCe := rfl
@[simp] theorem Tile.setQueue_scrub (tl : Tile) (q : Nat) (es : List QEntry) : (tl.setQueue q es).scrub = tl.scrub := rfl
@[simp] theorem Tile.setQueue_code (tl : Tile) (q : Nat) (es : List QEntry) : (tl.setQueue q es).code = tl.code := rfl
@[simp] theorem Tile.setQueue_sfu (tl : Tile) (q : Nat) (es : List QEntry) : (tl.setQueue q es).sfu = tl.sfu := rfl
@[simp] theorem Tile.setQueue_chans (tl : Tile) (q : Nat) (es : List QEntry) : (tl.setQueue q es).chans = tl.chans := rfl
@[simp] theorem Tile.setQueue_flights (tl : Tile) (q : Nat) (es : List QEntry) : (tl.setQueue q es).flights = tl.flights := rfl
@[simp] theorem Tile.setQueue_crumbs (tl : Tile) (q : Nat) (es : List QEntry) : (tl.setQueue q es).crumbs = tl.crumbs := rfl
@[simp] theorem Tile.setQueue_slc (tl : Tile) (q : Nat) (es : List QEntry) : (tl.setQueue q es).slc = tl.slc := rfl
@[simp] theorem Tile.setQueue_queues (tl : Tile) (q : Nat) (es : List QEntry) : (tl.setQueue q es).queues = spSet dQueue tl.queues q es := rfl
@[simp] theorem Tile.setQueue_issued (tl : Tile) (q : Nat) (es : List QEntry) : (tl.setQueue q es).issued = tl.issued := rfl
@[simp] theorem Tile.setQueue_post (tl : Tile) (q : Nat) (es : List QEntry) : (tl.setQueue q es).post = tl.post := rfl
@[simp] theorem Tile.setQueue_inbox (tl : Tile) (q : Nat) (es : List QEntry) : (tl.setQueue q es).inbox = tl.inbox := rfl
@[simp] theorem Tile.setQueue_latch (tl : Tile) (q : Nat) (es : List QEntry) : (tl.setQueue q es).latch = tl.latch := rfl
@[simp] theorem Tile.setQueue_scratch (tl : Tile) (q : Nat) (es : List QEntry) : (tl.setQueue q es).scratch = tl.scratch := rfl
@[simp] theorem Tile.setQueue_act (tl : Tile) (q : Nat) (es : List QEntry) : (tl.setQueue q es).act = tl.act := rfl
@[simp] theorem Tile.setQueue_switch (tl : Tile) (q : Nat) (es : List QEntry) : (tl.setQueue q es).switch = tl.switch := rfl
@[simp] theorem Tile.setQueue_run (tl : Tile) (q : Nat) (es : List QEntry) : (tl.setQueue q es).run = tl.run := rfl
@[simp] theorem Tile.setQueue_aborting (tl : Tile) (q : Nat) (es : List QEntry) : (tl.setQueue q es).aborting = tl.aborting := rfl
@[simp] theorem Tile.setQueue_wraps (tl : Tile) (q : Nat) (es : List QEntry) : (tl.setQueue q es).wraps = tl.wraps := rfl
@[simp] theorem Tile.setQueue_mbx (tl : Tile) (q : Nat) (es : List QEntry) : (tl.setQueue q es).mbx = tl.mbx := rfl
@[simp] theorem Tile.setQueue_tlb (tl : Tile) (q : Nat) (es : List QEntry) : (tl.setQueue q es).tlb = tl.tlb := rfl
@[simp] theorem Tile.setQueue_free (tl : Tile) (q : Nat) (es : List QEntry) : (tl.setQueue q es).free = tl.free := rfl

@[simp] theorem Tile.vSet_regs (tl : Tile) (r l v : Nat) : (tl.vSet r l v).regs = tl.regs := rfl
@[simp] theorem Tile.vSet_ctxs (tl : Tile) (r l v : Nat) : (tl.vSet r l v).ctxs = tl.ctxs := rfl
@[simp] theorem Tile.vSet_v (tl : Tile) (r l v : Nat) : (tl.vSet r l v).v = spSet dW32 tl.v (256 * r + l) (BitVec.ofNat 32 v) := rfl
@[simp] theorem Tile.vSet_acc (tl : Tile) (r l v : Nat) : (tl.vSet r l v).acc = tl.acc := rfl
@[simp] theorem Tile.vSet_st (tl : Tile) (r l v : Nat) : (tl.vSet r l v).st = tl.st := rfl
@[simp] theorem Tile.vSet_cis (tl : Tile) (r l v : Nat) : (tl.vSet r l v).cis = tl.cis := rfl
@[simp] theorem Tile.vSet_bad (tl : Tile) (r l v : Nat) : (tl.vSet r l v).bad = tl.bad := rfl
@[simp] theorem Tile.vSet_soft (tl : Tile) (r l v : Nat) : (tl.vSet r l v).soft = tl.soft := rfl
@[simp] theorem Tile.vSet_lineCe (tl : Tile) (r l v : Nat) : (tl.vSet r l v).lineCe = tl.lineCe := rfl
@[simp] theorem Tile.vSet_scrub (tl : Tile) (r l v : Nat) : (tl.vSet r l v).scrub = tl.scrub := rfl
@[simp] theorem Tile.vSet_code (tl : Tile) (r l v : Nat) : (tl.vSet r l v).code = tl.code := rfl
@[simp] theorem Tile.vSet_sfu (tl : Tile) (r l v : Nat) : (tl.vSet r l v).sfu = tl.sfu := rfl
@[simp] theorem Tile.vSet_chans (tl : Tile) (r l v : Nat) : (tl.vSet r l v).chans = tl.chans := rfl
@[simp] theorem Tile.vSet_flights (tl : Tile) (r l v : Nat) : (tl.vSet r l v).flights = tl.flights := rfl
@[simp] theorem Tile.vSet_crumbs (tl : Tile) (r l v : Nat) : (tl.vSet r l v).crumbs = tl.crumbs := rfl
@[simp] theorem Tile.vSet_slc (tl : Tile) (r l v : Nat) : (tl.vSet r l v).slc = tl.slc := rfl
@[simp] theorem Tile.vSet_queues (tl : Tile) (r l v : Nat) : (tl.vSet r l v).queues = tl.queues := rfl
@[simp] theorem Tile.vSet_issued (tl : Tile) (r l v : Nat) : (tl.vSet r l v).issued = tl.issued := rfl
@[simp] theorem Tile.vSet_post (tl : Tile) (r l v : Nat) : (tl.vSet r l v).post = tl.post := rfl
@[simp] theorem Tile.vSet_inbox (tl : Tile) (r l v : Nat) : (tl.vSet r l v).inbox = tl.inbox := rfl
@[simp] theorem Tile.vSet_latch (tl : Tile) (r l v : Nat) : (tl.vSet r l v).latch = tl.latch := rfl
@[simp] theorem Tile.vSet_scratch (tl : Tile) (r l v : Nat) : (tl.vSet r l v).scratch = tl.scratch := rfl
@[simp] theorem Tile.vSet_act (tl : Tile) (r l v : Nat) : (tl.vSet r l v).act = tl.act := rfl
@[simp] theorem Tile.vSet_switch (tl : Tile) (r l v : Nat) : (tl.vSet r l v).switch = tl.switch := rfl
@[simp] theorem Tile.vSet_run (tl : Tile) (r l v : Nat) : (tl.vSet r l v).run = tl.run := rfl
@[simp] theorem Tile.vSet_aborting (tl : Tile) (r l v : Nat) : (tl.vSet r l v).aborting = tl.aborting := rfl
@[simp] theorem Tile.vSet_wraps (tl : Tile) (r l v : Nat) : (tl.vSet r l v).wraps = tl.wraps := rfl
@[simp] theorem Tile.vSet_mbx (tl : Tile) (r l v : Nat) : (tl.vSet r l v).mbx = tl.mbx := rfl
@[simp] theorem Tile.vSet_tlb (tl : Tile) (r l v : Nat) : (tl.vSet r l v).tlb = tl.tlb := rfl
@[simp] theorem Tile.vSet_free (tl : Tile) (r l v : Nat) : (tl.vSet r l v).free = tl.free := rfl

@[simp] theorem Tile.accSet_regs (tl : Tile) (b m n v : Nat) : (tl.accSet b m n v).regs = tl.regs := rfl
@[simp] theorem Tile.accSet_ctxs (tl : Tile) (b m n v : Nat) : (tl.accSet b m n v).ctxs = tl.ctxs := rfl
@[simp] theorem Tile.accSet_v (tl : Tile) (b m n v : Nat) : (tl.accSet b m n v).v = tl.v := rfl
@[simp] theorem Tile.accSet_acc (tl : Tile) (b m n v : Nat) : (tl.accSet b m n v).acc = spSet dW32 tl.acc (accIx b m n) (BitVec.ofNat 32 v) := rfl
@[simp] theorem Tile.accSet_st (tl : Tile) (b m n v : Nat) : (tl.accSet b m n v).st = tl.st := rfl
@[simp] theorem Tile.accSet_cis (tl : Tile) (b m n v : Nat) : (tl.accSet b m n v).cis = tl.cis := rfl
@[simp] theorem Tile.accSet_bad (tl : Tile) (b m n v : Nat) : (tl.accSet b m n v).bad = tl.bad := rfl
@[simp] theorem Tile.accSet_soft (tl : Tile) (b m n v : Nat) : (tl.accSet b m n v).soft = tl.soft := rfl
@[simp] theorem Tile.accSet_lineCe (tl : Tile) (b m n v : Nat) : (tl.accSet b m n v).lineCe = tl.lineCe := rfl
@[simp] theorem Tile.accSet_scrub (tl : Tile) (b m n v : Nat) : (tl.accSet b m n v).scrub = tl.scrub := rfl
@[simp] theorem Tile.accSet_code (tl : Tile) (b m n v : Nat) : (tl.accSet b m n v).code = tl.code := rfl
@[simp] theorem Tile.accSet_sfu (tl : Tile) (b m n v : Nat) : (tl.accSet b m n v).sfu = tl.sfu := rfl
@[simp] theorem Tile.accSet_chans (tl : Tile) (b m n v : Nat) : (tl.accSet b m n v).chans = tl.chans := rfl
@[simp] theorem Tile.accSet_flights (tl : Tile) (b m n v : Nat) : (tl.accSet b m n v).flights = tl.flights := rfl
@[simp] theorem Tile.accSet_crumbs (tl : Tile) (b m n v : Nat) : (tl.accSet b m n v).crumbs = tl.crumbs := rfl
@[simp] theorem Tile.accSet_slc (tl : Tile) (b m n v : Nat) : (tl.accSet b m n v).slc = tl.slc := rfl
@[simp] theorem Tile.accSet_queues (tl : Tile) (b m n v : Nat) : (tl.accSet b m n v).queues = tl.queues := rfl
@[simp] theorem Tile.accSet_issued (tl : Tile) (b m n v : Nat) : (tl.accSet b m n v).issued = tl.issued := rfl
@[simp] theorem Tile.accSet_post (tl : Tile) (b m n v : Nat) : (tl.accSet b m n v).post = tl.post := rfl
@[simp] theorem Tile.accSet_inbox (tl : Tile) (b m n v : Nat) : (tl.accSet b m n v).inbox = tl.inbox := rfl
@[simp] theorem Tile.accSet_latch (tl : Tile) (b m n v : Nat) : (tl.accSet b m n v).latch = tl.latch := rfl
@[simp] theorem Tile.accSet_scratch (tl : Tile) (b m n v : Nat) : (tl.accSet b m n v).scratch = tl.scratch := rfl
@[simp] theorem Tile.accSet_act (tl : Tile) (b m n v : Nat) : (tl.accSet b m n v).act = tl.act := rfl
@[simp] theorem Tile.accSet_switch (tl : Tile) (b m n v : Nat) : (tl.accSet b m n v).switch = tl.switch := rfl
@[simp] theorem Tile.accSet_run (tl : Tile) (b m n v : Nat) : (tl.accSet b m n v).run = tl.run := rfl
@[simp] theorem Tile.accSet_aborting (tl : Tile) (b m n v : Nat) : (tl.accSet b m n v).aborting = tl.aborting := rfl
@[simp] theorem Tile.accSet_wraps (tl : Tile) (b m n v : Nat) : (tl.accSet b m n v).wraps = tl.wraps := rfl
@[simp] theorem Tile.accSet_mbx (tl : Tile) (b m n v : Nat) : (tl.accSet b m n v).mbx = tl.mbx := rfl
@[simp] theorem Tile.accSet_tlb (tl : Tile) (b m n v : Nat) : (tl.accSet b m n v).tlb = tl.tlb := rfl
@[simp] theorem Tile.accSet_free (tl : Tile) (b m n v : Nat) : (tl.accSet b m n v).free = tl.free := rfl

/-! ### A context -/

theorem Ctx.sSet_s (x : Ctx) (n : Nat) (v : W64) : (x.sSet n v).s = if n = 0 then x.s else spSet dW64 x.s n v := by
  unfold Ctx.sSet; split <;> rfl
@[simp] theorem Ctx.sSet_a (x : Ctx) (n : Nat) (v : W64) : (x.sSet n v).a = x.a := by
  unfold Ctx.sSet; split <;> rfl
@[simp] theorem Ctx.sSet_p (x : Ctx) (n : Nat) (v : W64) : (x.sSet n v).p = x.p := by
  unfold Ctx.sSet; split <;> rfl
@[simp] theorem Ctx.sSet_td (x : Ctx) (n : Nat) (v : W64) : (x.sSet n v).td = x.td := by
  unfold Ctx.sSet; split <;> rfl
@[simp] theorem Ctx.sSet_pc (x : Ctx) (n : Nat) (v : W64) : (x.sSet n v).pc = x.pc := by
  unfold Ctx.sSet; split <;> rfl
@[simp] theorem Ctx.sSet_loops (x : Ctx) (n : Nat) (v : W64) : (x.sSet n v).loops = x.loops := by
  unfold Ctx.sSet; split <;> rfl
@[simp] theorem Ctx.sSet_mePad (x : Ctx) (n : Nat) (v : W64) : (x.sSet n v).mePad = x.mePad := by
  unfold Ctx.sSet; split <;> rfl
@[simp] theorem Ctx.sSet_lenM (x : Ctx) (n : Nat) (v : W64) : (x.sSet n v).lenM = x.lenM := by
  unfold Ctx.sSet; split <;> rfl
@[simp] theorem Ctx.sSet_lenN (x : Ctx) (n : Nat) (v : W64) : (x.sSet n v).lenN = x.lenN := by
  unfold Ctx.sSet; split <;> rfl
@[simp] theorem Ctx.sSet_lenK (x : Ctx) (n : Nat) (v : W64) : (x.sSet n v).lenK = x.lenK := by
  unfold Ctx.sSet; split <;> rfl
@[simp] theorem Ctx.sSet_osm (x : Ctx) (n : Nat) (v : W64) : (x.sSet n v).osm = x.osm := by
  unfold Ctx.sSet; split <;> rfl
@[simp] theorem Ctx.sSet_blk (x : Ctx) (n : Nat) (v : W64) : (x.sSet n v).blk = x.blk := by
  unfold Ctx.sSet; split <;> rfl
@[simp] theorem Ctx.sSet_poison (x : Ctx) (n : Nat) (v : W64) : (x.sSet n v).poison = x.poison := by
  unfold Ctx.sSet; split <;> rfl
@[simp] theorem Ctx.sSet_saved (x : Ctx) (n : Nat) (v : W64) : (x.sSet n v).saved = x.saved := by
  unfold Ctx.sSet; split <;> rfl
@[simp] theorem Ctx.sSet_flmSaved (x : Ctx) (n : Nat) (v : W64) : (x.sSet n v).flmSaved = x.flmSaved := by
  unfold Ctx.sSet; split <;> rfl
@[simp] theorem Ctx.sSet_kernels (x : Ctx) (n : Nat) (v : W64) : (x.sSet n v).kernels = x.kernels := by
  unfold Ctx.sSet; split <;> rfl

@[simp] theorem Ctx.pSet_s (x : Ctx) (n : Nat) (v : Pred) : (x.pSet n v).s = x.s := by
  unfold Ctx.pSet; split <;> rfl
@[simp] theorem Ctx.pSet_a (x : Ctx) (n : Nat) (v : Pred) : (x.pSet n v).a = x.a := by
  unfold Ctx.pSet; split <;> rfl
theorem Ctx.pSet_p (x : Ctx) (n : Nat) (v : Pred) : (x.pSet n v).p = if n = 0 then x.p else spSet dPred x.p n v := by
  unfold Ctx.pSet; split <;> rfl
@[simp] theorem Ctx.pSet_td (x : Ctx) (n : Nat) (v : Pred) : (x.pSet n v).td = x.td := by
  unfold Ctx.pSet; split <;> rfl
@[simp] theorem Ctx.pSet_pc (x : Ctx) (n : Nat) (v : Pred) : (x.pSet n v).pc = x.pc := by
  unfold Ctx.pSet; split <;> rfl
@[simp] theorem Ctx.pSet_loops (x : Ctx) (n : Nat) (v : Pred) : (x.pSet n v).loops = x.loops := by
  unfold Ctx.pSet; split <;> rfl
@[simp] theorem Ctx.pSet_mePad (x : Ctx) (n : Nat) (v : Pred) : (x.pSet n v).mePad = x.mePad := by
  unfold Ctx.pSet; split <;> rfl
@[simp] theorem Ctx.pSet_lenM (x : Ctx) (n : Nat) (v : Pred) : (x.pSet n v).lenM = x.lenM := by
  unfold Ctx.pSet; split <;> rfl
@[simp] theorem Ctx.pSet_lenN (x : Ctx) (n : Nat) (v : Pred) : (x.pSet n v).lenN = x.lenN := by
  unfold Ctx.pSet; split <;> rfl
@[simp] theorem Ctx.pSet_lenK (x : Ctx) (n : Nat) (v : Pred) : (x.pSet n v).lenK = x.lenK := by
  unfold Ctx.pSet; split <;> rfl
@[simp] theorem Ctx.pSet_osm (x : Ctx) (n : Nat) (v : Pred) : (x.pSet n v).osm = x.osm := by
  unfold Ctx.pSet; split <;> rfl
@[simp] theorem Ctx.pSet_blk (x : Ctx) (n : Nat) (v : Pred) : (x.pSet n v).blk = x.blk := by
  unfold Ctx.pSet; split <;> rfl
@[simp] theorem Ctx.pSet_poison (x : Ctx) (n : Nat) (v : Pred) : (x.pSet n v).poison = x.poison := by
  unfold Ctx.pSet; split <;> rfl
@[simp] theorem Ctx.pSet_saved (x : Ctx) (n : Nat) (v : Pred) : (x.pSet n v).saved = x.saved := by
  unfold Ctx.pSet; split <;> rfl
@[simp] theorem Ctx.pSet_flmSaved (x : Ctx) (n : Nat) (v : Pred) : (x.pSet n v).flmSaved = x.flmSaved := by
  unfold Ctx.pSet; split <;> rfl
@[simp] theorem Ctx.pSet_kernels (x : Ctx) (n : Nat) (v : Pred) : (x.pSet n v).kernels = x.kernels := by
  unfold Ctx.pSet; split <;> rfl

@[simp] theorem Ctx.aSet_s (x : Ctx) (n : Nat) (v : W64) : (x.aSet n v).s = x.s := rfl
@[simp] theorem Ctx.aSet_a (x : Ctx) (n : Nat) (v : W64) : (x.aSet n v).a = spSet dW64 x.a n v := rfl
@[simp] theorem Ctx.aSet_p (x : Ctx) (n : Nat) (v : W64) : (x.aSet n v).p = x.p := rfl
@[simp] theorem Ctx.aSet_td (x : Ctx) (n : Nat) (v : W64) : (x.aSet n v).td = x.td := rfl
@[simp] theorem Ctx.aSet_pc (x : Ctx) (n : Nat) (v : W64) : (x.aSet n v).pc = x.pc := rfl
@[simp] theorem Ctx.aSet_loops (x : Ctx) (n : Nat) (v : W64) : (x.aSet n v).loops = x.loops := rfl
@[simp] theorem Ctx.aSet_mePad (x : Ctx) (n : Nat) (v : W64) : (x.aSet n v).mePad = x.mePad := rfl
@[simp] theorem Ctx.aSet_lenM (x : Ctx) (n : Nat) (v : W64) : (x.aSet n v).lenM = x.lenM := rfl
@[simp] theorem Ctx.aSet_lenN (x : Ctx) (n : Nat) (v : W64) : (x.aSet n v).lenN = x.lenN := rfl
@[simp] theorem Ctx.aSet_lenK (x : Ctx) (n : Nat) (v : W64) : (x.aSet n v).lenK = x.lenK := rfl
@[simp] theorem Ctx.aSet_osm (x : Ctx) (n : Nat) (v : W64) : (x.aSet n v).osm = x.osm := rfl
@[simp] theorem Ctx.aSet_blk (x : Ctx) (n : Nat) (v : W64) : (x.aSet n v).blk = x.blk := rfl
@[simp] theorem Ctx.aSet_poison (x : Ctx) (n : Nat) (v : W64) : (x.aSet n v).poison = x.poison := rfl
@[simp] theorem Ctx.aSet_saved (x : Ctx) (n : Nat) (v : W64) : (x.aSet n v).saved = x.saved := rfl
@[simp] theorem Ctx.aSet_flmSaved (x : Ctx) (n : Nat) (v : W64) : (x.aSet n v).flmSaved = x.flmSaved := rfl
@[simp] theorem Ctx.aSet_kernels (x : Ctx) (n : Nat) (v : W64) : (x.aSet n v).kernels = x.kernels := rfl

@[simp] theorem Ctx.tdSet_s (x : Ctx) (n : Nat) (v : TDesc) : (x.tdSet n v).s = x.s := rfl
@[simp] theorem Ctx.tdSet_a (x : Ctx) (n : Nat) (v : TDesc) : (x.tdSet n v).a = x.a := rfl
@[simp] theorem Ctx.tdSet_p (x : Ctx) (n : Nat) (v : TDesc) : (x.tdSet n v).p = x.p := rfl
@[simp] theorem Ctx.tdSet_td (x : Ctx) (n : Nat) (v : TDesc) : (x.tdSet n v).td = spSet dTDesc x.td n v := rfl
@[simp] theorem Ctx.tdSet_pc (x : Ctx) (n : Nat) (v : TDesc) : (x.tdSet n v).pc = x.pc := rfl
@[simp] theorem Ctx.tdSet_loops (x : Ctx) (n : Nat) (v : TDesc) : (x.tdSet n v).loops = x.loops := rfl
@[simp] theorem Ctx.tdSet_mePad (x : Ctx) (n : Nat) (v : TDesc) : (x.tdSet n v).mePad = x.mePad := rfl
@[simp] theorem Ctx.tdSet_lenM (x : Ctx) (n : Nat) (v : TDesc) : (x.tdSet n v).lenM = x.lenM := rfl
@[simp] theorem Ctx.tdSet_lenN (x : Ctx) (n : Nat) (v : TDesc) : (x.tdSet n v).lenN = x.lenN := rfl
@[simp] theorem Ctx.tdSet_lenK (x : Ctx) (n : Nat) (v : TDesc) : (x.tdSet n v).lenK = x.lenK := rfl
@[simp] theorem Ctx.tdSet_osm (x : Ctx) (n : Nat) (v : TDesc) : (x.tdSet n v).osm = x.osm := rfl
@[simp] theorem Ctx.tdSet_blk (x : Ctx) (n : Nat) (v : TDesc) : (x.tdSet n v).blk = x.blk := rfl
@[simp] theorem Ctx.tdSet_poison (x : Ctx) (n : Nat) (v : TDesc) : (x.tdSet n v).poison = x.poison := rfl
@[simp] theorem Ctx.tdSet_saved (x : Ctx) (n : Nat) (v : TDesc) : (x.tdSet n v).saved = x.saved := rfl
@[simp] theorem Ctx.tdSet_flmSaved (x : Ctx) (n : Nat) (v : TDesc) : (x.tdSet n v).flmSaved = x.flmSaved := rfl
@[simp] theorem Ctx.tdSet_kernels (x : Ctx) (n : Nat) (v : TDesc) : (x.tdSet n v).kernels = x.kernels := rfl

end Sys2Proof.Machine
end

