-- ==== Sys2Proof/Laws/Dev.lean ====
section
/-! SUPPORT. How a device operation runs, part by part: what `Dev.go` answers for each way of building one. -/

namespace Sys2Proof.Machine

variable {α β : Type} (s : State)

@[simp] theorem go_pure (a : α) : (pure a : Dev α).go s = (.ok a, s) := rfl
@[simp] theorem go_throw (e : Stop) : (throw e : Dev α).go s = (.error e, s) := rfl
@[simp] theorem go_upd (f : State → State) : (upd f).go s = (.ok (), f s) := rfl
@[simp] theorem go_get : (get : Dev State).go s = (.ok s, s) := rfl
@[simp] theorem go_set (s' : State) : (set s' : Dev Unit).go s = (.ok (), s') := rfl
@[simp] theorem go_look (f : State → α) : (look f).go s = (.ok (f s), s) := rfl
@[simp] theorem go_refuse (c d : Nat) : (refuse c d : Dev α).go s = (.error (.abort c d), s) := rfl
@[simp] theorem go_stall : (stall : Dev α).go s = (.error .wait, s) := rfl

/-- A part and what follows it: the second runs in the state the first leaves, unless the first stops. -/
theorem go_bind (m : Dev α) (f : α → Dev β) :
    (m >>= f).go s = match m.go s with
      | (.ok a, s') => (f a).go s'
      | (.error e, s') => (.error e, s') := by
  simp only [Dev.go, bind, ExceptT.bind, ExceptT.run, StateT.run, StateT.bind, ExceptT.mk]
  cases h : m s with
  | mk r s' => cases r <;> rfl

/-- A part that answers goes on in the state it leaves. -/
theorem go_bind_ok {m : Dev α} {a : α} {s s' : State} (h : m.go s = (.ok a, s')) (f : α → Dev β) :
    (m >>= f).go s = (f a).go s' := by rw [go_bind, h]

/-- A part that stops ends the whole. -/
theorem go_bind_error {m : Dev α} {e : Stop} {s s' : State} (h : m.go s = (.error e, s')) (f : α → Dev β) :
    (m >>= f).go s = (.error e, s') := by rw [go_bind, h]

@[simp] theorem go_must (b : Bool) (c d : Nat) :
    (must b c d).go s = if b then (.ok (), s) else (.error (.abort c d), s) := by
  cases b <;> rfl

theorem go_ite (p : Prop) [Decidable p] (m n : Dev α) : (if p then m else n).go s = if p then m.go s else n.go s := by
  split <;> rfl

@[simp] theorem forAll_nil (f : α → Dev Unit) : forAll [] f = pure () := rfl
@[simp] theorem forAll_cons (a : α) (l : List α) (f : α → Dev Unit) : forAll (a :: l) f = f a >>= fun _ => forAll l f := rfl

theorem go_liftEx_ok (a : α) : (liftEx (.ok a : Ex α)).go s = (.ok a, s) := rfl
theorem go_liftEx_error (e : Stop) : (liftEx (.error e : Ex α)).go s = (.error e, s) := rfl

/-- A part whose code is taken as a value. -/
theorem go_attempt (m : Dev α) :
    (attempt m).go s = match m.go s with
      | (.ok a, s') => (.ok (.ok a), s')
      | (.error (.abort c d), s') => (.ok (.error (c, d)), s')
      | (.error .wait, _) => (.error .wait, s) := by
  change attempt m s = _
  unfold attempt
  rcases m.go s with ⟨_ | _, s'⟩
  · rename_i e; cases e <;> rfl
  · rfl

/-- A command whose parts all answer leaves the state of the last. -/
theorem next_ok {m : Dev Unit} {s s' : State} {u : Unit} (h : m.go s = (.ok u, s')) : m.next s = s' := by
  simp [Dev.next, h]

/-- A command that ends with a code keeps what it did. -/
theorem next_abort {m : Dev Unit} {s s' : State} {c d : Nat} (h : m.go s = (.error (.abort c d), s')) : m.next s = s' := by
  simp [Dev.next, h]

/-- A command that must wait leaves the state as it was. -/
theorem next_wait {m : Dev Unit} {s s' : State} (h : m.go s = (.error .wait, s')) : m.next s = s := by
  simp [Dev.next, h]

theorem run'_eq (m : Dev Unit) : m.run' s = .next (m.next s) := rfl

/-- The next state of a part and what follows it, when the part answers. -/
theorem next_bind_ok {m : Dev α} {a : α} {s s' : State} (h : m.go s = (.ok a, s')) {f : α → Dev Unit}
    (hw : ∀ s'', (f a).go s' ≠ (.error .wait, s'')) : (m >>= f).next s = (f a).next s' := by
  simp only [Dev.next, go_bind_ok h]
  cases hg : (f a).go s' with
  | mk r s'' =>
    cases r with
    | ok u => rfl
    | error e =>
      cases e with
      | abort c d => rfl
      | wait => exact absurd hg (hw s'')

end Sys2Proof.Machine
end

