-- ==== Sys2Proof/Laws/Issue.lean ====
section
/-! SUPPORT. What an instruction that issues and runs at once does, said once for every instruction. -/

namespace Sys2Proof.Machine

variable {s : State} {t : Nat} {r : Run} {k : LKernel} {opc : Nat} {w : IWord} {x : W64}

theorem encOf_none_kzDefined (h : kzDefined opc w x = true) : (encOf opc w.fn.toNat).isSome := by
  unfold kzDefined at h
  split at h
  · cases h
  · next e he => simp [he]

/-- An instruction that may issue is a defined encoding. -/
theorem canIssue_defined (h : s.canIssue t opc w x = true) : kzDefined opc w x = true := by
  unfold State.canIssue at h; simp only [Bool.and_eq_true] at h; exact h.1

/-- Nothing that has not started waits in an instruction's queue when it may issue. -/
theorem canIssue_noHead (h : s.canIssue t opc w x = true) :
    (if kzQueue opc < 5 then headWaiting (spGet dQueue (s.tile t).queues (kzQueue opc)) else none) = none := by
  unfold State.canIssue at h
  split
  · next hq =>
    simp only [Bool.and_eq_true] at h
    obtain ⟨_, h⟩ := h
    split at h
    · cases h
    · simp only [Bool.and_eq_true, Bool.or_eq_true, decide_eq_true_eq] at h
      rcases h.2 with h5 | ⟨_, h6⟩
      · omega
      · exact Option.isNone_iff_eq_none.1 h6
  · rfl

/-- What the state becomes after the body of an instruction that issues. -/
def finishIssue (s : State) (t : Nat) (r : Run) (opc : Nat) (w : IWord) (e : QEntry) : Act → State
  | .done tl => s.went t r opc w tl
  | .stay tl => s.setTile t tl
  | .wait tl got => s.went t r opc w (tl.pushQueue (kzQueue opc) { e with got := got })
  | .started tl ref => s.went t r opc w (tl.pushQueue (kzQueue opc) { e with started := true, ref := ref })
  | .abort tl c d => abortTile s t tl c d

/-- An instruction that may issue runs its body once, on the tile as it finds it. -/
theorem deviceInstr_issue {i : Instr} {body : State → Tile → Kx → State × Act} (h : s.canIssue t opc w x = true)
    (hr : (s.tile t).running = some (r, k)) :
    deviceInstr s t i opc w x body =
      .next (finishIssue (body s (s.issuing t r opc) (s.seen t r k opc w)).1 t r opc w (s.entry t r i opc w x)
        (body s (s.issuing t r opc) (s.seen t r k opc w)).2) := by
  have hd := canIssue_defined h
  have hn := canIssue_noHead h
  have h' := h
  unfold State.canIssue at h'
  simp only [hr, Bool.and_eq_true, Bool.or_eq_true, Bool.not_eq_true', decide_eq_true_eq] at h'
  obtain ⟨-, ⟨⟨⟨⟨⟨h1, h2⟩, h3⟩, h4⟩, h5⟩, h6⟩⟩ := h'
  have hpc : ¬ k.codeBytes ≤ ((s.tile t).ctx r.ctx).pc := by omega
  have hen : (!kzLanewise opc && !((s.tile t).ctx r.ctx).enabled w) = false := by
    rcases h5 with h5 | h5 <;> simp [h5]
  have hroom : ¬ (kzQueue opc < 5 ∧ queueDepth (kzQueue opc) ≤ (spGet dQueue (s.tile t).queues (kzQueue opc)).length) := by
    rcases h6 with h6 | ⟨h6, -⟩ <;> omega
  have hhead : ¬ (kzQueue opc < 5 ∧ (headWaiting (spGet dQueue (s.tile t).queues (kzQueue opc))).isSome = true) := by
    rintro ⟨hq, hs⟩
    rw [if_pos hq] at hn
    simp [hn] at hs
  simp only [deviceInstr, hd, if_true, runInstr, hr, hn, h1, h2, Bool.or_false, if_false, issueNew, hpc, h4, hen, hroom,
    hhead, Bool.false_eq_true]
  simp only [kxOf]
  generalize hb : body s _ _ = b
  have hb' : body s (s.issuing t r opc) (s.seen t r k opc w) = b := hb
  rw [hb']
  obtain ⟨s', a⟩ := b
  cases a <;> rfl

/-- The same for an instruction that acts on its own tile. -/
theorem tileInstr_issue {i : Instr} {body : Tile → Kx → Act} (h : s.canIssue t opc w x = true)
    (hr : (s.tile t).running = some (r, k)) :
    tileInstr s t i opc w x body =
      .next (finishIssue s t r opc w (s.entry t r i opc w x) (body (s.issuing t r opc) (s.seen t r k opc w))) :=
  deviceInstr_issue h hr

/-- An instruction whose body completes goes on after it. -/
theorem tileInstr_done {i : Instr} {body : Tile → Kx → Act} {tl : Tile} (h : s.canIssue t opc w x = true)
    (hr : (s.tile t).running = some (r, k)) (hb : body (s.issuing t r opc) (s.seen t r k opc w) = .done tl) :
    tileInstr s t i opc w x body = .next (s.went t r opc w tl) := by
  rw [tileInstr_issue h hr, hb]; rfl

/-- An instruction whose body leaves the program counter to itself. -/
theorem tileInstr_stay {i : Instr} {body : Tile → Kx → Act} {tl : Tile} (h : s.canIssue t opc w x = true)
    (hr : (s.tile t).running = some (r, k)) (hb : body (s.issuing t r opc) (s.seen t r k opc w) = .stay tl) :
    tileInstr s t i opc w x body = .next (s.setTile t tl) := by
  rw [tileInstr_issue h hr, hb]; rfl

/-- An instruction whose body aborts the task. -/
theorem tileInstr_abort {i : Instr} {body : Tile → Kx → Act} {tl : Tile} {c d : Nat} (h : s.canIssue t opc w x = true)
    (hr : (s.tile t).running = some (r, k)) (hb : body (s.issuing t r opc) (s.seen t r k opc w) = .abort tl c d) :
    tileInstr s t i opc w x body = .next (abortTile s t tl c d) := by
  rw [tileInstr_issue h hr, hb]; rfl

/-! ### Access to the cistern -/

theorem cisRead_readable {tl : Tile} {k : LKernel} {off n : Nat} (h : readable tl k off n = true) :
    cisRead tl k off n = .ok (tl.cisBytes (k.cisOff + off) n) := by
  simp only [readable, Bool.and_eq_true, decide_eq_true_eq, beq_iff_eq] at h
  simp [cisRead, inAlloc, need, h.1, h.2]
  rfl

theorem cisWrite_inside {tl : Tile} {k : LKernel} {off : Nat} {bs : List Byte} (h : off + bs.length ≤ k.cisBytes) :
    cisWrite tl k off bs = .ok (tl.cisPut (k.cisOff + off) bs) := by
  simp [cisWrite, inAlloc, need, h]
  rfl

theorem writeRows_inside {k : LKernel} {sts : List (Nat × List Byte)} {tl : Tile} (h : inside k sts = true) :
    writeRows k sts tl = (storeAll k sts tl, none) := by
  induction sts generalizing tl with
  | nil => rfl
  | cons p sts ih =>
    obtain ⟨off, bs⟩ := p
    simp only [inside, List.all_cons, Bool.and_eq_true, decide_eq_true_eq] at h
    simp only [writeRows, cisWrite_inside h.1]
    exact ih h.2

/-- A list of reads that all succeed gives the list of what they read. -/
theorem mapM_ok {α β : Type} {f : α → Ex β} {g : α → β} {l : List α} (h : ∀ a ∈ l, f a = .ok (g a)) :
    l.mapM f = .ok (l.map g) := by
  induction l with
  | nil => rfl
  | cons a l ih =>
    rw [List.mapM_cons, h a (by simp), ih fun b hb => h b (by simp [hb])]
    rfl

end Sys2Proof.Machine
end

