-- ==== Sys2Proof/Laws/Sparse.lean ====
section
/-! SUPPORT. The laws of sparse storage: a read after a write, and the canonical form that every write keeps. -/

namespace Sys2Proof.Machine

variable {α : Type} [DecidableEq α] (d : Nat → α)

omit [DecidableEq α] in
@[simp] theorem spGet_nil (k : Nat) : spGet d ([] : Sparse α) k = d k := rfl

@[simp] theorem spWf_nil : spWf d ([] : Sparse α) = true := rfl

theorem spWfFrom_cons {lo j : Nat} {v : α} {m : Sparse α} :
    spWfFrom d lo ((j, v) :: m) = true ↔ lo ≤ j ∧ v ≠ d j ∧ spWfFrom d (j + 1) m = true := by
  simp [spWfFrom, and_assoc]

/-- A lower bound of the listed indices may be lowered. -/
theorem spWfFrom_mono {lo lo' : Nat} {m : Sparse α} (h : spWfFrom d lo m = true) (hl : lo' ≤ lo) :
    spWfFrom d lo' m = true := by
  cases m with
  | nil => rfl
  | cons e m =>
    obtain ⟨j, v⟩ := e
    rw [spWfFrom_cons] at h ⊢
    exact ⟨hl.trans h.1, h.2⟩

/-- Below every listed index a read gives the default. -/
theorem spGet_below {lo : Nat} {m : Sparse α} (h : spWfFrom d lo m = true) {k : Nat} (hk : k < lo) :
    spGet d m k = d k := by
  cases m with
  | nil => rfl
  | cons e m =>
    obtain ⟨j, v⟩ := e
    rw [spWfFrom_cons] at h
    have h1 : k ≠ j := by omega
    have h2 : k < j := by omega
    simp [spGet, h1, h2]

theorem spWfFrom_erase {lo : Nat} {m : Sparse α} (h : spWfFrom d lo m = true) (k : Nat) :
    spWfFrom d lo (spErase m k) = true := by
  induction m generalizing lo with
  | nil => rfl
  | cons e m ih =>
    obtain ⟨j, v⟩ := e
    have h' := (spWfFrom_cons d).1 h
    simp only [spErase]
    split
    · exact spWfFrom_mono d h'.2.2 (by omega)
    · split
      · exact h
      · rw [spWfFrom_cons]
        exact ⟨h'.1, h'.2.1, ih h'.2.2⟩

theorem spWfFrom_insert {lo : Nat} {m : Sparse α} (h : spWfFrom d lo m = true) {k : Nat} (hk : lo ≤ k) {x : α} (hx : x ≠ d k) :
    spWfFrom d lo (spInsert m k x) = true := by
  induction m generalizing lo with
  | nil => simp [spInsert, spWfFrom, hk, hx]
  | cons e m ih =>
    obtain ⟨j, v⟩ := e
    have h' := (spWfFrom_cons d).1 h
    simp only [spInsert]
    split
    · next he => subst he; exact (spWfFrom_cons d).2 ⟨hk, hx, h'.2.2⟩
    · split
      · next hlt => exact (spWfFrom_cons d).2 ⟨hk, hx, (spWfFrom_cons d).2 ⟨by omega, h'.2⟩⟩
      · next hne hnlt => exact (spWfFrom_cons d).2 ⟨h'.1, h'.2.1, ih h'.2.2 (by omega)⟩

/-- A write keeps the canonical form. -/
theorem spWf_set {m : Sparse α} (h : spWf d m = true) (k : Nat) (v : α) : spWf d (spSet d m k v) = true := by
  unfold spSet
  split
  · exact spWfFrom_erase d h k
  · next hv => exact spWfFrom_insert d h (Nat.zero_le k) hv

theorem spWf_mod {m : Sparse α} (h : spWf d m = true) (k : Nat) (f : α → α) : spWf d (spMod d m k f) = true :=
  spWf_set d h k _

/-- Consecutive writes keep the canonical form. -/
theorem spWf_write {m : Sparse α} (h : spWf d m = true) (k : Nat) (vs : List α) : spWf d (spWrite d m k vs) = true := by
  induction vs generalizing m k with
  | nil => exact h
  | cons v vs ih => exact ih (spWf_set d h k v) (k + 1)

theorem spGet_erase_same {lo : Nat} {m : Sparse α} (h : spWfFrom d lo m = true) (k : Nat) : spGet d (spErase m k) k = d k := by
  induction m generalizing lo with
  | nil => rfl
  | cons e m ih =>
    obtain ⟨j, v⟩ := e
    have h' := (spWfFrom_cons d).1 h
    simp only [spErase]
    split
    · next he => subst he; exact spGet_below d h'.2.2 (by omega)
    · split
      · next hne hlt => simp [spGet, hne, hlt]
      · next hne hnlt => simpa [spGet, hne, hnlt] using ih h'.2.2

theorem spGet_erase_other {lo : Nat} {m : Sparse α} (h : spWfFrom d lo m = true) {k i : Nat} (hi : i ≠ k) :
    spGet d (spErase m k) i = spGet d m i := by
  induction m generalizing lo with
  | nil => rfl
  | cons e m ih =>
    obtain ⟨j, v⟩ := e
    have h' := (spWfFrom_cons d).1 h
    simp only [spErase]
    split
    · next he =>
      subst he
      by_cases hlt : i < k
      · rw [spGet_below d h'.2.2 (by omega)]; simp [spGet, hi, hlt]
      · simp [spGet, hi, hlt]
    · split
      · rfl
      · simp only [spGet]; split
        · rfl
        · split
          · rfl
          · exact ih h'.2.2

omit [DecidableEq α] in
theorem spGet_insert_same (m : Sparse α) (k : Nat) (x : α) : spGet d (spInsert m k x) k = x := by
  induction m with
  | nil => simp [spInsert, spGet]
  | cons e m ih =>
    obtain ⟨j, v⟩ := e
    simp only [spInsert]
    split
    · simp [spGet]
    · split
      · simp [spGet]
      · next hne hnlt => simpa [spGet, hne, hnlt] using ih

theorem spGet_insert_other {lo : Nat} {m : Sparse α} (h : spWfFrom d lo m = true) {k i : Nat} (hi : i ≠ k) (x : α) :
    spGet d (spInsert m k x) i = spGet d m i := by
  induction m generalizing lo with
  | nil => by_cases hlt : i < k <;> simp [spInsert, spGet, hi, hlt]
  | cons e m ih =>
    obtain ⟨j, v⟩ := e
    have h' := (spWfFrom_cons d).1 h
    simp only [spInsert]
    split
    · next he => subst he; simp [spGet, hi]
    · split
      · next hne hlt =>
        by_cases hik : i < k
        · have h1 : i ≠ j := by omega
          have h2 : i < j := by omega
          simp [spGet, hi, hik, h1, h2]
        · simp [spGet, hi, hik]
      · simp only [spGet]; split
        · rfl
        · split
          · rfl
          · exact ih h'.2.2

/-- A read after a write of the same index gives the value written. -/
theorem spGet_set_same {m : Sparse α} (h : spWf d m = true) (k : Nat) (v : α) : spGet d (spSet d m k v) k = v := by
  unfold spSet
  split
  · next hv => rw [spGet_erase_same d h, hv]
  · exact spGet_insert_same d m k v

/-- A write leaves every other index alone. -/
theorem spGet_set_other {m : Sparse α} (h : spWf d m = true) {k i : Nat} (hi : i ≠ k) (v : α) :
    spGet d (spSet d m k v) i = spGet d m i := by
  unfold spSet
  split
  · exact spGet_erase_other d h hi
  · exact spGet_insert_other d h hi v

theorem spGet_set {m : Sparse α} (h : spWf d m = true) (k i : Nat) (v : α) :
    spGet d (spSet d m k v) i = if i = k then v else spGet d m i := by
  split
  · next hi => subst hi; exact spGet_set_same d h i v
  · next hi => exact spGet_set_other d h hi v

/-- A read of an index outside a stretch of writes is as before. -/
theorem spGet_write_outside {m : Sparse α} (h : spWf d m = true) (k : Nat) (vs : List α) {i : Nat}
    (hi : i < k ∨ k + vs.length ≤ i) : spGet d (spWrite d m k vs) i = spGet d m i := by
  induction vs generalizing m k with
  | nil => rfl
  | cons v vs ih =>
    simp only [List.length_cons] at hi
    have h1 : i < k + 1 ∨ k + 1 + vs.length ≤ i := by omega
    have h2 : i ≠ k := by omega
    rw [spWrite, ih (spWf_set d h k v) (k + 1) h1, spGet_set_other d h h2]

/-- A read inside a stretch of writes gives what was written there. -/
theorem spGet_write_inside {m : Sparse α} (h : spWf d m = true) (k : Nat) (vs : List α) {j : Nat} (hj : j < vs.length) :
    spGet d (spWrite d m k vs) (k + j) = vs[j] := by
  induction vs generalizing m k j with
  | nil => simp at hj
  | cons v vs ih =>
    rw [spWrite]
    cases j with
    | zero =>
      rw [spGet_write_outside d (spWf_set d h k v) (k + 1) vs (by omega)]
      exact spGet_set_same d h k v
    | succ j =>
      have := ih (spWf_set d h k v) (k + 1) (j := j) (by simpa using hj)
      rw [show k + (j + 1) = k + 1 + j by omega, this]; rfl

@[simp] theorem spRead_length {β : Type} (e : Nat → β) (m : Sparse β) (k n : Nat) : (spRead e m k n).length = n := by
  induction n generalizing k with
  | zero => rfl
  | succ n ih => simp [spRead, ih]

end Sys2Proof.Machine
end

