-- ==== Sys2Proof/Tests/Slice0.lean ====
section
/-! SUPPORT. Tests of the model: what the well-formedness checks refuse, a few values fixed by the spec, and, for every
obligation with hypotheses, states and operands that meet the hypotheses of each of its clauses (`witness_<obligation>`). -/

set_option linter.unusedVariables false
set_option Elab.async false
open Sys2Proof Sys2Proof.Machine
namespace Sys2Proof.Tests

/-- The state that an operation leaves. -/
def aft {α : Type} (m : Dev α) (s : State) : State := (m.go s).2

/-- Whether an operation answers at all. -/
def runs {α : Type} (m : Dev α) (s : State) : Bool :=
  match (m.go s).1 with
  | .ok _ => true
  | .error _ => false

/-- What an operation answers. -/
def got {α : Type} [Inhabited α] (m : Dev α) (s : State) : α :=
  match (m.go s).1 with
  | .ok a => a
  | .error _ => default

/-- The next state of an outcome. -/
def nx (o : Host.Outcome State Fault Refusal) : Option State :=
  match o with
  | .next s => some s
  | _ => none

/-- A kernel on tile 0, with 64 KiB of the cistern from 4,096. -/
def wk : LKernel :=
  { handle := 1, kernelId := 5, accMask := 15, accKeep := 0, flags := 3, channels := 4, codeOff := 0, codeBytes := 4096, entry := 0
    cisOff := 4096, cisBytes := 65536, sfuMap := [3, 4], slcMap := [0, 1], spkMap := [], kvpMap := [0], group := 1 }

/-- It runs in context 0. -/
def wr : Run :=
  { launch := 1, ctx := 0, handle := 1, t0 := 0, ended := false, status := 0, detail := 0, exc := 0, ports := 0, effects := false
    sel := 0, jmode := 0, jstep := 0 }

/-- A tile that runs it, its context changed by `f`. -/
def wt (f : Ctx → Ctx := id) : Tile :=
  { Tile.reset with ctxs := [(0, f { Ctx.reset with kernels := [wk] })], run := some wr, act := some 0 }

/-- The state after reset, but for tile 0. -/
def ws (tl : Tile) : State := State.reset.setTile 0 tl

/-- An instruction's fields; predicate register `pr`. -/
def wd (fn dst sa sb sc imm : Nat) (pr : Nat := 0) : IWord :=
  { fn := .ofNat 4 fn, pr := .ofNat 3 pr, pn := false, dst := .ofNat 6 dst, sa := .ofNat 6 sa, sb := .ofNat 6 sb, sc := .ofNat 6 sc
    imm := .ofNat 24 imm }

/-- A tensor descriptor: FMT, SPACE, one matrix of rows and columns, the first element, the scales and the row pitch. -/
def wtd (fmt sp rows cols elem scale pitch : Nat) : TDesc :=
  BitVec.ofNat 512 (elem + 2 ^ 64 * scale + 2 ^ 256 * (cols + 2 ^ 32 * rows) + 2 ^ 320 * (fmt + 2 ^ 12 * sp) +
    2 ^ 384 * (pitch + 2 ^ 40))

/-- Whether an answer is one. -/
def isOk {ε α : Type} (r : Except ε α) : Bool :=
  match r with
  | .ok _ => true
  | .error _ => false

/-- The value of an answer. -/
def val {ε α : Type} [Inhabited α] (r : Except ε α) : α :=
  match r with
  | .ok a => a
  | .error _ => default

/-- `n` bytes of which those at the offsets named hold little-endian values. -/
def blob (n : Nat) (fs : List (Nat × Nat)) : List Byte := leBytes n (fs.foldl (fun v f => v + f.2 * 256 ^ f.1) 0)

/-- Bytes from an address, canonical. -/
def bytesAt (a : Nat) (bs : List Byte) : List (Nat × Byte) :=
  (bs.zipIdx.map fun p => (a + p.2, p.1)).filter fun p => p.2 != 0

/-- A state with registers at values. -/
def put (s : State) (l : List (Nat × Nat)) : State := l.foldl (fun s p => s.putAt p.1 p.2) s

/-- A part in full service whose tiles, first granule and first hubs belong to partition 0, with address space 1 mapping the first
128 MiB to themselves, and queue 5 (target `tgt`) with rings at 0x10000 and 0x20000. -/
def wb (tgt : Nat := 0) : State :=
  put { State.reset with mem := bytesAt 0 (leBytes 8 0x1001) ++ bytesAt 0x1000 [0x1B], pins := { State.reset.pins with cold := false } }
    [(0x18, 0xFF000000), (partTiles 0, 2 ^ State.reset.nTiles - 1), (granReg 0, 2 ^ 31), (asReg 1 0, 2 ^ 63),
     (qReg 5 0, 2 ^ 63 + 2 ^ 54 + tgt * 2 ^ 50 + 4 * 2 ^ 35), (qReg 5 8, 2 ^ 64 - 1), (qReg 5 0x10, 0x10000), (qReg 5 0x18, 0x20000)]

/-- The same part with a command in queue 5. -/
def wq (tgt : Nat) (c : List (Nat × Nat)) : State :=
  (wb tgt).setCq 5 { cmds := [{ seqno := 7, bytes := blob 64 c }], owed := [(7, none)], unrep := 0, since := 0, posted := [] }

/-- Queue 0's management and the ditchrider as origins of register writes. -/
def wdr : Origin := { cls := 0, part := 0, port := 0, id := 0 }

/-- A flume descriptor (R259): one dimension of 32 bf16 values into two slots of 1 × 32. -/
def wfd (dir : Nat) : List Byte :=
  blob 256 [(1, dir), (2, 1), (4, 9), (5, 9), (7, 2), (8, 1), (0xC, 32), (0x14, 64), (0x18, 1), (0x20, 0x10000), (0x50, 0x20000), (0x60, 31),
    (0x68, 2), (0x70, 32), (0xE4, 0xFFFFFFFF)]

/-- Channel 1 of a tile, set up by that descriptor. -/
def wch (dir st : Nat) : Chan := { Chan.none with st := st, desc := wfd dir, ring := (fdescOf (wfd dir)).ring }

/-- A flight of tag 4. -/
def wfl (chan : Nat) (write : Bool) (leaf : Leaf) (ans : Option (Nat × List Byte)) : Flight :=
  { tag := 4, chan := chan, plane := 0, pos := 0, len := 8, write := write, addr := 0x10000, leaf := leaf, hint := 0, data := [], t0 := 0
    ans := ans }

/-- A snapshot of frame 1 none of whose sectors is read. -/
def wsn : Snap :=
  { part := 0, num := 0, queue := 5, seqno := 7, restore := false, ports := 0, peer := 0, id := 0, step := 0, image := 0, mapOut := 0
    set := [(1, 0)], begun := true, cut := [(1, 0xFFFF)], todo := [(1, 0xFFFF)], flying := [], acked := 0, err := 0 }

/-- A kernel image: its header and one KEND. -/
def wimg : List Byte :=
  let code := leBytes 8 (kzWord 0x0C false (wd 0 0 0 0 0 0)).toNat
  let h := blob 124 [(0, 0x4B5A4B48), (4, 1), (6, 1), (8, 8), (0x10, 4096), (0x20, 1), (0x21, 1), (0x24, crc32c code)]
  h ++ leBytes 4 (crc32c h) ++ code

/-- A launch of the kernel of tile 0. -/
def wl (phase timeout : Nat) : Launch :=
  { id := 1, queue := 5, seqno := 7, part := 0, ctx := 0, handle := 1, mask := 1, args := 0x50000, tag := 9, timeout := timeout
    phase := phase, sels := [], flush := [], t0 := 0 }

/-- Tile 0 with context 0 enabled and bound to address space 1, running a kernel or only holding it. -/
def wtb (run : Option Run) : Tile := { wt with regs := [(0, 0x81), (0x1000, 0x8000000000C80000)], run := run, act := run.map Run.ctx }

/-- Communicator 0 in service for partition 0, in address space 1, with a tile mask and stages. -/
def wcom (c : SlcComm) (s : State) : State := { put s [(commReg 0, 2 ^ 63 + 2 ^ 54)] with comms := [(0, c)] }

/-- A stage of two members, with an algorithm; this package has rank `r`. -/
def wst (alg r : Nat) : SlcStage := { alg := alg, ports := 1, n := 2, rank := r, members := [2 ^ 16, 2 ^ 16 + 1] }

/-- A tray of two packages: broadcast or reduction. -/
def wcm (r : Nat) : SlcComm := { mask := 1, stages := [wst 2 r] }

/-- A descriptor of a broadcast of 32 fp32 elements, TAG 7 and STEP 5: stages, flags, source and destination. -/
def wsd (stages flags src dst : Nat) (ex : List (Nat × Nat) := []) : List Byte :=
  blob 128 (ex ++ [(0, 3), (2, 8), (3, 8), (4, flags), (5, stages), (0xC, 7), (0x10, 32), (0x18, 5), (0x20, src), (0x38, dst)])

/-- A post of tile 0 in slot 0. -/
def wsp (bs : List Byte) : SlcPost :=
  { who := .tile 0, slot := 0, ctx := 0, sel := 0, cisOff := 4096, launch := 1, handle := 1, jmode := 0, jstep := 0, seqno := 0
    desc := bs, t0 := 0, ended := false, status := 0, detail := 0, flags := 0, got := [], taken := false, filled := 0, since := none
    kept := false }

/-- An operation of TAG 7 and STEP 5 with posts. -/
def wso (ps : List SlcPost) : SlcOp :=
  { comm := 0, tag := 7, step := 5, desc := (ps.head?.map fun p => p.desc).getD [], posts := ps, terms := [], sent := []
    stopped := false, added := 0, late := 0 }

/-- A part whose tile 0, of partition 0, runs a kernel with a descriptor at its start. -/
def wtc (bs : List Byte) : State :=
  put { State.reset with tiles := [(0, { wt with cis := bytesAt 4096 bs })] } [(partTiles 0, 1)]

/-- The payload of a message after a header. -/
def wmsg (fs : List (Nat × Nat)) (n : Nat) : List Byte := blob n fs

/-- Leat port 0, changed. -/
def wlp (f : LPort → LPort) : State := { wb with lports := [(0, f .none)] }

/-- A fold over numbers that computes each step before the next. -/
def strictFold {α : Type} (f : Nat → α → Nat) : List α → Nat → Nat
  | [], c => c
  | a :: l, c => Nat.rec (strictFold f l 0) (fun n _ => strictFold f l (n + 1)) (f c a)

theorem foldl_eq_strictFold {α : Type} (f : Nat → α → Nat) (l : List α) (c : Nat) : l.foldl f c = strictFold f l c := by
  induction l generalizing c with
  | nil => rfl
  | cons a l ih => simp only [List.foldl_cons, strictFold, ih]; cases f c a <;> rfl

/-- A step of a CRC-32C over a bit, without a case split. -/
def crcMul (c : Nat) : Nat := Nat.xor (c / 2) (c % 2 * 0x82F63B78)

theorem crcBit_eq_crcMul (c : Nat) : crcBit c = crcMul c := by
  unfold crcBit crcMul
  rcases Nat.mod_two_eq_zero_or_one c with h | h <;> simp [h]

/-- A number used once it is computed. -/
def force (c : Nat) (f : Nat → Nat) : Nat := Nat.rec (f 0) (fun n _ => f (n + 1)) c

theorem force_eq (c : Nat) (f : Nat → Nat) : force c f = f c := by cases c <;> rfl

/-- A step of a CRC-32C over a byte. -/
def crcStep (c : Nat) (b : Byte) : Nat :=
  force (Nat.xor c b.toNat) fun c => force (crcMul c) fun c => force (crcMul c) fun c => force (crcMul c) fun c =>
    force (crcMul c) fun c => force (crcMul c) fun c => force (crcMul c) fun c => force (crcMul c) crcMul

/-- CRC-32C of bytes, computed step by step. -/
def crcStrict (bs : List Byte) : Nat := Nat.xor (strictFold crcStep bs (2 ^ 32 - 1)) (2 ^ 32 - 1)

theorem crc32c_eq_crcStrict (bs : List Byte) : crc32c bs = crcStrict bs := by
  have h : (fun (c : Nat) (b : Byte) => crcByte c b.toNat) = crcStep := by
    funext c b
    simp only [crcStep, force_eq, ← crcBit_eq_crcMul]
    rfl
  simp only [crc32c, crcStrict, h, foldl_eq_strictFold]

/-- A flit with its slots and its trailer. -/
def wflit (slots : List Byte) (trailer : Nat) : List Byte := fillSlots slots ++ leBytes 10 trailer

/-- A flit of each kind: DATA with a read request, NULL, and the control flits of CTYPE 1, 4, 5, 6 and 7. -/
def wfData : List Byte := wflit (blob 64 [(0, 0x20)]) 742556038991212846252033
def wfNull : List Byte := wflit [] 880394851311528376795136
def wfCtl (k : Nat) : List Byte :=
  wflit (blob 64 [(0, k)]) ([0, 603582767391487897370626, 0, 0, 118805882533857202274306, 33552279405821954097154,
    176151537269756454240258, 280973029703037281632258].getD k 0)

/-- An NT4-M in full service whose media ring 0 belongs to partition 0. -/
def wm (f : State → State := id) : State := f (put { wb with variant := 1 } [(qReg 8192 0, 2 ^ 63 + 2 ^ 54 + 4 * 2 ^ 40),
  (qReg 8192 0x10, 0x60000), (qReg 8192 0x18, 0x61000)])

/-- A job of media ring 0, and what MED_OPEN asks for: a direction, with a constant QP. -/
def wmj (fs : List (Nat × Nat)) (res : Option MedRes := none) : MedJob := { ring := 0, idx := 0, bytes := blob 128 fs, t0 := 0, res := res }
def wmo (dir : Nat) : List (Nat × Nat) :=
  [(0, 0x70), (0x19, dir), (0x1A, if dir = 1 then 100 else 66), (0x1B, 40), (0x1C, 8), (0x1D, 1), (0x20, 128), (0x22, 128), (0x24, 30), (0x28, 1),
   (0x38, 2 ^ 40)]

/-- A session of that direction. -/
def wms (dir : Nat) : Sess :=
  { num := 3, ring := 0, die := 0, eng := 2 * dir, desc := blob 128 (wmo dir), failed := false, shown := 0, ready := [], coded := 0
    full := 0, seq := 0, fall := none }

/-- A picture of 2 × 2 samples, its unit, its code, and a plane record. -/
def wmf : MedFrame :=
  { order := 5, flags := 1, missRef := 0, missSlot := 0, missOrder := 0, w := 2, h := 2, window := (0, 0, 2, 2), y := [1, 2, 3, 4], u := [5], v := [6] }
def wmu : MedUnit := { bytes := 1, frames := [wmf], conceal := 1, resync := false, samples := 4 }
def wmc : MedCode := { order := 5, rap := true, first := [1, 2, 3], again := [1], skip := [], slices := [], rcSkip := false, samples := 4 }
def wmp : List Byte := blob 64 [(0, 0x40000), (8, 0x41000), (0x10, 0x42000), (0x18, 64), (0x1C, 64)]

/-- What a start finds in a part without a fault. -/
def wfd0 : Findings :=
  { testLow := false, fuseOk := true, ports := 1, deadDies := 0, vrDead := 0, badSites := 0, hubOp := [3, 3, 3, 3], badStacks := 0
    weakRows := [], badChans := 0, boardMts := 9600, boardGib := 0, pairOk := true }

/-- Flash bytes from an address, canonical. -/
def flashAt (a : Nat) (bs : List Byte) : List (Nat × Byte) :=
  (bs.zipIdx.map fun p => (a + p.2, p.1)).filter fun p => p.2 != 0xFF

/-- A manifest of type `ty` for stepping 0xB0 that knows the types 1 to 4 at ABI 7, as flash bytes from an address. -/
def manifest (a ty : Nat) : List (Nat × Byte) :=
  flashAt a (blob 18 [(0, 0x54464E4D), (4, ty), (5, 1), (6, 4), (8, 0x100), (0xC, 7), (0x10, 0xB0)]) ++
    flashAt (a + 0x20) (blob 16 [(0, 0x1000007), (4, 0x2000007), (8, 0x3000007), (12, 0x4000007)])

/-- A flash whose first image bank holds the images of these types. -/
def flashOf (tys : List Nat) : List (Nat × Byte) :=
  flashAt 0x400000 (blob 5 [(0, 0x4B4E4142), (4, tys.length)]) ++
    flashAt 0x400040 (tys.zipIdx.flatMap fun t => blob 16 [(8, 2 ^ 64 - 1), (0, 4096 * (1 + t.2)), (4, 272)]) ++
    tys.zipIdx.flatMap fun t => manifest (0x401000 + 4096 * t.2) t.1

/-- A part in cold reset with those images in its flash. -/
def wboot (tys : List Nat) : State := { State.reset with flash := flashOf tys }

/-! ### What the checks refuse -/

/-- An instruction of a tile that no part has. -/
theorem test_illformed_number : Instr.wf (.alu 64 (wd 0 1 2 3 0 0)) = false ∧ Instr.wf (.alu 63 (wd 0 1 2 3 0 0)) = true := by
  decide +kernel

/-- A field that the opcode does not use is not 0 (R83). -/
theorem test_illformed_word : Instr.wf (.alu 0 (wd 0 1 2 3 1 0)) = false := by decide +kernel

/-- The FN of another row (opcode 0x72 is SPK.POST with FN 0). -/
theorem test_illformed_fn : Check.ok (.sub 0 (wd 1 0 0 0 0 0)) = false ∧ Check.ok (.sub 1 (wd 1 0 0 0 0 0)) = true := by
  decide +kernel

/-- A writer of a class that the change log does not have (R699). -/
theorem test_illformed_origin : Instr.wf (.leaNodeWrite 0 { wdr with cls := 5 }) = false ∧ Instr.wf (.leaNodeWrite 0 wdr) = true := by
  decide +kernel

/-- A hub request over the end of its line (R285). -/
theorem test_illformed_line :
    let r : HubReq := { who := .tile 0, part := 0, write := false, addr := 255, len := 2, hint := 0, pgHint := 0, data := [] }
    Instr.wf (.hubReadRequest r) = false ∧ Instr.wf (.hubReadRequest { r with len := 1 }) = true := by decide +kernel

/-! ### Values fixed by the spec or by a standard that it names -/

/-- The shifts take their count modulo 64 (R752). -/
theorem test_shift_count : aluOp 5 1 65 = 2 ∧ aluOp 6 8 66 = 2 ∧ aluOp 7 (-8) 66 = -2 := by decide +kernel

/-- The high half of an unsigned product. -/
theorem test_mulhi : aluOp 9 (2 ^ 63 : W64) 4 = 2 := by decide +kernel

/-- The check value of CRC-32C: that of the nine ASCII digits. -/
theorem test_crc32c : crc32c [0x31, 0x32, 0x33, 0x34, 0x35, 0x36, 0x37, 0x38, 0x39] = 0xE3069283 := by decide +kernel

/-- An addition of two registers, issued from the front of the queue. -/
theorem test_step_alu :
    let s := ws (wt fun c => { c with s := [(1, 5), (2, 7)] })
    ((nx (step { s with pending := [.alu 0 (wd 0 3 1 2 0 0)] })).map fun s' =>
      ((((s'.tile 0).ctx 0).sGet 3).toNat, ((s'.tile 0).ctx 0).pc, s'.pending.length)) = some (12, 8, 0) := by decide +kernel

/-- The spec's example of encoding a weight block as MXFP4 ("Number Formats", elements in units of 2^-10). -/
theorem test_mxfp4_example :
    let c : List Int := [24, -20, 16, -12, 10, -8, 6, 320, -4, 4, 3, -2, 1, -1, 0, 12, -16, 8, -6, -144, 4, -2, 2, 8, -8, 4, -4, 12, -12, 6,
      -24, 2]
    let p : QProf := { escSlots := 1, escEn := true, errBits := 2, uflMax := 4, outGap := 2, outlEn := true, rnd := 0, fmt := 4 }
    let e := encodeBlock p (fun _ => 0) (c.map fun i => Ext.fin (Dy.scaled i (-10)))
    e.scale = 0x77 ∧ e.record = 0x0CEF84273EA0 ∧ e.outl = 2 ∧ e.ufl = 2 ∧ e.sat = 0 ∧ e.trigger = false ∧
      (packBlock 4 e.codes).head? = some 0xE7 ∧ (packBlock 4 e.codes)[3]? = some 0x73 := by decide +kernel

/-- The spec's example of stochastic rounding: 0x3F804000 with a draw of 40,000 stays 1.0 in bf16, and rounds up from 49,152 on. -/
theorem test_stochastic_example :
    let x := match fp32.dec 0x3F804000 with
      | .fin d => d
      | _ => Dy.zero
    (bf16.round .sr false 40000 x).bits = 0x3F80 ∧ (bf16.round .sr false 49151 x).bits = 0x3F80 ∧
      (bf16.round .sr false 49152 x).bits = 0x3F81 := by decide +kernel

/-- The spec's example of locating DPA 0x162A40 on NT4-M ("One Address Range over Three Tiers"). -/
theorem test_location_example :
    let s := { State.reset with variant := 4 }
    s.sites = [0, 3, 6, 9, 1, 4, 7, 10, 2] ∧ s.hubOf 0x162A40 = 0 ∧ s.localHbm 0x162A40 = 0x72A40 ∧ s.hbmLoc 0x162A40 = (1, 35, 9, 0, 0) := by
  decide +kernel

/-- With no command waiting a nanosecond passes, but not while cold reset is asserted (the model's choice, log entry 3). -/
theorem test_step_idle :
    (nx (step State.reset)).map State.time = some 0 ∧
      (nx (step { State.reset with pins := { State.reset.pins with cold := false } })).map State.time = some 1 := by decide +kernel

/-- No word spells a command. -/
theorem test_no_words : decodeTableWord 64 0 = none ∧ (State.reset.withFetchWord 64 0).pending = [] := by decide +kernel

/-! ### States that meet the hypotheses of the obligations -/

/-- States and operands that meet the hypotheses of `ScalarResults`, clause by clause. -/
theorem witness_ScalarResults :
   (let s := ws (wt)
    let t := 0
    (let r : Run := wr
     let k : LKernel := wk
     (let w : IWord := wd 0 0 0 0 0 0
      decide ((s.tile t).running = some (r, k) ∧ s.canIssue t 0x00 w 0 = true)) &&
     (let w : IWord := wd 7 1 2 3 0 0
      decide ((s.tile t).running = some (r, k) ∧ s.canIssue t 0x01 w 0 = true)) &&
     (let w : IWord := wd 5 1 2 0 0 0xFFFFFF
      decide ((s.tile t).running = some (r, k) ∧ s.canIssue t 0x02 w 0 = true)) &&
     (let w : IWord := wd 0 15 2 3 0 9
      decide ((s.tile t).running = some (r, k) ∧ s.canIssue t 0x12 w 0 = true)) &&
     (let w : IWord := wd 1 31 15 0 0 0
      decide ((s.tile t).running = some (r, k) ∧ s.canIssue t 0x13 w 0 = true)) &&
     (let w : IWord := wd 7 1 3 0 0 0
      decide ((s.tile t).running = some (r, k) ∧ s.canIssue t 0x17 w 0 = true)) &&
     (let w : IWord := wd 0 1 0 0 0 0x30
      decide ((s.tile t).running = some (r, k) ∧ s.canIssue t 0x0D w 0 = true)) &&
     (let w : IWord := wd 5 1 1 2 0 0
      decide ((s.tile t).running = some (r, k) ∧ s.canIssue t 0x04 w 0 = true)) &&
     (let w : IWord := wd 0 0 1 2 0 0
      decide ((s.tile t).running = some (r, k) ∧ s.canIssue t 0x05 w 0 = true)) &&
     (let w : IWord := wd 7 3 1 0 0 0
      decide ((s.tile t).running = some (r, k) ∧ s.canIssue t 0x16 w 0 = true)) &&
     (let w : IWord := wd 0 0 1 0 0 0x40
      decide ((s.tile t).running = some (r, k) ∧ s.canIssue t 0x0E w 0 = true)) &&
     (let w : IWord := wd 1 0 0 0 0 3
      decide ((s.tile t).running = some (r, k) ∧ s.canIssue t 0x23 w 0 = true)) &&
     (let w : IWord := wd 3 0 0 0 0 0
      decide ((s.tile t).running = some (r, k) ∧ s.canIssue t 0x24 w 0 = true)) &&
     (let w : IWord := wd 3 1 2 3 4 0xE00000
      decide ((s.tile t).running = some (r, k) ∧ s.canIssue t 0x09 w 0 = true))) &&
    (let x : W64 := (0 : W64)
     let r : Run := wr
     let k : LKernel := wk
     let w : IWord := wd 1 15 0 0 0 0
     decide ((s.tile t).running = some (r, k) ∧ s.canIssue t 0x03 w x = true))) = true := by decide +kernel

/-- States and operands that meet the hypotheses of `TileInstructionsStayInTheirLaunch`, clause by clause. -/
theorem witness_TileInstructionsStayInTheirLaunch :
   (let s := ws (wt)
    let t := 0
    let w : IWord := wd 7 1 2 3 0 0
    let x : W64 := (0 : W64)
    let s' := (nx (exec (.alu t w) s)).getD s
    decide (spWf dTile s.tiles = true) &&
    (let i := Instr.alu t w
     decide (i ∈ [Instr.nop t w, .alu t w, .alui t w, .li t w x, .cmp t w, .pop t w, .br t w, .brr t w, .loop t w, .fpu t w, .waitq t w,
      .fence t w, .kend t w, .rdsr t w, .wrsr t w, .lds t w, .sts t w, .adda t w, .mova t w, .tdld t w, .tdst t w, .tdset t w,
      .tdget t w, .mmac t w x, .mzero t w, .mdrain t w x, .mpad t w, .mlen t w, .vop t w, .vopb t w, .vcmp t w, .vcvt t w,
      .vld t w, .vst t w, .vred t w, .qblk t w x, .vwid t w x, .vperm t w, .vbcast t w, .vacc t w, .sfn t w, .stab t w,
      .osmn t w, .osmx t w, .osme t w x, .osmcCorr t w, .osmcFin t w, .osmcMerge t w, .osmcSave t w, .osmcLoad t w,
      .osmvAccum t w x, .osmbProb t w x, .osmbDscore t w x, .upd t w x, .upds t w x, .slcw t w x, .mbxSend t w, .mbxCount t w,
      .tsig t w, .fcfg t w, .fgo t w, .fwait t w, .fstop t w, .frel t w, .crbRead t w x, .crbWrite t w x,
      .crbWriteImmediate t w x] ∧ nx (exec i s) = some s'))) = true := by decide +kernel

/-- States and operands that meet the hypotheses of `StoresChangeOnlyTheirBytes`, clause by clause. -/
theorem witness_StoresChangeOnlyTheirBytes :
   (let s := ws (wt)
    (let w : IWord := wd 3 0 1 2 0 0xFFF8
     let t := 0
     let r : Run := wr
     let k : LKernel := wk
     let s' := (nx (exec (.sts t w) s)).getD s
     decide ((s.tile t).running = some (r, k) ∧ spWf dTile s.tiles = true ∧ spWf dByte (s.tile t).cis = true) &&
     (let i := Instr.sts t w
      let opc := 0x11
      let n := 8
      let v := 0
      decide ((i, opc, n, v) ∈ [
        (Instr.sts t w, 0x11, 2 ^ fld w.fn.toNat 1 0, (((s.issuing t r 0x11).ctx r.ctx).sGet w.sb.toNat).toNat),
        (Instr.tdst t w, 0x15, 64, (((s.issuing t r 0x15).ctx r.ctx).tdGet w.sb.toNat).toNat)] ∧ s.canIssue t opc w 0 = true) &&
      (let a := (((s.issuing t r opc).ctx r.ctx).aGet w.sa.toNat + w.imm.signExtend 64).toNat
       decide (a + n ≤ k.cisBytes ∧ nx (exec i s) = some s')))) &&
    (let w : IWord := wd 0 0 1 2 0 0xFFC0
     let t := 0
     let r : Run := wr
     let k : LKernel := wk
     let s' := (nx (exec (.tdst t w) s)).getD s
     decide ((s.tile t).running = some (r, k) ∧ spWf dTile s.tiles = true ∧ spWf dByte (s.tile t).cis = true) &&
     (let i := Instr.tdst t w
      let opc := 0x15
      let n := 64
      let v := 0
      decide ((i, opc, n, v) ∈ [
        (Instr.sts t w, 0x11, 2 ^ fld w.fn.toNat 1 0, (((s.issuing t r 0x11).ctx r.ctx).sGet w.sb.toNat).toNat),
        (Instr.tdst t w, 0x15, 64, (((s.issuing t r 0x15).ctx r.ctx).tdGet w.sb.toNat).toNat)] ∧ s.canIssue t opc w 0 = true) &&
      (let a := (((s.issuing t r opc).ctx r.ctx).aGet w.sa.toNat + w.imm.signExtend 64).toNat
       decide (a + n ≤ k.cisBytes ∧ nx (exec i s) = some s'))))) = true := by decide +kernel

/-- States and operands that meet the hypotheses of `ScalarPipeKeepsCanonicalTiles`, clause by clause. -/
theorem witness_ScalarPipeKeepsCanonicalTiles :
   (let s := ws (wt)
    let t := 0
    let w : IWord := wd 7 1 2 3 0 0
    let x : W64 := (0 : W64)
    let s' := (nx (exec (.alu t w) s)).getD s
    decide (spWf dTile s.tiles = true) &&
    (let i := Instr.alu t w
     decide (i ∈ [Instr.nop t w, .alu t w, .alui t w, .li t w x, .cmp t w, .pop t w, .br t w, .brr t w, .loop t w, .loopEnd t, .fpu t w,
        .lds t w, .sts t w, .adda t w, .mova t w, .tdld t w, .tdst t w, .tdset t w, .tdget t w, .fence t w, .waitq t w] ∧ nx (exec i s) = some s'))) = true := by decide +kernel

/-- States and operands that meet the hypotheses of `CisternAccesses`, clause by clause. -/
theorem witness_CisternAccesses :
   (let s := ws (wt)
    (let w : IWord := wd 7 1 2 0 0 0xFFF8
     let t := 0
     let r : Run := wr
     let k : LKernel := wk
     decide ((s.tile t).running = some (r, k) ∧ s.canIssue t 0x10 w 0 = true) &&
     (let tl := s.issuing t r 0x10
      let y := tl.ctx r.ctx
      let a := (y.aGet w.sa.toNat + w.imm.signExtend 64).toNat
      let n := 2 ^ fld w.fn.toNat 1 0
      decide (readable tl k a n = true))) &&
    (let w : IWord := wd 3 0 1 2 0 0xFFF8
     let t := 0
     let r : Run := wr
     let k : LKernel := wk
     decide ((s.tile t).running = some (r, k) ∧ s.canIssue t 0x11 w 0 = true) &&
     (let tl := s.issuing t r 0x11
      let y := tl.ctx r.ctx
      let a := (y.aGet w.sa.toNat + w.imm.signExtend 64).toNat
      let n := 2 ^ fld w.fn.toNat 1 0
      decide (a + n ≤ k.cisBytes))) &&
    (let w : IWord := wd 0 1 1 0 0 0xFFC0
     let t := 0
     let r : Run := wr
     let k : LKernel := wk
     decide ((s.tile t).running = some (r, k) ∧ s.canIssue t 0x14 w 0 = true) &&
     (let tl := s.issuing t r 0x14
      let y := tl.ctx r.ctx
      let a := (y.aGet w.sa.toNat + w.imm.signExtend 64).toNat
      decide (readable tl k a 64 = true))) &&
    (let w : IWord := wd 0 0 1 2 0 0xFFC0
     let t := 0
     let r : Run := wr
     let k : LKernel := wk
     decide ((s.tile t).running = some (r, k) ∧ s.canIssue t 0x15 w 0 = true) &&
     (let tl := s.issuing t r 0x15
      let y := tl.ctx r.ctx
      let a := (y.aGet w.sa.toNat + w.imm.signExtend 64).toNat
      decide (a + 64 ≤ k.cisBytes))) &&
    (let w : IWord := wd 0 1 1 0 0 0x10000
     let t := 0
     let r : Run := wr
     let k : LKernel := wk
     decide ((s.tile t).running = some (r, k)) &&
     (let i := Instr.lds t w
      let opc := 0x10
      let n := 1
      decide ((i, opc, n) ∈ [(Instr.lds t w, 0x10, 2 ^ fld w.fn.toNat 1 0), (Instr.sts t w, 0x11, 2 ^ fld w.fn.toNat 1 0),
         (Instr.tdld t w, 0x14, 64), (Instr.tdst t w, 0x15, 64)] ∧ s.canIssue t opc w 0 = true ∧ k.cisBytes < (((s.issuing t r opc).ctx r.ctx).aGet w.sa.toNat + w.imm.signExtend 64).toNat + n))) &&
    (let w : IWord := wd 3 0 1 2 0 0xFFF9
     let t := 0
     let r : Run := wr
     let k : LKernel := wk
     decide ((s.tile t).running = some (r, k)) &&
     (let i := Instr.sts t w
      let opc := 0x11
      let n := 8
      decide ((i, opc, n) ∈ [(Instr.lds t w, 0x10, 2 ^ fld w.fn.toNat 1 0), (Instr.sts t w, 0x11, 2 ^ fld w.fn.toNat 1 0),
         (Instr.tdld t w, 0x14, 64), (Instr.tdst t w, 0x15, 64)] ∧ s.canIssue t opc w 0 = true ∧ k.cisBytes < (((s.issuing t r opc).ctx r.ctx).aGet w.sa.toNat + w.imm.signExtend 64).toNat + n))) &&
    (let w : IWord := wd 0 1 1 0 0 0xFFC1
     let t := 0
     let r : Run := wr
     let k : LKernel := wk
     decide ((s.tile t).running = some (r, k)) &&
     (let i := Instr.tdld t w
      let opc := 0x14
      let n := 64
      decide ((i, opc, n) ∈ [(Instr.lds t w, 0x10, 2 ^ fld w.fn.toNat 1 0), (Instr.sts t w, 0x11, 2 ^ fld w.fn.toNat 1 0),
         (Instr.tdld t w, 0x14, 64), (Instr.tdst t w, 0x15, 64)] ∧ s.canIssue t opc w 0 = true ∧ k.cisBytes < (((s.issuing t r opc).ctx r.ctx).aGet w.sa.toNat + w.imm.signExtend 64).toNat + n))) &&
    (let w : IWord := wd 0 0 1 2 0 0xFFC1
     let t := 0
     let r : Run := wr
     let k : LKernel := wk
     decide ((s.tile t).running = some (r, k)) &&
     (let i := Instr.tdst t w
      let opc := 0x15
      let n := 64
      decide ((i, opc, n) ∈ [(Instr.lds t w, 0x10, 2 ^ fld w.fn.toNat 1 0), (Instr.sts t w, 0x11, 2 ^ fld w.fn.toNat 1 0),
         (Instr.tdld t w, 0x14, 64), (Instr.tdst t w, 0x15, 64)] ∧ s.canIssue t opc w 0 = true ∧ k.cisBytes < (((s.issuing t r opc).ctx r.ctx).aGet w.sa.toNat + w.imm.signExtend 64).toNat + n)))) = true := by decide +kernel

/-- States and operands that meet the hypotheses of `ControlFlow`, clause by clause. -/
theorem witness_ControlFlow :
   ((let s := ws (wt fun c => { c with pc := 80 })
     let w : IWord := wd 0 0 0 0 0 0xFFFFF6
     let t := 0
     let r : Run := wr
     let k : LKernel := wk
     decide ((s.tile t).running = some (r, k) ∧ s.canIssue t 0x06 w 0 = true) &&
     (let tl := s.issuing t r 0x06
      let y := tl.ctx r.ctx
      let g := (y.pc : Int) + 8 * w.imm.toInt
      decide (0 ≤ g))) &&
    (let s := ws (wt)
     (let w : IWord := wd 0 0 0 0 0 5
      let t := 0
      let r : Run := wr
      let k : LKernel := wk
      decide ((s.tile t).running = some (r, k)) &&
      (decide (s.canIssue t 0x06 w 0 = true) &&
       (let tl := s.issuing t r 0x06
        let y := tl.ctx r.ctx
        let g := (y.pc : Int) + 8 * w.imm.toInt
        decide (0 ≤ g))) &&
      (decide (s.canIssue t 0x0C w 0 = true))) &&
     (let w : IWord := wd 0 0 1 0 0 0
      let t := 0
      let r : Run := wr
      let k : LKernel := wk
      decide ((s.tile t).running = some (r, k) ∧ s.canIssue t 0x07 w 0 = true)) &&
     (let w : IWord := wd 0 0 1 0 0 2
      let t := 0
      let r : Run := wr
      let k : LKernel := wk
      decide ((s.tile t).running = some (r, k) ∧ s.canIssue t 0x08 w 0 = true) &&
      (let tl := s.issuing t r 0x08
       let y := tl.ctx r.ctx
       decide (y.loops.length < 4))) &&
     (let w : IWord := wd 0 0 0 0 0 4
      let t := 0
      let r : Run := wr
      let k : LKernel := wk
      decide ((s.tile t).running = some (r, k) ∧ s.canIssue t 0x0A w 0 = true)) &&
     (let w : IWord := wd 0 0 0 0 0 0
      let t := 0
      let r : Run := wr
      let k : LKernel := wk
      decide ((s.tile t).running = some (r, k) ∧ s.canIssue t 0x0B w 0 = true))) &&
    (let s := ws (wt fun c => { c with s := [(1, 7)] })
     let w : IWord := wd 0 0 1 0 0 2
     let t := 0
     let r : Run := wr
     let k : LKernel := wk
     decide ((s.tile t).running = some (r, k) ∧ s.canIssue t 0x08 w 0 = true) &&
     (let tl := s.issuing t r 0x08
      let y := tl.ctx r.ctx
      decide (y.loops.length < 4))) &&
    (let s := ws (wt fun c => { c with pc := 24, loops := [{ start := 8, stop := 16, rem := 0 }] })
     let t := 0
     let r : Run := wr
     let k : LKernel := wk
     decide ((s.tile t).running = some (r, k) ∧ ((s.tile t).ctx r.ctx).loopOver = true))) = true := by decide +kernel

/-- States and operands that meet the hypotheses of `LaneOperations`, clause by clause. -/
theorem witness_LaneOperations :
   (let s := ws (wt fun c => { c with p := [(1, 3)] })
    (let w : IWord := wd 0 1 2 3 0 0 1
     let t := 0
     let r : Run := wr
     let k : LKernel := wk
     decide ((s.tile t).running = some (r, k)) &&
     (decide (s.canIssue t 0x30 w 0 = true)) &&
     (decide (s.canIssue t 0x31 w 0 = true))) &&
    (let w : IWord := wd 9 1 2 0 0 0 1
     let t := 0
     let r : Run := wr
     let k : LKernel := wk
     decide ((s.tile t).running = some (r, k) ∧ s.canIssue t 0x33 w 0 = true)) &&
    (let w : IWord := wd 1 1 2 0 0 0xFF 1
     let t := 0
     let r : Run := wr
     let k : LKernel := wk
     decide ((s.tile t).running = some (r, k)) &&
     (decide (s.canIssue t 0x39 w 0 = true)) &&
     (decide (s.canIssue t 0x3A w 0 = true))) &&
    (let w : IWord := wd 0 1 2 0 0 0 1
     let t := 0
     let r : Run := wr
     let k : LKernel := wk
     decide ((s.tile t).running = some (r, k) ∧ s.canIssue t 0x40 w 0 = true) &&
     (let tl := s.issuing t r 0x40
      let tb := if w.fn.toNat ≤ 2 then builtinTable w.fn.toNat else spGet dSfu tl.sfu (k.sfuMap.getD (fld w.imm.toNat 3 0) 0)
      decide (tb.loaded = true)))) = true := by decide +kernel

/-- States and operands that meet the hypotheses of `VectorMoves`, clause by clause. -/
theorem witness_VectorMoves :
   ((let s := ws (wt fun c => { c with p := [(1, 3)] })
     (let w : IWord := wd 0 1 2 3 0 0 1
      let t := 0
      let r : Run := wr
      let k : LKernel := wk
      decide ((s.tile t).running = some (r, k) ∧ s.canIssue t 0x32 w 0 = true)) &&
     (let w : IWord := wd 2 1 0 2 0 0 1
      let t := 0
      let r : Run := wr
      let k : LKernel := wk
      decide ((s.tile t).running = some (r, k) ∧ s.canIssue t 0x3B w 0 = true)) &&
     (let w : IWord := wd 2 1 2 0 0 0 1
      let t := 0
      let r : Run := wr
      let k : LKernel := wk
      decide ((s.tile t).running = some (r, k) ∧ s.canIssue t 0x36 w 0 = true ∧ w.fn.toNat ≤ 2)) &&
     (let w : IWord := wd 5 1 2 0 0 0 1
      let t := 0
      let r : Run := wr
      let k : LKernel := wk
      decide ((s.tile t).running = some (r, k) ∧ s.canIssue t 0x36 w 0 = true ∧ 3 ≤ w.fn.toNat ∧ w.fn.toNat ≤ 5)) &&
     (let w : IWord := wd 0 1 1 0 0 0xFFC0 1
      let t := 0
      let r : Run := wr
      let k : LKernel := wk
      decide ((s.tile t).running = some (r, k) ∧ s.canIssue t 0x34 w 0 = true) &&
      (let tl := s.issuing t r 0x34
       let kx := s.seen t r k 0x34 w
       let on := onLanes tl kx w
       decide ((if w.fn = 0 then vAddr tl kx w % 64 = 0 else ∀ l ∈ on, laneAddr tl kx w l % 4 = 0) ∧ (∀ l ∈ on, readable tl k (laneAddr tl kx w l) 4 = true)))) &&
     (let w : IWord := wd 2 1 1 3 0 0 1
      let t := 0
      let r : Run := wr
      let k : LKernel := wk
      decide ((s.tile t).running = some (r, k) ∧ s.canIssue t 0x34 w 0 = true) &&
      (let tl := s.issuing t r 0x34
       let kx := s.seen t r k 0x34 w
       let on := onLanes tl kx w
       decide ((if w.fn = 0 then vAddr tl kx w % 64 = 0 else ∀ l ∈ on, laneAddr tl kx w l % 4 = 0) ∧ (∀ l ∈ on, readable tl k (laneAddr tl kx w l) 4 = true)))) &&
     (let w : IWord := wd 0 0 1 0 2 0xFFC0 1
      let t := 0
      let r : Run := wr
      let k : LKernel := wk
      decide ((s.tile t).running = some (r, k) ∧ s.canIssue t 0x35 w 0 = true) &&
      (let tl := s.issuing t r 0x35
       let kx := s.seen t r k 0x35 w
       let on := onLanes tl kx w
       decide ((if w.fn = 0 then vAddr tl kx w % 64 = 0 else ∀ l ∈ on, laneAddr tl kx w l % 4 = 0) ∧ (∀ l ∈ on, laneAddr tl kx w l + 4 ≤ k.cisBytes))))) &&
    (let s := ws (wt fun c => { c with p := [(1, 3)], s := [(2, 4)], td := [(1, wtd 8 1 2 4 0 0 64)] })
     let w : IWord := wd 6 1 1 2 0 0 1
     let t := 0
     let r : Run := wr
     let k : LKernel := wk
     decide ((s.tile t).running = some (r, k) ∧ s.canIssue t 0x36 w 0 = true) &&
     (let tl := s.issuing t r 0x36
      let kx := s.seen t r k 0x36 w
      decide (6 ≤ w.fn.toNat) &&
      (let d := tdOf ((tl.ctx r.ctx).tdGet w.sa.toNat)
       let n := min ((tl.ctx r.ctx).sGet w.sb.toNat).toNat d.cols
       let rows := (onLanes tl kx w).filter (· < d.rows)
       decide (d.check = Except.ok () ∧ bit d.sp 0 = true ∧ (d.fmt = 8 ∨ d.fmt = 9) ∧ d.elem % 4 = 0 ∧ d.rowPitch % 4 = 0 ∧ (∀ l ∈ rows, readable tl k (d.elem + l * d.rowPitch) (n * scalarBytes d.fmt) = true))))) &&
    (let s := ws { wt with cis := [(4106, 0x80), (4107, 0x3F)] }
     let w : IWord := wd 1 0 1 0 0 0
     let t := 0
     let r : Run := wr
     let k : LKernel := wk
     decide ((s.tile t).running = some (r, k) ∧ s.canIssue t 0x41 w 0 = true) &&
     (let tl := s.issuing t r 0x41
      let kx := s.seen t r k 0x41 w
      let b := tl.cisBytes (k.cisOff + vAddr tl kx w) 128
      decide (readable tl k (vAddr tl kx w) 128 = true ∧ tableOk b = true)))) = true := by decide +kernel

/-- States and operands that meet the hypotheses of `MatrixOperations`, clause by clause. -/
theorem witness_MatrixOperations :
   (let s := ws (wt fun c => { c with td := [(1, wtd 9 1 2 32 0 0 64), (2, wtd 9 1 1 32 256 0 64), (3, wtd 0 3 1 32 512 1024 64), (4, wtd 9 1 2 16 0 0 64)] })
    (let w : IWord := wd 3 1 0 0 0 0x80000
     let x : W64 := (0xC0000002C0000001 : W64)
     let t := 0
     let r : Run := wr
     let k : LKernel := wk
     decide ((s.tile t).running = some (r, k) ∧ s.canIssue t 0x20 w x = true) &&
     (let tl := s.issuing t r 0x20
      let kx := s.seen t r k 0x20 w
      let n := fld w.imm.toNat 7 0 + 1
      let u := tl
      let got := ([] : List Image)
      decide (mmacChecks tl kx w.fn.toNat n (specA x) (specB x) = Except.ok () ∧ takeSlots kx (slotSpecs n (specA x) (specB x)) tl [] = (u, got, none) ∧ isOk (mmacCompute u kx w x got) = true))) &&
    (let w : IWord := wd 3 1 0 0 0 0x100000
     let t := 0
     let r : Run := wr
     let k : LKernel := wk
     decide ((s.tile t).running = some (r, k) ∧ s.canIssue t 0x21 w 0 = true)) &&
    (let w : IWord := wd 3 0 1 0 0 0x80000
     let x : W64 := (0xC0000004 : W64)
     let t := 0
     let r : Run := wr
     let k : LKernel := wk
     decide ((s.tile t).running = some (r, k)) &&
     (let (r0, c0, M, N) := regionOf w.fn.toNat w.imm.toNat
      decide (s.canIssue t 0x22 w x = true) &&
      (let tl := s.issuing t r 0x22
       let kx := s.seen t r k 0x22 w
       let y := tl.ctx r.ctx
       let d := specTd y (specA x)
       let alpha := fp32.dec ((y.sGet w.sb.toNat).toNat % 2 ^ 32)
       let out := fun i j =>
        let v := tl.accVal w.sa.toNat (r0 + i) (c0 + j)
        deliver (scalarFmt d.fmt) (rndOf (fld w.imm.toNat 23 22)) (bit w.imm.toNat 21) (tdDraw kx.samp d.tid (i * d.cols + j))
          (if bit w.imm.toNat 20 then alpha.isNan || v.isNan else v.isNan) (if bit w.imm.toNat 20 then alpha.mul v else v)
       let cells := (List.range d.rows).map fun i => (List.range d.cols).map fun j => out i j
       let rows := cells.mapIdx fun i row =>
        (d.elem + i * d.rowPitch, row.flatMap fun c => leBytes (scalarBytes d.fmt) c.1)
       decide (mdrainChecks d w.fn.toNat = Except.ok () ∧ inside k rows = true))))) = true := by decide +kernel

/-- States and operands that meet the hypotheses of `MmacRegion`, clause by clause. -/
theorem witness_MmacRegion :
   (let tl : Tile := wt fun c => { c with td := [(1, wtd 9 1 2 32 0 0 64), (2, wtd 9 1 1 32 256 0 64), (3, wtd 0 3 1 32 512 1024 64), (4, wtd 9 1 2 16 0 0 64)] }
    let w : IWord := wd 3 1 0 0 0 0x80000
    let x : W64 := (0xC0000002C0000001 : W64)
    let got : List Image := ([] : List Image)
    let kx : Kx := (ws tl).seen 0 wr wk 0x20 w
    let n := fld w.imm.toNat 7 0 + 1
    let a := { meOpnd tl kx (specA x) n with images := opndImages (specA x) (specB x) true got }
    let b := { meOpnd tl kx (specB x) n with images := opndImages (specB x) (specA x) false got }
    let y := tl.ctx kx.c
    let (r0, c0, M, N) := regionOf w.fn.toNat w.imm.toNat
    decide (kzDefined 0x20 w x = true ∧ tl.wf = true ∧ a.rows ≤ M ∧ b.rows ≤ N ∧ a.cols = b.cols ∧ a.rows ≤ y.lenM ∧ b.rows ≤ y.lenN ∧ a.cols ≤ y.lenK ∧ 0 < a.cols ∧ 0 < a.rows ∧ 0 < b.rows ∧ bit w.imm.toNat 20 = false ∧ isOk (a.read tl kx.k a.rows (ceilDiv a.cols 32)) = true ∧ isOk (b.read tl kx.k b.rows (ceilDiv a.cols 32)) = true ∧ isOk (mmacCompute tl kx w x got) = true)) = true := by decide +kernel

/-- States and operands that meet the hypotheses of `BlockOperations`, clause by clause. -/
theorem witness_BlockOperations :
   ((let s := ws { wt (fun c => { c with s := [(2, 1)], td := [(1, wtd 9 1 2 32 0 0 64), (2, wtd 9 1 1 32 256 0 64), (3, wtd 0 3 1 32 512 1024 64), (4, wtd 9 1 2 16 0 0 64)] }) with regs := [(0x2000, 0x20000)] }
     let w : IWord := wd 0 0 1 2 0 0
     let x : W64 := (0xC000000340000000 : W64)
     let t := 0
     let r : Run := wr
     let k : LKernel := wk
     decide ((s.tile t).running = some (r, k) ∧ s.canIssue t 0x37 w x = true) &&
     (let tl := s.issuing t r 0x37
      let kx := s.seen t r k 0x37 w
      let y := tl.ctx r.ctx
      let p := qprofOf ((s.tile t).reg (0x2000 + 8 * (w.fn.toNat % 8))).toNat
      let d := specTd y (specB x)
      let src := specCis y (specA x)
      let b0 := (y.sGet w.sa.toNat).toNat
      let n := (y.sGet w.sb.toNat).toNat
      decide (qblkChecks p d b0 n src = Except.ok ()) &&
      (let u := (qblkLoop kx p d (bit w.imm.toNat 20) src b0 (List.range n) tl .zero 0).1
       let ev := (qblkLoop kx p d (bit w.imm.toNat 20) src b0 (List.range n) tl .zero 0).2.1
       decide (qblkLoop kx p d (bit w.imm.toNat 20) src b0 (List.range n) tl .zero 0 = (u, ev, none))))) &&
    (let s := ws (wt fun c => { c with s := [(2, 1)], td := [(1, wtd 9 1 2 32 0 0 64), (2, wtd 9 1 1 32 256 0 64), (3, wtd 0 3 1 32 512 1024 64), (4, wtd 9 1 2 16 0 0 64)] })
     let w : IWord := wd 0 0 1 2 0 0
     let x : W64 := (0x40000000C0000003 : W64)
     let t := 0
     let r : Run := wr
     let k : LKernel := wk
     decide ((s.tile t).running = some (r, k) ∧ s.canIssue t 0x38 w x = true) &&
     (let tl := s.issuing t r 0x38
      let kx := s.seen t r k 0x38 w
      let y := tl.ctx r.ctx
      let d := specTd y (specA x)
      let dst := specCis y (specB x)
      let b0 := (y.sGet w.sa.toNat).toNat
      let n := (y.sGet w.sb.toNat).toNat
      decide (vwidChecks d b0 n dst = Except.ok ()) &&
      (let u := (vwidLoop kx d (if w.fn = 0 then fp32 else bf16) (if w.fn = 0 then 4 else 2) dst b0 (List.range n) tl .zero 0).1
       let ev := (vwidLoop kx d (if w.fn = 0 then fp32 else bf16) (if w.fn = 0 then 4 else 2) dst b0 (List.range n) tl .zero 0).2.1
       let esc := 0
       decide (vwidLoop kx d (if w.fn = 0 then fp32 else bf16) (if w.fn = 0 then 4 else 2) dst b0 (List.range n) tl .zero 0 =
          (u, ev, esc, none))))) &&
    (let s := ws (wt fun c => { c with s := [(2, 3)], td := [(1, wtd 9 1 2 32 0 0 64), (2, wtd 9 1 1 32 256 0 64), (3, wtd 0 3 1 32 512 1024 64), (4, wtd 9 1 2 16 0 0 64)] })
     (let w : IWord := wd 0 0 1 2 3 0
      let x : W64 := (0xC0000002C0000001 : W64)
      let t := 0
      let r : Run := wr
      let k : LKernel := wk
      decide ((s.tile t).running = some (r, k)) &&
      (let i := Instr.upd t w x
       let opc := 0x77
       let fp := false
       let sq := false
       decide ((i, opc, fp, sq) ∈ [(Instr.upd t w x, 0x77, false, false), (Instr.upds t w x, 0x78, true, w.fn == 1)] ∧ s.canIssue t opc w x = true) &&
       (let tl := s.issuing t r opc
        let kx := s.seen t r k opc w
        let y := tl.ctx r.ctx
        let W := specTd y (specA x)
        let D := specTd y (specB x)
        let e0 := (y.sGet w.sa.toNat).toNat
        let n := (y.sGet w.sb.toNat).toNat
        let ab := (y.sGet w.sc.toNat).toNat
        decide (updChecks W D fp e0 n = Except.ok ()) &&
        (let u := (updLoop kx w sq W D (fp32.dec (fld ab 31 0)) (fp32.dec (fld ab 63 32)) e0 n ((List.range n).map (e0 + ·)) tl .zero).1
         let ev := (updLoop kx w sq W D (fp32.dec (fld ab 31 0)) (fp32.dec (fld ab 63 32)) e0 n ((List.range n).map (e0 + ·)) tl .zero).2.1
         decide (updLoop kx w sq W D (fp32.dec (fld ab 31 0)) (fp32.dec (fld ab 63 32)) e0 n ((List.range n).map (e0 + ·)) tl .zero =
          (u, ev, none)))))) &&
     (let w : IWord := wd 1 0 1 2 3 0
      let x : W64 := (0xC0000002C0000001 : W64)
      let t := 0
      let r : Run := wr
      let k : LKernel := wk
      decide ((s.tile t).running = some (r, k)) &&
      (let i := Instr.upds t w x
       let opc := 0x78
       let fp := true
       let sq := true
       decide ((i, opc, fp, sq) ∈ [(Instr.upd t w x, 0x77, false, false), (Instr.upds t w x, 0x78, true, w.fn == 1)] ∧ s.canIssue t opc w x = true) &&
       (let tl := s.issuing t r opc
        let kx := s.seen t r k opc w
        let y := tl.ctx r.ctx
        let W := specTd y (specA x)
        let D := specTd y (specB x)
        let e0 := (y.sGet w.sa.toNat).toNat
        let n := (y.sGet w.sb.toNat).toNat
        let ab := (y.sGet w.sc.toNat).toNat
        decide (updChecks W D fp e0 n = Except.ok ()) &&
        (let u := (updLoop kx w sq W D (fp32.dec (fld ab 31 0)) (fp32.dec (fld ab 63 32)) e0 n ((List.range n).map (e0 + ·)) tl .zero).1
         let ev := (updLoop kx w sq W D (fp32.dec (fld ab 31 0)) (fp32.dec (fld ab 63 32)) e0 n ((List.range n).map (e0 + ·)) tl .zero).2.1
         decide (updLoop kx w sq W D (fp32.dec (fld ab 31 0)) (fp32.dec (fld ab 63 32)) e0 n ((List.range n).map (e0 + ·)) tl .zero =
          (u, ev, none)))))))) = true := by decide +kernel

/-- States and operands that meet the hypotheses of `QueryBlocks`, clause by clause. -/
theorem witness_QueryBlocks :
   ((let s := ws (wt fun c => { c with p := [(1, 1)] })
     (let w : IWord := wd 0 1 0 0 0 0x30003 1
      let t := 0
      let r : Run := wr
      let k : LKernel := wk
      decide ((s.tile t).running = some (r, k) ∧ s.canIssue t 0x54 w 0 = true) &&
      (let kx := s.seen t r k 0x54 w
       let mode := bit w.imm.toNat 1
       decide ((mode = true → (fp32.dec (osmOffset kx)).isFin = true)))) &&
     (let w : IWord := wd 0 1 2 3 0 0x30000 1
      let t := 0
      let r : Run := wr
      let k : LKernel := wk
      decide ((s.tile t).running = some (r, k) ∧ s.canIssue t 0x50 w 0 = true) &&
      (let tl := s.issuing t r 0x50
       decide ((tl.ctx r.ctx).blk.noSub = false))) &&
     (let w : IWord := wd 0 1 2 0 0 0x30000 1
      let t := 0
      let r : Run := wr
      let k : LKernel := wk
      decide ((s.tile t).running = some (r, k) ∧ s.canIssue t 0x53 w 0 = true ∧ w.fn = 0)) &&
     (let w : IWord := wd 2 1 0 3 2 0x30000 1
      let t := 0
      let r : Run := wr
      let k : LKernel := wk
      decide ((s.tile t).running = some (r, k)) &&
      (let (r0, c0, m, n) := osmRegion w
       decide (s.canIssue t 0x53 w 0 = true) &&
       (let tl := s.issuing t r 0x53
        let kx := s.seen t r k 0x53 w
        let rows := osmRows tl kx w r0 m
        let at' := ((tl.ctx r.ctx).aGet w.sc.toNat).toNat
        decide (w.fn = 2 ∧ at' % 64 = 0 ∧ (∀ l ∈ rows, readable tl k (at' + 8 * (l - r0)) 8 = true ∧ readable tl k (at' + up64 (8 * m) + 4 * n * (l - r0)) (4 * n) = true))))) &&
     (let w : IWord := wd 3 0 0 3 2 0x30000 1
      let t := 0
      let r : Run := wr
      let k : LKernel := wk
      decide ((s.tile t).running = some (r, k)) &&
      (let (r0, c0, m, n) := osmRegion w
       decide (s.canIssue t 0x53 w 0 = true) &&
       (let tl := s.issuing t r 0x53
        let kx := s.seen t r k 0x53 w
        let rows := osmRows tl kx w r0 m
        let sb := w.sb.toNat
        let at' := ((tl.ctx r.ctx).aGet w.sc.toNat).toNat
        decide (w.fn = 3 ∧ at' % 64 = 0) &&
        (let sts := rows.map fun l => (at' + 8 * (l - r0), leBytes 8 (tl.stGet sb l))
         decide (inside k sts = true))))) &&
     (let w : IWord := wd 4 0 0 3 2 0x30000 1
      let t := 0
      let r : Run := wr
      let k : LKernel := wk
      decide ((s.tile t).running = some (r, k)) &&
      (let (r0, c0, m, n) := osmRegion w
       decide (s.canIssue t 0x53 w 0 = true) &&
       (let tl := s.issuing t r 0x53
        let kx := s.seen t r k 0x53 w
        let rows := osmRows tl kx w r0 m
        let at' := ((tl.ctx r.ctx).aGet w.sc.toNat).toNat
        decide (w.fn = 4 ∧ at' % 64 = 0 ∧ (∀ l ∈ rows, readable tl k (at' + 8 * (l - r0)) 8 = true))))) &&
     (let w : IWord := wd 0 1 2 3 2 0x30000 1
      let x : W64 := (0x40000001 : W64)
      let t := 0
      let r : Run := wr
      let k : LKernel := wk
      decide ((s.tile t).running = some (r, k)) &&
      (let (r0, c0, m, n) := osmRegion w
       decide (s.canIssue t 0x56 w x = true) &&
       (let tl := s.issuing t r 0x56
        let kx := s.seen t r k 0x56 w
        decide (w.fn = 0) &&
        (let at' := ((tl.ctx r.ctx).aGet w.sc.toNat).toNat
         let js := (maskCols (leNat (tl.cisBytes (k.cisOff + (at' + 16)) 16))).filter fun j => decide (j < n)
         decide (at' % 64 = 0 ∧ readable tl k (at' + 16) 16 = true) &&
         (let u := tl
          let base := k.cisOff + 64
          let its := ([] : List (Nat × BItem))
          decide (osmItems tl kx (specA x) = Except.ok (u, base) ∧ (js.mapM fun j => do let it ← readItem u kx base j;  return (j, it) : Ex (List (Nat × BItem))) = Except.ok its))))))) &&
    (let s := ws (wt fun c => { c with p := [(1, 1)], blk := { OsmBlk.none with isOpen := true, mode := true } })
     let w : IWord := wd 0 1 2 3 0 0x30000 1
     let t := 0
     let r : Run := wr
     let k : LKernel := wk
     decide ((s.tile t).running = some (r, k) ∧ s.canIssue t 0x50 w 0 = true) &&
     (let tl := s.issuing t r 0x50
      let kx := s.seen t r k 0x50 w
      decide ((tl.ctx r.ctx).blk.noSub = true ∧ (fp32.dec (osmOffset kx)).isFin = true))) &&
    (let s := ws (wt fun c => { c with p := [(1, 1)], td := [(1, wtd 9 1 1 16 0 0 64)] })
     (let w : IWord := wd 0 0 2 3 0 0x30000 1
      let x : W64 := (0xC0000001 : W64)
      let t := 0
      let r : Run := wr
      let k : LKernel := wk
      decide ((s.tile t).running = some (r, k)) &&
      (let (r0, c0, m, n) := osmRegion w
       (decide (s.canIssue t 0x51 w x = true) &&
        (let tl := s.issuing t r 0x51
         let kx := s.seen t r k 0x51 w
         let rows := osmRows tl kx w r0 m
         let d := specTd (tl.ctx r.ctx) (specA x)
         let cells := rows.map fun l => (l, osmeRow tl kx w d r0 c0 n l)
         let sts := osmStores w d (cells.flatMap Prod.snd)
         decide (((tl.ctx r.ctx).blk.noSub = true → (fp32.dec (osmOffset kx)).isFin = true) ∧ osmDest d = Except.ok () ∧ inside k sts = true))) &&
       (decide (s.canIssue t 0x55 w x = true) &&
        (let tl := s.issuing t r 0x55
         let kx := s.seen t r k 0x55 w
         let rows := osmRows tl kx w r0 m
         let d := specTd (tl.ctx r.ctx) (specA x)
         let f := fun l n => mulRne (exactBits fp32 (exp2Diff (tl.accGet w.sa.toNat l n) (tl.stLo w.sb.toNat l))) (recipRefined (tl.stHi w.sb.toNat l))
         let vals := rows.flatMap fun l => (List.range n).map fun j => (l, j, if osmMasked kx l (c0 + j) then 0 else f l (c0 + j))
         let sts := osmStores w d (vals.map fun v => (v.1 - r0, v.2.1,
           (bf16.enc (rndW w) false (osmDraw kx w d (v.1 - r0) v.2.1) (fp32.dec v.2.2)).bits))
         decide (osmDest d = Except.ok () ∧ inside k sts = true))))) &&
     (let w : IWord := wd 1 0 2 3 4 0x30000 1
      let x : W64 := (0xC0000001 : W64)
      let t := 0
      let r : Run := wr
      let k : LKernel := wk
      decide ((s.tile t).running = some (r, k)) &&
      (let (r0, c0, m, n) := osmRegion w
       decide (s.canIssue t 0x55 w x = true) &&
       (let tl := s.issuing t r 0x55
        let kx := s.seen t r k 0x55 w
        let rows := osmRows tl kx w r0 m
        let d := specTd (tl.ctx r.ctx) (specA x)
        let f := fun l n => exactBits fp32 (((fp32.dec (osmDscale kx)).mul (tl.accVal w.sb.toNat l n)).mul ((tl.accVal w.sa.toNat l n).sub (fp32.dec (tl.vGet w.sc.toNat l))))
        let vals := rows.flatMap fun l => (List.range n).map fun j => (l, j, if osmMasked kx l (c0 + j) then 0 else f l (c0 + j))
        let sts := osmStores w d (vals.map fun v => (v.1 - r0, v.2.1,
           (bf16.enc (rndW w) false (osmDraw kx w d (v.1 - r0) v.2.1) (fp32.dec v.2.2)).bits))
        decide (osmDest d = Except.ok () ∧ inside k sts = true))))) &&
    (let s := ws { wt fun c => { c with p := [(1, 1)], s := [(2, 2)], a := [(1, 1024), (2, 2048)], blk := { OsmBlk.none with isOpen := true } } with cis := [(4104, 1), (4105, 1), (4120, 1), (4121, 1)] }
     let w : IWord := wd 0 1 2 3 2 0x30000 1
     let x : W64 := (0x240000000 : W64)
     let t := 0
     let r : Run := wr
     let k : LKernel := wk
     decide ((s.tile t).running = some (r, k) ∧ s.canIssue t 0x52 w x = true) &&
     (let tl := s.issuing t r 0x52
      let kx := s.seen t r k 0x52 w
      let at' := ((tl.ctx r.ctx).aGet w.dst.toNat).toNat
      decide (r.jmode = 0 ∧ (tl.ctx r.ctx).blk.isOpen = true) &&
      (let u := tl
       let valid := [0, 1]
       let skip := ([] : List Nat)
       decide (osmsDecide tl kx w x = Except.ok (u, valid, skip)) &&
       (let keep := valid.filter fun j => !skip.contains j
        let sts := val (decisionRecord at' ((tl.ctx r.ctx).aGet w.sc.toNat).toNat tl k (maskCols (leNat ((leBytes 16 (maskOf keep)).take 16)))
           (maskCols (leNat (leBytes 16 (maskOf skip)))))
        decide (decisionRecord at' ((tl.ctx r.ctx).aGet w.sc.toNat).toNat tl k (maskCols (leNat ((leBytes 16 (maskOf keep)).take 16)))
           (maskCols (leNat (leBytes 16 (maskOf skip)))) = Except.ok sts ∧ inside k sts = true))))) &&
    (let s := ws (wt fun c => { c with p := [(1, 1)], blk := { OsmBlk.none with isOpen := true } })
     (let w : IWord := wd 1 1 0 3 0 0x30000 1
      let t := 0
      let r : Run := wr
      let k : LKernel := wk
      decide ((s.tile t).running = some (r, k)) &&
      (let (r0, c0, m, n) := osmRegion w
       decide (s.canIssue t 0x53 w 0 = true) &&
       (let tl := s.issuing t r 0x53
        let kx := s.seen t r k 0x53 w
        let rows := osmRows tl kx w r0 m
        let sb := w.sb.toNat
        decide (w.fn = 1 ∧ (tl.ctx r.ctx).blk.isOpen = true) &&
        (let u := if (tl.ctx r.ctx).blk.noSub then tl.markRows kx (rows.filter fun l => finMarks (tl.stHi sb l)) else tl
         decide ((u.ctx r.ctx).blk.marked = []))))) &&
     (let w : IWord := wd 1 1 2 3 0 0 1
      let x : W64 := (0 : W64)
      let t := 0
      let r : Run := wr
      let k : LKernel := wk
      decide ((s.tile t).running = some (r, k) ∧ s.canIssue t 0x56 w x = true) &&
      (let tl := s.issuing t r 0x56
       let kx := s.seen t r k 0x56 w
       decide (w.fn = 1 ∧ r.jmode = 0 ∧ (tl.ctx r.ctx).blk.isOpen = true ∧ (osmEps kx).isFin = true ∧ (osmEps kx).below0 = false)))) &&
    (let s := ws (wt fun c => { c with p := [(1, 1)], blk := { OsmBlk.none with isOpen := true, mode := true, marked := [0] } })
     let w : IWord := wd 1 1 0 3 0 0x30000 1
     let t := 0
     let r : Run := wr
     let k : LKernel := wk
     decide ((s.tile t).running = some (r, k)) &&
     (let (r0, c0, m, n) := osmRegion w
      decide (s.canIssue t 0x53 w 0 = true) &&
      (let tl := s.issuing t r 0x53
       let kx := s.seen t r k 0x53 w
       let rows := osmRows tl kx w r0 m
       let sb := w.sb.toNat
       decide (w.fn = 1 ∧ (tl.ctx r.ctx).blk.isOpen = true) &&
       (let u := if (tl.ctx r.ctx).blk.noSub then tl.markRows kx (rows.filter fun l => finMarks (tl.stHi sb l)) else tl
        decide ((u.ctx r.ctx).blk.marked ≠ [] ∧ (u.ctx r.ctx).blk.dirty = false))))) &&
    (let s := ws (wt fun c => { c with p := [(1, 1)], blk := { OsmBlk.none with isOpen := true, mode := true, marked := [0], dirty := true } })
     let w : IWord := wd 1 1 0 3 0 0x30000 1
     let t := 0
     let r : Run := wr
     let k : LKernel := wk
     decide ((s.tile t).running = some (r, k)) &&
     (let (r0, c0, m, n) := osmRegion w
      decide (s.canIssue t 0x53 w 0 = true) &&
      (let tl := s.issuing t r 0x53
       let kx := s.seen t r k 0x53 w
       let rows := osmRows tl kx w r0 m
       let sb := w.sb.toNat
       decide (w.fn = 1 ∧ (tl.ctx r.ctx).blk.isOpen = true) &&
       (let u := if (tl.ctx r.ctx).blk.noSub then tl.markRows kx (rows.filter fun l => finMarks (tl.stHi sb l)) else tl
        decide ((u.ctx r.ctx).blk.marked ≠ [] ∧ (u.ctx r.ctx).blk.dirty = true))))) &&
    (let s := ws (wt fun c => { c with p := [(1, 1)], blk := { OsmBlk.none with isOpen := true, due := true, rows := [0], stReg := 1 } })
     let t := 0
     let r : Run := wr
     let k : LKernel := wk
     decide ((s.tile t).running = some (r, k)) &&
     (let blk := ((s.tile t).ctx r.ctx).blk
      decide (blk.due = true ∧ (s.tile t).outstanding = [] ∧ (∀ f ∈ (s.tile t).flights, ¬ (blk.channels.contains f.chan = true ∧ ((s.tile t).chan f.chan).st = 2)))))) = true := by decide +kernel

/-- States and operands that meet the hypotheses of `TidyCores`, clause by clause. -/
theorem witness_TidyCores :
   ((let s := ws (wt)
     let w : IWord := wd 0 28 0 0 0 0
     let t := 0
     let r : Run := wr
     let k : LKernel := wk
     decide ((s.tile t).running = some (r, k) ∧ s.canIssue t 0x76 w 0 = true) &&
     (let tl := s.issuing t r 0x76
      decide (tl.post = []))) &&
    (let s := ws { wt with post := [[1, 2, 3, 4]] }
     let w : IWord := wd 0 28 0 0 0 0
     let t := 0
     let r : Run := wr
     let k : LKernel := wk
     decide ((s.tile t).running = some (r, k) ∧ s.canIssue t 0x76 w 0 = true) &&
     (let tl := s.issuing t r 0x76
      let e0 := (1 : W64)
      let e1 := (2 : W64)
      let e2 := (3 : W64)
      let e3 := (4 : W64)
      let rest := ([] : List (List W64))
      decide (tl.post = [e0, e1, e2, e3] :: rest ∧ r.jmode = 0 ∧ spWf dTile s.tiles = true))) &&
    (let s := ws { wt with inbox := [(3, [1, 2, 3, 4, 5, 6, 7])] }
     let w : IWord := wd 0 0 1 0 0 3
     let t := 0
     let r : Run := wr
     let k : LKernel := wk
     decide ((s.tile t).running = some (r, k) ∧ s.canIssue t 0x75 w 0 = true) &&
     (let tl := s.issuing t r 0x75
      let c := fld w.imm.toNat 1 0
      let q := tl.inboxOf c
      decide ((∀ e ∈ tl.outstanding, tl.issued ≤ e.seq + 1) ∧ q.length < 8))) &&
    (let core := 3
     decide (core < 4) &&
     (let n := 2
      decide (n < 3)) &&
     (let a := 65528
      let n := 8
      decide (a + n ≤ 65536)) &&
     (let a := 65535
      let bs := [(1 : Byte)]
      decide (a + bs.length ≤ 65536))) &&
    (let s := ws { wt with regs := [(0x1000, 0x8000000000100001)] }
     let t := 0
     let core := 3
     decide (core < 4) &&
     (let tl := s.tile t
      (let o := (ctxSize tl 0) - 8
       let n := 8
       let c := 0
       decide (tl.act = some c ∧ 0 < n ∧ o + n ≤ ctxSize tl c ∧ badWords tl (ctxBase tl c + o) n = [])) &&
      (let o := (ctxSize tl 0) - 1
       let c := 0
       let bs := [(1 : Byte)]
       decide (tl.act = some c ∧ o + bs.length ≤ ctxSize tl c))))) = true := by decide +kernel

/-- States and operands that meet the hypotheses of `FlumeInstructions`, clause by clause. -/
theorem witness_FlumeInstructions :
   ((let s := ws { wt with cis := bytesAt 4096 (wfd 0) }
     let w : IWord := wd 0 0 1 0 0 1
     let t := 0
     let r : Run := wr
     let k : LKernel := wk
     decide ((s.tile t).running = some (r, k)) &&
     (let n := fld w.imm.toNat 4 0
      decide (s.canIssue t 0x60 w 0 = true) &&
      (let tl := s.issuing t r 0x60
       let a := ((tl.ctx r.ctx).aGet w.sa.toNat).toNat
       let d := tl.cisBytes (k.cisOff + a) 256
       decide ((tl.chan n).st ≠ 2 ∧ a % 64 = 0 ∧ readable tl k a 256 = true ∧ fcfgFail k d = none)))) &&
    (let s := ws { wt with chans := [(1, wch 0 1)] }
     let w : IWord := wd 0 0 0 0 0 1
     let t := 0
     let r : Run := wr
     let k : LKernel := wk
     decide ((s.tile t).running = some (r, k)) &&
     (let n := fld w.imm.toNat 4 0
      decide (s.canIssue t 0x61 w 0 = true) &&
      (let tl := s.issuing t r 0x61
       let c := tl.chan n
       decide ((c.st = 1 ∨ c.st = 3 ∨ c.st = 4) ∧ w.fn.toNat ≤ 2 ∧ ((fdescOf c.desc).mode = 1 → w.fn ≠ 2 ∧ (fdescOf c.desc).kind = 0))))) &&
    (let s := ws { wt with chans := [(1, wch 1 1)] }
     let w : IWord := wd 0 0 0 0 0 1
     let t := 0
     let r : Run := wr
     let k : LKernel := wk
     decide ((s.tile t).running = some (r, k)) &&
     (let n := fld w.imm.toNat 4 0
      decide (s.canIssue t 0x61 w 0 = true) &&
      (let tl := s.issuing t r 0x61
       let c := tl.chan n
       decide ((c.st = 1 ∨ c.st = 3 ∨ c.st = 4) ∧ w.fn.toNat ≤ 2 ∧ ((fdescOf c.desc).mode = 1 → w.fn ≠ 2 ∧ (fdescOf c.desc).kind = 0))))) &&
    (let s := ws { wt with chans := [(1, { wch 0 3 with ring := (wch 0 3).ring.setSlot 0 1 })] }
     let w : IWord := wd 1 0 0 0 0 1
     let t := 0
     let r : Run := wr
     let k : LKernel := wk
     decide ((s.tile t).running = some (r, k)) &&
     (let n := fld w.imm.toNat 4 0
      decide (s.canIssue t 0x62 w 0 = true) &&
      (let tl := s.issuing t r 0x62
       let c := tl.chan n
       decide (c.st ≠ 0 ∧ (w.fn = 0 → c.st ≠ 2) ∧ (w.fn ≠ 0 → c.isWrite = false ∧ c.ring.flagged c.ring.kslot = true))))) &&
    (let s := ws { wt with chans := [(1, wch 0 2)] }
     let w : IWord := wd 0 0 0 0 0 1
     let t := 0
     let r : Run := wr
     let k : LKernel := wk
     decide ((s.tile t).running = some (r, k)) &&
     (let n := fld w.imm.toNat 4 0
      decide (s.canIssue t 0x63 w 0 = true) &&
      (let tl := s.issuing t r 0x63
       decide (((tl.chan n).st = 2 → ∀ f ∈ tl.flights, f.chan ≠ n))))) &&
    (let s := ws { wt with chans := [(1, { wch 0 2 with ring := (wch 0 2).ring.setSlot 0 1 })] }
     let w : IWord := wd 0 0 0 0 0 1
     let t := 0
     let r : Run := wr
     let k : LKernel := wk
     decide ((s.tile t).running = some (r, k)) &&
     (let n := fld w.imm.toNat 4 0
      decide (s.canIssue t 0x65 w 0 = true) &&
      (let tl := s.issuing t r 0x65
       let c := tl.chan n
       let g := c.ring
       decide (c.isWrite = false ∧ g.flagged g.kslot = true ∧ tl.ring k n = g)))) &&
    (let s := ws { wt with chans := [(1, wch 1 2)] }
     let w : IWord := wd 0 0 0 0 0 1
     let t := 0
     let r : Run := wr
     let k : LKernel := wk
     decide ((s.tile t).running = some (r, k)) &&
     (let n := fld w.imm.toNat 4 0
      decide (s.canIssue t 0x65 w 0 = true) &&
      (let tl := s.issuing t r 0x65
       let c := tl.chan n
       let g := c.ring
       decide (c.isWrite = true ∧ c.st = 2 ∧ g.flagged g.kslot = false) &&
       (let u := (tl.setChan n { c with ring := (g.setSlot g.kslot 1).nextK }).settle k n s.time
        decide (¬ ((u.chan n).st = 2 ∧ (u.chan n).ring.flagged (u.chan n).ring.kslot = true)))))) &&
    (let s := ws (wt fun c => { c with a := [(1, 0x1000)] })
     (let w : IWord := wd 0 0 1 2 0 0x7F
      let x : W64 := (0x80 : W64)
      let t := 0
      let r : Run := wr
      let k : LKernel := wk
      decide ((s.tile t).running = some (r, k) ∧ s.canIssue t 0x64 w x = true) &&
      (let tl := s.issuing t r 0x64
       let y := tl.ctx r.ctx
       let len := fld w.imm.toNat 7 0 + 1
       let cis := (y.aGet w.sb.toNat).toNat
       let addr := (y.aGet w.sa.toNat + x).toNat
       let e := 0
       decide ((List.range 32).find? (fun e => (tl.crumb e).st == 0) = some e ∧ w.fn = 0 ∧ cis + len ≤ k.cisBytes ∧ addr % 256 + len ≤ 256))) &&
     (let w : IWord := wd 1 0 1 2 0 0x7F
      let x : W64 := (0x80 : W64)
      let t := 0
      let r : Run := wr
      let k : LKernel := wk
      decide ((s.tile t).running = some (r, k) ∧ s.canIssue t 0x64 w x = true) &&
      (let tl := s.issuing t r 0x64
       let y := tl.ctx r.ctx
       let len := fld w.imm.toNat 7 0 + 1
       let cis := (y.aGet w.sb.toNat).toNat
       let addr := (y.aGet w.sa.toNat + x).toNat
       let u := tl.setCtx r.ctx (y.mark true)
       let e := 0
       decide ((List.range 32).find? (fun e => (tl.crumb e).st == 0) = some e ∧ w.fn = 1 ∧ readable u k cis len = true ∧ addr % 256 + len ≤ 256))) &&
     (let w : IWord := wd 2 0 1 0 0 7
      let x : W64 := (0x80 : W64)
      let t := 0
      let r : Run := wr
      let k : LKernel := wk
      decide ((s.tile t).running = some (r, k) ∧ s.canIssue t 0x64 w x = true) &&
      (let tl := s.issuing t r 0x64
       let y := tl.ctx r.ctx
       let e := 0
       decide ((List.range 32).find? (fun e => (tl.crumb e).st == 0) = some e ∧ w.fn = 2 ∧ (y.aGet w.sa.toNat).toNat % 8 = 0)))) &&
    (let s := ws { wt with crumbs := [(3, { Crumb.none with st := 1, len := 8 })] }
     let t := 0
     let e := 3
     let r : Run := wr
     let k : LKernel := wk
     let tl := s.tile t
     let c := tl.crumb e
     decide (tl.running = some (r, k) ∧ s.tileFrozen t = false ∧ (List.range 32).filter (fun e => (tl.crumb e).st == 1) = [e] ∧ tl.eligible k = [] ∧ s.waits = [] ∧ tl.wf = true ∧ spWf dTile s.tiles = true ∧ (s.tileAs t r.ctx).all (fun as => decide (tl.cached as r.sel c.addr = none)) = true))) = true := by decide +kernel

/-- States and operands that meet the hypotheses of `FlumeAnswers`, clause by clause. -/
theorem witness_FlumeAnswers :
   ((let s := ws { wt with chans := [(1, wch 0 2)], flights := [wfl 1 false .none (some (0, [1, 2, 3, 4, 5, 6, 7, 8]))] }
     let t := 0
     let tag := 4
     let r : Run := wr
     let k : LKernel := wk
     let f : Flight := wfl 1 false .none (some (0, [1, 2, 3, 4, 5, 6, 7, 8]))
     let tl := s.tile t
     decide (tl.kernel = some (r, k) ∧ tl.flight tag = some f) &&
     (let data := ([1, 2, 3, 4, 5, 6, 7, 8] : List Byte)
      decide (f.ans = some (0, data) ∧ f.write = false ∧ f.chan < 32) &&
      (let u := (tl.dropFlight tag).perf 0x8020 ((s.time - f.t0) * tileMhz s t / 1000)
       let c := u.chan f.chan
       decide ((c.st = 2 ∧ c.stopping = false) ∨ u.aborting = true)))) &&
    (let s := ws { wt with chans := [(1, wch 0 2)], flights := [wfl 0x83 false .none (some (0, [1, 2, 3, 4, 5, 6, 7, 8]))], crumbs := [(3, { Crumb.none with st := 2, len := 8, cis := 4104 })] }
     let t := 0
     let tag := 4
     let r : Run := wr
     let k : LKernel := wk
     let f : Flight := wfl 0x83 false .none (some (0, [1, 2, 3, 4, 5, 6, 7, 8]))
     let tl := s.tile t
     decide (tl.kernel = some (r, k) ∧ tl.flight tag = some f) &&
     (let data := ([1, 2, 3, 4, 5, 6, 7, 8] : List Byte)
      decide (f.ans = some (0, data) ∧ f.write = false ∧ 0x80 ≤ f.chan ∧ r.jmode = 0))) &&
    (let s := ws { wt with chans := [(1, wch 1 2)], flights := [wfl 1 true .none (some (0, []))] }
     let t := 0
     let tag := 4
     let r : Run := wr
     let k : LKernel := wk
     let f : Flight := wfl 1 true .none (some (0, []))
     let tl := s.tile t
     decide (tl.kernel = some (r, k) ∧ tl.flight tag = some f) &&
     (let data := ([] : List Byte)
      decide (f.ans = some (0, data) ∧ f.write = true ∧ f.chan < 32))) &&
    (let s := ws { wt with chans := [(1, wch 1 2)], flights := [wfl 0x83 true .none (some (0, []))], crumbs := [(3, { Crumb.none with st := 2, len := 8, cis := 4104 })] }
     let t := 0
     let tag := 4
     let r : Run := wr
     let k : LKernel := wk
     let f : Flight := wfl 0x83 true .none (some (0, []))
     let tl := s.tile t
     decide (tl.kernel = some (r, k) ∧ tl.flight tag = some f) &&
     (let data := ([] : List Byte)
      decide (f.ans = some (0, data) ∧ f.write = true ∧ 0x80 ≤ f.chan))) &&
    (let s := ws { wt with chans := [(1, { wch 0 2 with ring := (wch 0 2).ring.setSlot 0 2 })], flights := [wfl 1 false .none none] }
     let t := 0
     let tag := 4
     let r : Run := wr
     let k : LKernel := wk
     let f : Flight := wfl 1 false .none none
     let tl := s.tile t
     decide (tl.kernel = some (r, k) ∧ tl.flight tag = some f) &&
     (let n := 1
      let slot := 0
      decide (tl.running = some (r, k) ∧ n < 32 ∧ (tl.chan n).ring.sl.getD slot 0 = 2))) &&
    (let s := { wb with tiles := [(0, { wt with regs := [(0, 0x81)], flights := [wfl 1 false .none none] })] }
     let t := 0
     let tag := 4
     let r : Run := wr
     let k : LKernel := wk
     let f : Flight := wfl 1 false .none none
     let lvl := 2
     let lf : Leaf := { kind := 3, addr := 0x10000, port := 0, ports := 0, hint := 0, r := true, w := true }
     decide ((s.tile t).run = some r ∧ (s.tile t).flight tag = some f ∧ f.leaf.kind = 0 ∧ f.ans = none) &&
     (let s1 := aft (walk (s.tileAs t r.ctx) (s.tilePart t) r.sel f.addr) s
      decide ((Dev.go (walk (s.tileAs t r.ctx) (s.tilePart t) r.sel f.addr) s).1 = Except.ok (Except.ok (lf, lvl)) ∧ (s1.tile t).kernel = some (r, k) ∧ spWf dTile s1.tiles = true ∧ lf.kind = 3 ∧ (if f.write then lf.w else lf.r) = true)))) = true := by decide +kernel

/-- States and operands that meet the hypotheses of `Pools`, clause by clause. -/
theorem witness_Pools :
   ((let s := put (wq 2 [(0, 0x10), (1, 3), (4, 9), (8, 4), (0x10, 0x30000)]) [(kvReg 3 0, 2 ^ 63 + 2 ^ 48 + 9 * 2 ^ 28 + 4), (kvReg 3 8, 0x100000), (kvReg 3 0x10, 0x200000), (kvReg 3 0x18, 0x40000), (kvReg 3 0x20, 4)]
     let q := 5
     let c : QCmd := ({ seqno := 7, bytes := blob 64 [(0, 0x10), (1, 3), (4, 9), (8, 4), (0x10, 0x30000)] } : QCmd)
     let s1 := aft (takeCmd q 0x10) s
     let n := c.f 1 1
     let sq := c.f 4 4
     let v := s1.queueView q 3
     let entries := s1.rf (kvReg n 0) 55 48
     decide ((Dev.go (takeCmd q 0x10) s).1 = Except.ok (c) ∧ runs (kvCheck (s1.qPart q) n sq false) s1 = true ∧ c.zero 2 2 = true ∧ c.zero 0xC 4 = true ∧ c.zero 0x18 40 = true ∧ c.f 0x10 8 % 64 = 0) &&
     (let s2 := aft (forAll (List.range (entries * c.f 8 4)) fun i => kvPut v (c.f 0x10 8 + 8 * i) (leBytes 8 0)) s1
      decide (runs (forAll (List.range (entries * c.f 8 4)) fun i => kvPut v (c.f 0x10 8 + 8 * i) (leBytes 8 0)) s1 = true) &&
      (let s3 := aft (kvSetSeq v n sq { isOpen := true, maxpg := c.f 8 4, ptBase := c.f 0x10 8, reserved := 0, inUse := 0, tokens := 0 }) s2
       decide (runs (kvSetSeq v n sq { isOpen := true, maxpg := c.f 8 4, ptBase := c.f 0x10 8, reserved := 0, inUse := 0, tokens := 0 }) s2 = true ∧ runs (completeWith q c.seqno 0x10 0 0) ((kvCounts n (s3.kvUse n).1 (s3.kvUse n).2).next s3) = true)))) &&
    (let s := { put (wq 2 [(0, 0x11), (1, 3), (4, 9), (8, 4)]) [(kvReg 3 0, 2 ^ 63 + 2 ^ 48 + 9 * 2 ^ 28 + 4), (kvReg 3 8, 0x100000), (kvReg 3 0x10, 0x200000), (kvReg 3 0x18, 0x40000), (kvReg 3 0x20, 4)] with pools := [(3, { used := [], seqs := [(9, { isOpen := true, maxpg := 4, ptBase := 0x30000, reserved := 2, inUse := 0, tokens := 0 })] })] }
     let q := 5
     let c : QCmd := ({ seqno := 7, bytes := blob 64 [(0, 0x11), (1, 3), (4, 9), (8, 4)] } : QCmd)
     let s1 := aft (takeCmd q 0x11) s
     let n := c.f 1 1
     let sq := c.f 4 4
     let v := s1.queueView q 3
     let e := s1.kvSeq n sq
     let (u, r) := s1.kvUse n
     decide ((Dev.go (takeCmd q 0x11) s).1 = Except.ok (c) ∧ runs (kvCheck (s1.qPart q) n sq true) s1 = true ∧ c.zero 2 2 = true ∧ c.zero 0xC 52 = true ∧ 0 < c.f 8 4 ∧ c.f 8 4 ≤ s1.kvFree n) &&
     (let s2 := aft (kvSetSeq v n sq { e with reserved := e.reserved + c.f 8 4 }) s1
      decide (runs (kvSetSeq v n sq { e with reserved := e.reserved + c.f 8 4 }) s1 = true) &&
      (let s3 := (kvCounts n u (r + c.f 8 4)).next s2
       decide (runs (completeWith q c.seqno 0x11 0 (s3.kvFree n)) s3 = true)))) &&
    (let s := { put (wq 2 [(0, 0x11), (1, 3), (4, 9), (8, 5)]) [(kvReg 3 0, 2 ^ 63 + 2 ^ 48 + 9 * 2 ^ 28 + 4), (kvReg 3 8, 0x100000), (kvReg 3 0x10, 0x200000), (kvReg 3 0x18, 0x40000), (kvReg 3 0x20, 4)] with pools := [(3, { used := [], seqs := [(9, { isOpen := true, maxpg := 4, ptBase := 0x30000, reserved := 2, inUse := 0, tokens := 0 })] })] }
     let q := 5
     let c : QCmd := ({ seqno := 7, bytes := blob 64 [(0, 0x11), (1, 3), (4, 9), (8, 5)] } : QCmd)
     let s1 := aft (takeCmd q 0x11) s
     let n := c.f 1 1
     let sq := c.f 4 4
     decide ((Dev.go (takeCmd q 0x11) s).1 = Except.ok (c) ∧ runs (kvCheck (s1.qPart q) n sq true) s1 = true ∧ c.zero 2 2 = true ∧ c.zero 0xC 52 = true ∧ 0 < c.f 8 4 ∧ s1.kvFree n < c.f 8 4 ∧ runs (completeWith q c.seqno 0x11 0x610 (s1.kvFree n)) s1 = true)) &&
    (let s := { put (wq 2 [(0, 0x12), (1, 3), (4, 9), (8, 3)]) [(kvReg 3 0, 2 ^ 63 + 2 ^ 48 + 9 * 2 ^ 28 + 4), (kvReg 3 8, 0x100000), (kvReg 3 0x10, 0x200000), (kvReg 3 0x18, 0x40000), (kvReg 3 0x20, 4)] with pools := [(3, { used := [], seqs := [(9, { isOpen := true, maxpg := 4, ptBase := 0x30000, reserved := 2, inUse := 0, tokens := 0 })] })] }
     let q := 5
     let c : QCmd := ({ seqno := 7, bytes := blob 64 [(0, 0x12), (1, 3), (4, 9), (8, 3)] } : QCmd)
     let s1 := aft (takeCmd q 0x12) s
     let n := c.f 1 1
     let sq := c.f 4 4
     let v := s1.queueView q 3
     let e := s1.kvSeq n sq
     let (u, r) := s1.kvUse n
     decide ((Dev.go (takeCmd q 0x12) s).1 = Except.ok (c) ∧ runs (kvCheck (s1.qPart q) n sq true) s1 = true ∧ c.zero 2 2 = true ∧ c.zero 0xC 52 = true) &&
     (let k := min (c.f 8 4) e.reserved
      let s2 := aft (kvSetSeq v n sq { e with reserved := e.reserved - k }) s1
      decide (runs (kvSetSeq v n sq { e with reserved := e.reserved - k }) s1 = true ∧ runs (completeWith q c.seqno 0x12 0 0) ((kvCounts n u (r - k)).next s2) = true))) &&
    (let s := { put (wq 2 [(0, 0x13), (1, 3), (4, 9)]) [(kvReg 3 0, 2 ^ 63 + 9 * 2 ^ 28 + 4), (kvReg 3 8, 0x100000), (kvReg 3 0x10, 0x200000), (kvReg 3 0x18, 0x40000), (kvReg 3 0x20, 4)] with pools := [(3, { used := [], seqs := [(9, { isOpen := true, maxpg := 4, ptBase := 0x30000, reserved := 2, inUse := 0, tokens := 0 })] })] }
     let q := 5
     let c : QCmd := ({ seqno := 7, bytes := blob 64 [(0, 0x13), (1, 3), (4, 9)] } : QCmd)
     let s1 := aft (takeCmd q 0x13) s
     let n := c.f 1 1
     let sq := c.f 4 4
     let v := s1.queueView q 3
     let e := s1.kvSeq n sq
     let (u, r) := s1.kvUse n
     let entries := s1.rf (kvReg n 0) 55 48
     decide ((Dev.go (takeCmd q 0x13) s).1 = Except.ok (c) ∧ runs (kvCheck (s1.qPart q) n sq true) s1 = true ∧ c.zero 2 2 = true ∧ c.zero 8 56 = true ∧ entries * e.maxpg = 0) &&
     (let s2 := aft (kvSetSeq v n sq .none) s1
      decide (runs (kvSetSeq v n sq .none) s1 = true ∧ runs (completeWith q c.seqno 0x13 0 0) ((kvCounts n (u - e.inUse) (r - e.reserved)).next s2) = true))) &&
    (let s := wb
     let n := 63
     let i := 0
     let v := 2 ^ 63 + 9 * 2 ^ 28 + 4
     let o : Origin := wdr
     let off := kvReg n (8 * i)
     decide (n < 64 ∧ i < 4 ∧ s.heard o off = true ∧ s.rb (kvReg n 0) 63 = false ∧ (o.isDrd || o.owns (if i = 0 then fld v 62 60 else s.rf (kvReg n 0) 62 60)) = true)) &&
    (let s := { put wb [(kvReg 3 0, 2 ^ 63 + 2 ^ 48 + 9 * 2 ^ 28 + 4), (kvReg 3 8, 0x100000), (kvReg 3 0x10, 0x200000), (kvReg 3 0x18, 0x40000), (kvReg 3 0x20, 4)] with pools := [(3, { used := [], seqs := [(9, { isOpen := true, maxpg := 4, ptBase := 0x30000, reserved := 2, inUse := 0, tokens := 0 })] })], mem := wb.mem ++ [(0x30003, 0x80)], tiles := [(0, { wt (fun c => { c with osm := [(8, 0x8000000000000003)], s := [(1, 9), (3, 1)] }) with regs := [(0, 0x81)] })] }
     let w : IWord := wd 0 0 1 2 3 0
     let x : W64 := (0x40000010 : W64)
     let t := 0
     let r : Run := wr
     let k : LKernel := wk
     (let v : View := (s.setTile 0 (s.issuing t r 0x57)).tileView 0 0 0 3
      let n := 3
      decide ((s.tile t).running = some (r, k) ∧ s.canIssue t 0x57 w x = true) &&
      (let tl := s.issuing t r 0x57
       let kx := s.seen t r k 0x57 w
       let y := tl.ctx r.ctx
       let s0 := s.setTile t tl
       let count := (y.sGet w.sc.toNat).toNat
       let sq := (y.sGet w.sa.toNat).toNat
       let per := s0.kvHeads n * 512
       decide ((kvBound kx w sq).gives s0 (v, n) s0 ∧ 1 ≤ count ∧ count ≤ 256 ∧ readable tl k (specCis y (specA x)) (per * count) = true ∧ runs (forAll (List.range count) (kvwToken t r.ctx v n sq (fld w.imm.toNat 23 16) (fld w.imm.toNat 5 4) (y.sGet w.sb.toNat).toNat
         per (tl.cisBytes (k.cisOff + specCis y (specA x)) (per * count)))) s0 = true))) &&
     (let v : View := (s.setTile 0 (s.issuing t r 0x58)).tileView 0 0 0 3
      let n := 3
      decide ((s.tile t).running = some (r, k) ∧ s.canIssue t 0x58 w x = true) &&
      (let tl := s.issuing t r 0x58
       let kx := s.seen t r k 0x58 w
       let y := tl.ctx r.ctx
       let s0 := s.setTile t tl
       let count := (y.sGet w.sc.toNat).toNat
       let sq := (y.sGet w.sa.toNat).toNat
       let dst := specCis (tl.ctx r.ctx) (specA x)
       decide ((kvBound kx w sq).gives s0 (v, n) s0 ∧ 1 ≤ count ∧ count ≤ 128) &&
       (let es := got ((List.range count).mapM fun i => kvtEntry v n sq (fld w.imm.toNat 23 16) ((y.sGet w.sb.toNat).toNat + i)) s0
        decide (runs ((List.range count).mapM fun i => kvtEntry v n sq (fld w.imm.toNat 23 16) ((y.sGet w.sb.toNat).toNat + i)) s0 = true ∧ dst + es.flatten.length ≤ k.cisBytes)))))) = true := by decide +kernel

/-- States and operands that meet the hypotheses of `PoolCounts`, clause by clause. -/
theorem witness_PoolCounts :
   (let s := wb
    let n := 63
    let u := 2 ^ 28 - 1
    let r := 0
    decide (n < 64 ∧ spWf regInit s.regs = true ∧ u < 2 ^ 28 ∧ r < 2 ^ 28)) = true := by decide +kernel

/-- States and operands that meet the hypotheses of `CisternAndHubs`, clause by clause. -/
theorem witness_CisternAndHubs :
   ((let s := { wb with tiles := [(0, { wt with soft := [(11, true)] })] }
     let t := 0
     decide (spWf dTile s.tiles = true) &&
     (let tl := s.tile t
      let word := 11
      decide (spGet dBool tl.soft word = true) &&
      (let (bank, line) := cisBankLine word
       let key := bank * 65536 + line
       decide (spGet dNat tl.lineCe key + 1 ≠ 16)))) &&
    (let s := wb
     (let t := 0
      decide (spWf dTile s.tiles = true) &&
      (let bank := 63
       decide (bank < 64 ∧ s.tileUp t = true))) &&
     (let r : HubReq := ({ who := .tile 0, part := 0, write := false, addr := 2 ^ 42, len := 64, hint := 0, pgHint := 0, data := [] } : HubReq)
      let t := 0
      decide (r.who = .tile t) &&
      (let c := (s.headgate (.tile t) (s.tilePart t) r.write r.addr).getD default
       decide (s.headgate (.tile t) (s.tilePart t) r.write r.addr = some c))) &&
     (let h := 3
      decide (h < 4) &&
      (decide (s.waits = [])) &&
      (let set := 0
       let p := 7
       (decide (spWf regInit s.regs = true ∧ spWf dW64 s.active = true ∧ set < 2 ∧ p < 8 ∧ s.rf (weirCfg h set p) 47 24 < 2 ^ 23)) &&
       (let v := 2 ^ 63 + 9 * 2 ^ 24 + 9
        let o := wdr
        decide (set < 2 ∧ p < 8 ∧ (set = 1 → s.nBoards ≠ 0) ∧ s.heard o (weirCfg h set p) = true ∧ bit v 63 = true ∧ fld v 15 0 ≤ fld v 47 24 ∧ ((List.range 8).filter (· ≠ p)).foldl (fun n q => n + if s.rb (weirCfg h set q) 63 then s.rf (weirCfg h set q) 15 0 else 0) 0 +
         fld v 15 0 ≤ s.weirCapacity h set))))) &&
    (let s := wb 2
     (let r : HubReq := ({ who := .queue 5, part := 0, write := false, addr := 0x10000, len := 64, hint := 0, pgHint := 0, data := [] } : HubReq)
      let r' : HubReq := r
      decide ((∀ w ∈ s.waits, w.req.addr / 256 ≠ r'.addr / 256) ∧ runs (hubServe r') s = true ∧ s.fromFlight { r with write := false } = some r')) &&
     (let r : HubReq := ({ who := .queue 5, part := 0, write := true, addr := 0x10000, len := 64, hint := 0, pgHint := 0, data := List.replicate 64 0 } : HubReq)
      let r' : HubReq := r
      decide ((∀ w ∈ s.waits, w.req.addr / 256 ≠ r'.addr / 256) ∧ runs (hubServe r') s = true ∧ s.fromFlight { r with write := true } = some r'))) &&
    (let s := { wb with active := [(weirCfg 1 0 0, 2 ^ 63)] }
     let r : HubReq := ({ who := .queue 5, part := 0, write := false, addr := 0x10000, len := 64, hint := 0, pgHint := 0, data := [] } : HubReq)
     let r' : HubReq := r
     decide ((∀ w ∈ s.waits, w.req.addr / 256 ≠ r'.addr / 256) ∧ ((hubServe r').go s).1 = .error .wait ∧ s.fromFlight { r with write := false } = some r')) &&
    (let s := { wb with snaps := [wsn] }
     let r : HubReq := ({ who := .queue 5, part := 0, write := true, addr := 0x10000, len := 64, hint := 0, pgHint := 0, data := List.replicate 64 0 } : HubReq)
     let r' : HubReq := r
     decide ((∀ w ∈ s.waits, w.req.addr / 256 ≠ r'.addr / 256) ∧ ((hubServe r').go s).1 = .error .wait ∧ s.fromFlight { r with write := true } = some r')) &&
    (let s := aft (hubWrite 0 0 0 0x10000 [1, 2, 3]) wb
     let h := 0
     decide (h < 4 ∧ s.rb (mscMaint h) 2 = false) &&
     (let s1 (op : Nat) := (s.shadowing (mscMaint h) op).setF (mscMaint h) 2 2 1
      let flush := forAll (s.msc.filter fun e => e.2.dirty != 0) fun e => do
       if (← get).hubOf (e.1 * 256) = h then flushLine (e.1 * 256)
      (decide (runs (flush) (s1 1) = true)) &&
      (decide (runs (flush) (s1 2) = true)))) &&
    (let s := put wb [(mscMaint 3, 4)]
     let h := 3
     decide (h < 4) &&
     (let s := put wb [(mscMaint 3, 4)]
      decide (s.rb (mscMaint h) 2 = true)))) = true := by decide +kernel

/-- States and operands that meet the hypotheses of `AddressSpaces`, clause by clause. -/
theorem witness_AddressSpaces :
   ((let s := wb
     (let n := 63
      let v := 2 ^ 63 + 0x1000
      let o : Origin := wdr
      decide (n < 64 ∧ s.heard o (asReg n 0) = true ∧ s.rb (asReg n 0) 63 = false ∧ o.mine (fld v 62 60) = true)) &&
     (let n := 1
      (let o : Origin := wdr
       decide (n < 64) &&
       (decide (s.heard o (asReg n 0x10) = true ∧ o.mine (s.rf (asReg n 0) 62 60) = true ∧ s.asBusy n = false ∧ s.rn (asReg n 0x28) = 0 ∧ s.rn (asReg n 0x30) = 0)) &&
       (decide (s.heard o (asReg n 0x18) = true ∧ o.mine (s.rf (asReg n 0) 62 60) = true ∧ s.asBusy n = false))) &&
      (decide (n < 64 ∧ s.stale n = false)))) &&
    (let n := 63
     decide (n < 64))) = true := by decide +kernel

/-- States and operands that meet the hypotheses of `PageFrames`, clause by clause. -/
theorem witness_PageFrames :
   ((let s := { (wq 1 [(0, 0x21), (8, 0x30000)]) with frames := [(3, { Frame.zero with state := 2, fwd := 4 })] }
     let q := 5
     let c : QCmd := ({ seqno := 7, bytes := blob 64 [(0, 0x21), (8, 0x30000)] } : QCmd)
     let s1 := aft (takeCmd q 0x21) s
     let p := s1.qPart q
     let a := c.f 8 8
     let f := s1.frame (frameOf a)
     decide ((Dev.go (takeCmd q 0x21) s).1 = Except.ok (c) ∧ c.zero 1 7 = true ∧ c.zero 0x10 48 = true ∧ s1.migFrames p [a] = none ∧ f.state = 2 ∧ runs (completeWith q c.seqno 0x21 0 0) ((s1.dropFrame (frameOf a)).setFrame (frameOf a) { f with state := 0, fwd := 0 }) = true)) &&
    (let s := wq 1 [(0, 0x24), (1, 1), (4, 2), (8, 0x30000)]
     let q := 5
     let c : QCmd := ({ seqno := 7, bytes := blob 64 [(0, 0x24), (1, 1), (4, 2), (8, 0x30000)] } : QCmd)
     let s1 := aft (takeCmd q 0x24) s
     let p := s1.qPart q
     let n := c.f 4 4
     let fs := frameRun (c.f 8 8) n
     decide ((Dev.go (takeCmd q 0x24) s).1 = Except.ok (c) ∧ c.zero 2 2 = true ∧ c.zero 0x10 48 = true ∧ c.f 1 1 ≤ 1 ∧ 1 ≤ n ∧ n ≤ 65536 ∧ s1.migFrames p fs = none ∧ runs (completeWith q c.seqno 0x24 0 0) (fs.foldl (fun s a =>
         s.setFrame (frameOf a) { s.frame (frameOf a) with pin := c.f 1 1 == 1 }) s1) = true)) &&
    (let s := { (wq 1 [(0, 0x23), (4, 1), (8, 0x30000)]) with frames := [(3, { Frame.zero with mirror := true, mframe := 2 ^ 24 + 1 }), (16777217, { Frame.zero with mcopy := true, mframe := 3 })] }
     let q := 5
     let c : QCmd := ({ seqno := 7, bytes := blob 64 [(0, 0x23), (4, 1), (8, 0x30000)] } : QCmd)
     let s1 := aft (takeCmd q 0x23) s
     let p := s1.qPart q
     let n := c.f 4 4
     let fs := frameRun (c.f 8 8) n
     decide ((Dev.go (takeCmd q 0x23) s).1 = Except.ok (c) ∧ c.zero 1 3 = true ∧ c.zero 0x10 48 = true ∧ 1 ≤ n ∧ n ≤ 65536 ∧ s1.migFrames p fs = none ∧ (∀ a ∈ fs, (s1.frame (frameOf a)).state ≠ 1 ∧ (s1.frame (frameOf a)).state ≠ 2 ∧ (s1.frame (frameOf a)).shared = false) ∧ runs (completeWith q c.seqno 0x23 0 0) (fs.foldl (fun s a =>
         let f := s.frame (frameOf a)
         if f.mirror then (s.setFrame f.mframe { s.frame f.mframe with mcopy := false, mframe := 0 }).setFrame (frameOf a)
           { f with mirror := false, mstale := 0, mframe := 0 } else s) s1) = true)) &&
    (let s := put { (wq 1 [(0, 0x22), (4, 1), (8, 0x10000), (0x10, boardBase + 0x10000)]) with frames := [], boards := 1, boardGib := 256 } [(granReg boardBase, 2 ^ 31)]
     let q := 5
     let c : QCmd := ({ seqno := 7, bytes := blob 64 [(0, 0x22), (4, 1), (8, 0x10000), (0x10, boardBase + 0x10000)] } : QCmd)
     let s1 := aft (takeCmd q 0x22) s
     let p := s1.qPart q
     let n := c.f 4 4
     let fs := frameRun (c.f 8 8) n
     let ms := frameRun (c.f 0x10 8) n
     decide ((Dev.go (takeCmd q 0x22) s).1 = Except.ok (c) ∧ c.zero 1 3 = true ∧ c.zero 0x18 40 = true ∧ 1 ≤ n ∧ n ≤ 65536 ∧ c.f 0x10 8 ≠ 0 ∧ s1.migFrames p (fs ++ ms) = none ∧ (∀ x ∈ fs.zip ms, s1.hubOf x.1 = s1.hubOf x.2 ∧ weirSet x.1 ≠ weirSet x.2) ∧ (∀ a ∈ fs, (s1.frame (frameOf a)).state = 0 ∧ (s1.frame (frameOf a)).mirror = false ∧ (s1.frame (frameOf a)).mcopy = false) ∧ (∀ a ∈ ms, let f := s1.frame (frameOf a)
         f.state = 0 ∧ f.pin = false ∧ f.mirror = false ∧ f.mcopy = false ∧ f.shared = false))) &&
    (let s := { (wq 1 [(0, 0x25), (4, 1), (8, 0x30000), (0x10, 0x40000)]) with frames := [(3, { Frame.zero with dirty := 5 })] }
     let q := 5
     let c : QCmd := ({ seqno := 7, bytes := blob 64 [(0, 0x25), (4, 1), (8, 0x30000), (0x10, 0x40000)] } : QCmd)
     let s1 := aft (takeCmd q 0x25) s
     let p := s1.qPart q
     let n := c.f 4 4
     let fs := frameRun (c.f 8 8) n
     let buf := c.f 0x10 8
     let bs := fs.flatMap fun a => leBytes 2 (s1.frame (s1.scanFrame (frameOf a))).dirty
     decide ((Dev.go (takeCmd q 0x25) s).1 = Except.ok (c) ∧ c.zero 2 2 = true ∧ c.zero 0x18 40 = true ∧ c.f 1 1 = 0 ∧ 1 ≤ n ∧ n ≤ 65536 ∧ s1.migFrames p (fs ++ frameRun buf (ceilDiv (2 * n) 65536)) = none ∧ (∀ a ∈ fs, (s1.frame (s1.scanFrame (frameOf a))).state ≠ 1) ∧ (∀ x ∈ pieces buf bs.length, s1.headgate (.queue q) p true x.1 = none)) &&
     (let s2 := aft (dpaWrite p 0 buf bs) s1
      decide (runs (dpaWrite p 0 buf bs) s1 = true ∧ runs (completeWith q c.seqno 0x25 0 0) s2 = true))) &&
    (let s := wq 1 [(0, 0x20), (8, 0x30000), (0x10, 0xF0000)]
     let q := 5
     let c : QCmd := ({ seqno := 7, bytes := blob 64 [(0, 0x20), (8, 0x30000), (0x10, 0xF0000)] } : QCmd)
     let s1 := aft (takeCmd q 0x20) s
     let p := s1.qPart q
     let src := c.f 8 8
     let dst := c.f 0x10 8
     let a := s1.frame (frameOf src)
     let b := s1.frame (frameOf dst)
     decide ((Dev.go (takeCmd q 0x20) s).1 = Except.ok (c) ∧ c.zero 1 7 = true ∧ c.zero 0x38 8 = true ∧ src ≠ dst ∧ s1.migFrames p [src, dst] = none ∧ s1.hubOf src = s1.hubOf dst ∧ (∀ f ∈ [a, b], f.state = 0 ∧ f.pin = false ∧ f.mirror = false ∧ f.mcopy = false ∧ f.shared = false) ∧ (s1.moves.filter fun m => s1.hubOf (m.src * 65536) == s1.hubOf src).length < 16 ∧ s1.snapNames (frameOf src) = false ∧ s1.snapNames (frameOf dst) = false)) &&
    (let s := { wb with moves := [{ queue := 5, seqno := 7, part := 0, src := 3, dst := 15, ptes := [0, 0, 0, 0] }], frames := [(3, { Frame.zero with state := 1 }), (15, { Frame.zero with state := 1 })] }
     let src := 3
     let m : Move := ({ queue := 5, seqno := 7, part := 0, src := 3, dst := 15, ptes := [0, 0, 0, 0] } : Move)
     decide (s.moves.find? (fun m => m.src == src) = some m ∧ m.ptes = [0, 0, 0, 0]))) = true := by decide +kernel

/-- States and operands that meet the hypotheses of `Kernels`, clause by clause. -/
theorem witness_Kernels :
   ((let s := { (wq 0 [(0, 2), (8, 1), (0x10, 0x40000)]) with tiles := [(0, wtb none)], mem := wb.mem ++ bytesAt 0x40000 wimg }
     let q := 5
     let c : QCmd := ({ seqno := 7, bytes := blob 64 [(0, 2), (8, 1), (0x10, 0x40000)] } : QCmd)
     let s1 := aft (takeCmd q 2) s
     let ctx := s1.rf (qReg q 0) 49 48
     let ext := (none : Option (List Byte))
     let h := s.nextId % 2 ^ 32
     decide ((Dev.go (takeCmd q 2) s).1 = Except.ok (c) ∧ c.zero 2 6 = true ∧ c.zero 0x18 40 = true ∧ c.f 1 1 = ctx ∧ s1.tilesBlock q (c.f 8 8) true = 0) &&
     (let s2 := aft (loadKernel q (c.f 1 1) (c.f 8 8) (c.f 0x10 8) ext) s1
      decide ((Dev.go (loadKernel q (c.f 1 1) (c.f 8 8) (c.f 0x10 8) ext) s1).1 = Except.ok (0, h) ∧ runs (complete q c.seqno (recordBytes c.seqno 0 2 0xFF 0 0 h s2.time)) s2 = true))) &&
    (let s := { (wq 0 [(0, 3), (4, 1)]) with tiles := [(0, wtb none)] }
     let q := 5
     let c : QCmd := ({ seqno := 7, bytes := blob 64 [(0, 3), (4, 1)] } : QCmd)
     let s1 := aft (takeCmd q 3) s
     let ctx := s1.rf (qReg q 0) 49 48
     let k := wk
     decide ((Dev.go (takeCmd q 3) s).1 = Except.ok (c) ∧ c.zero 1 3 = true ∧ c.zero 8 56 = true ∧ s1.kernelOf q (c.f 4 4) = some k ∧ Nat.land k.group (s1.rn (qReg q 8)) = k.group ∧ (∀ l ∈ s1.launches, l.handle = c.f 4 4 → l.part ≠ s1.qPart q)) &&
     (let s2 := aft (slcCancel fun p => p.handle == c.f 4 4) s1
      decide (runs (slcCancel fun p => p.handle == c.f 4 4) s1 = true ∧ runs (completeWith q c.seqno 3 0 0) ((tilesOf k.group).foldl (fun s t =>
         let tl := s.tile t
         let maps := ((findKernel (tl.ctx ctx) (c.f 4 4)).map (·.sfuMap)).getD []
         let u := { tl with sfu := maps.foldl (fun m i => spSet dSfu m i .none) tl.sfu }
         s.setTile t (u.setCtx ctx { u.ctx ctx with kernels := (u.ctx ctx).kernels.filter fun k => k.handle != c.f 4 4 })) s2) = true))) &&
    (let s := { (wq 0 [(0, 1), (4, 1), (8, 0x50000), (0x10, 9)]) with tiles := [(0, wtb none)] }
     let q := 5
     let c : QCmd := ({ seqno := 7, bytes := blob 64 [(0, 1), (4, 1), (8, 0x50000), (0x10, 9)] } : QCmd)
     let s1 := aft (takeCmd q 1) s
     let k := wk
     decide ((Dev.go (takeCmd q 1) s).1 = Except.ok (c) ∧ c.zero 1 3 = true ∧ c.zero 0x1C 36 = true ∧ c.f 8 8 % 64 = 0 ∧ s1.kernelOf q (c.f 4 4) = some k ∧ s1.tilesBlock q k.group false = 0)) &&
    (let s := { wb with tiles := [(0, wtb none)] }
     let q := 5
     let mask := 1
     let image := 0x40000
     let ext := (none : Option (List Byte))
     let h : List Byte := val (got (vaRead (s.cmdView q 0) 0 image 128 ext) s)
     let ts := tilesOf mask
     decide ((Dev.go (vaRead (s.cmdView q (ts.headD 0)) 0 image 128 ext) s).1 = Except.ok (.ok h) ∧ hdrOk h = false)) &&
    (let s := { wb with tiles := [(0, wtb none)], mem := wb.mem ++ bytesAt 0x40000 (let h := blob 124 [(0, 0x4B5A4B48), (4, 1), (6, 2), (8, 8), (0x20, 1), (0x21, 1)]; h ++ leBytes 4 (crc32c h)) }
     let q := 5
     let mask := 1
     let image := 0x40000
     let ext := (none : Option (List Byte))
     let h : List Byte := val (got (vaRead (s.cmdView q 0) 0 image 128 ext) s)
     let ts := tilesOf mask
     let f := fun off n => leNat ((h.drop off).take n)
     decide ((Dev.go (vaRead (s.cmdView q (ts.headD 0)) 0 image 128 ext) s).1 = Except.ok (.ok h) ∧ hdrOk h = true ∧ f 6 2 ≠ 1)) &&
    (let s := put ({ wb with tiles := [(0, wtb none)], mem := wb.mem ++ bytesAt 0x40000 wimg }) [(partTiles 0, 1), (partTiles 1, 2)]
     let q := 5
     let mask := 3
     let image := 0x40000
     let ext := (none : Option (List Byte))
     let h : List Byte := val (got (vaRead (s.cmdView q 0) 0 image 128 ext) s)
     let ts := tilesOf mask
     let f := fun off n => leNat ((h.drop off).take n)
     decide ((Dev.go (vaRead (s.cmdView q (ts.headD 0)) 0 image 128 ext) s).1 = Except.ok (.ok h) ∧ hdrOk h = true ∧ f 6 2 = 1) &&
     (let t := 1
      decide (ts.find? (fun t => s.tilePart t != s.qPart q) = some t))) &&
    (let s := { wb with tiles := [(0, wtb none)], mem := wb.mem ++ bytesAt 0x40000 wimg }
     let q := 5
     let mask := 3
     let image := 0x40000
     let ext := (none : Option (List Byte))
     let h : List Byte := val (got (vaRead (s.cmdView q 0) 0 image 128 ext) s)
     let ts := tilesOf mask
     let f := fun off n => leNat ((h.drop off).take n)
     decide ((Dev.go (vaRead (s.cmdView q (ts.headD 0)) 0 image 128 ext) s).1 = Except.ok (.ok h) ∧ hdrOk h = true ∧ f 6 2 = 1 ∧ (∀ t ∈ ts, s.tilePart t = s.qPart q) ∧ (ts.length < f 0x20 1 ∨ f 0x21 1 < ts.length))) &&
    (let s := { wb with tiles := [(0, { wtb none with regs := [(0, 0x81)] })], mem := wb.mem ++ bytesAt 0x40000 wimg }
     let q := 5
     let c := 0
     let mask := 1
     let image := 0x40000
     let ext := (none : Option (List Byte))
     let h : List Byte := val (got (vaRead (s.cmdView q 0) 0 image 128 ext) s)
     let ts := tilesOf mask
     let f := fun off n => leNat ((h.drop off).take n)
     decide ((Dev.go (vaRead (s.cmdView q (ts.headD 0)) 0 image 128 ext) s).1 = Except.ok (.ok h) ∧ hdrOk h = true ∧ f 6 2 = 1 ∧ (∀ t ∈ ts, s.tilePart t = s.qPart q) ∧ f 0x20 1 ≤ ts.length ∧ ts.length ≤ f 0x21 1) &&
     (let t := 0
      decide (ts.find? (fun t => !bit (ctxCfg (s.tile t) c) 63) = some t)))) = true := by decide +kernel

/-- States and operands that meet the hypotheses of `Launches`, clause by clause. -/
theorem witness_Launches :
   ((let s := { wb with tiles := [(0, { wtb none with act := some 0 })], launches := [wl 0 0] }
     let id := 1
     let ext := (none : Option (List Byte))
     let l : Launch := wl 0 0
     let ts := tilesOf l.mask
     decide (s.launch id = some l ∧ l.phase = 0 ∧ ts.all (s.startOk l) = true ∧ (∀ t ∈ ts, s.tileUp t = true ∧ s.tileFrozen t = false ∧ ((s.tile t).ctx l.ctx).poison = false)) &&
     (let sels := ts.map fun t => (t, s.vsel (s.tileAs t l.ctx))
      let s1 := ts.foldl (fun u t =>
       match findKernel ((u.tile t).ctx l.ctx) l.handle with
       | none => u
       | some k => u.setTile t ((u.tile t).begin l k (((sels.find? fun e => e.1 == t).map Prod.snd).getD 0) (s.jrnMode l.part)
           (s.rf (jrnReg l.part 0x10) 31 0) u.time)) s
      decide (runs (forAll ts fun t => readArgs l t ext) (s1.setLaunch { l with phase := 1, sels := sels, t0 := s1.time }) = true))) &&
    (let s := { wb with tiles := [(0, wtb (some { wr with ended := true, ports := 0 }))], launches := [wl 1 0] }
     let id := 1
     let l : Launch := wl 1 0
     let ts := tilesOf l.mask
     decide (s.launch id = some l ∧ l.phase = 1 ∧ (∀ t ∈ ts, (s.tile t).drained = true)) &&
     (let ports := ts.foldl (fun m t => Nat.lor m (((s.tile t).run.map (·.ports)).getD 0)) 0
      let ps := (List.range 4).filter fun p => bit ports p && s.rb (flushReg p l.part) 7
      decide (ps = [] ∧ runs (launchEnd l) s = true))) &&
    (let s := put { wb with tiles := [(0, wtb (some { wr with ended := true, ports := 8 }))], launches := [wl 1 0] } [(flushReg 3 0, 0x80)]
     let id := 1
     let l : Launch := wl 1 0
     let ts := tilesOf l.mask
     decide (s.launch id = some l ∧ l.phase = 1 ∧ (∀ t ∈ ts, (s.tile t).drained = true)) &&
     (let ports := ts.foldl (fun m t => Nat.lor m (((s.tile t).run.map (·.ports)).getD 0)) 0
      let ps := (List.range 4).filter fun p => bit ports p && s.rb (flushReg p l.part) 7
      decide (ps ≠ [] ∧ runs (forAll ps fun p => do
         let s ← get
         let r := s.rn (flushReg p l.part)
         sendHostRead (.queue l.queue) p (fld r 5 0) (fld r 63 8 * 256) 0) (s.setLaunch { l with phase := 2, flush := (List.range ps.length).map fun i => s.nextId + i }) = true))) &&
    (let s := { wb with tiles := [(0, wtb (some wr))], launches := [wl 1 1], time := 1000 }
     let id := 1
     let l : Launch := wl 1 1
     decide (s.launch id = some l ∧ l.phase = 1 ∧ l.timeout ≠ 0 ∧ l.t0 + 1000 * l.timeout ≤ s.time))) = true := by decide +kernel

/-- States and operands that meet the hypotheses of `LaunchRegisters`, clause by clause. -/
theorem witness_LaunchRegisters :
   (let tl : Tile := wtb none
    decide (tl.wf = true)) = true := by decide +kernel

/-- States and operands that meet the hypotheses of `Contexts`, clause by clause. -/
theorem witness_Contexts :
   ((let s := { (wq 0 [(0, 4), (1, 3), (8, 1)]) with tiles := [(0, wtb none)] }
     let q := 5
     let c : QCmd := ({ seqno := 7, bytes := blob 64 [(0, 4), (1, 3), (8, 1)] } : QCmd)
     let s1 := aft (takeCmd q 4) s
     decide ((Dev.go (takeCmd q 4) s).1 = Except.ok (c) ∧ c.zero 2 6 = true ∧ c.zero 0x10 48 = true ∧ c.f 1 1 < 4 ∧ s1.tilesBlock q (c.f 8 8) false = 0 ∧ c.f 8 8 ≠ 0)) &&
    (let s := { wb with tiles := [(0, { wtb none with act := some 0 })], switches := [{ id := 4, queue := 5, seqno := 7, ctx := 1, todo := 1 }] }
     let t := 0
     let tl := s.tile t
     let w := ({ id := 4, queue := 5, seqno := 7, ctx := 1, todo := 1 } : CtxCmd)
     decide (s.nextSwitch t = some w ∧ tl.run = none ∧ tl.switch = none ∧ (∀ l ∈ s.launches, l.id < w.id → bit l.mask t = true → tl.act ≠ some l.ctx) ∧ s.tileFrozen t = false ∧ tl.act ≠ some w.ctx)) &&
    (let s := { wb with tiles := [(0, { wtb none with switch := some { cmd := 4, dest := 1, step := 3, t0 := 0 }, post := [[0x80000000000000C1, 0, 0, 0]] })], switches := [{ id := 4, queue := 5, seqno := 7, ctx := 1, todo := 1 }] }
     let t := 0
     let c : QCmd := ({ seqno := 7, bytes := [] } : QCmd)
     let tl := s.tile t
     let w := ({ cmd := 4, dest := 1, step := 3, t0 := 0 } : Switch)
     let i := 0
     decide (tl.switch = some w ∧ w.step = 3 ∧ tl.post.findIdx? (isHookAck w.dest) = some i) &&
     (let s2 := s.setTile t { tl.restore t w.dest with post := tl.post.eraseIdx i, act := some w.dest, switch := none, tlb := [] }
      let d := ({ id := 4, queue := 5, seqno := 7, ctx := 1, todo := 1 } : CtxCmd)
      decide (s2.switches.find? (fun c => c.id == w.cmd) = some d ∧ runs (switchDone d t) s2 = true))) &&
    (let s := { wb with tiles := [(0, { wtb none with switch := some { cmd := 4, dest := 1, step := 3, t0 := 0 } })], time := 40000 }
     let t := 0
     let tl := s.tile t
     let w := ({ cmd := 4, dest := 1, step := 3, t0 := 0 } : Switch)
     decide (tl.switch = some w ∧ w.step = 3 ∧ w.t0 + 40000 ≤ s.time ∧ (∀ e ∈ tl.post, isHookAck w.dest e = false))) &&
    (let s := wb
     let t := 0
     let c := 3
     (let v := 2 ^ 63 + 161 * 2 ^ 16 + 12127
      let o : Origin := wdr
      decide (s.tileUp t = true ∧ o.mine (s.tilePart t) = true) &&
      (let tl := s.tile t
       let new := keepBits v (maskBits 63 63 + maskBits 29 16 + maskBits 13 0)
       let off := tileReg t (0x1000 + 8 * c)
       decide (c < 4 ∧ s.heard o off = true ∧ tl.cfgOk c new = true))) &&
     (let v := 0x81
      let o : Origin := wdr
      decide (s.tileUp t = true ∧ o.mine (s.tilePart t) = true) &&
      (let tl := s.tile t
       let new := keepBits v 0xBFBFBFBF
       decide (s.heard o (tileReg t 0) = true ∧ (List.range (4)).all (fun c => decide (tl.inUse c = true → fld new (8 * c + 7) (8 * c) = fld (tl.reg 0).toNat (8 * c + 7) (8 * c))) = true))))) = true := by decide +kernel

/-- States and operands that meet the hypotheses of `SaveRestores`, clause by clause. -/
theorem witness_SaveRestores :
   (let tl : Tile := wtb none
    let c := 0
    decide (tl.wf = true) &&
    (let a := (saveAt tl c).getD default
     decide (saveAt tl c = some a))) = true := by decide +kernel

/-- States and operands that meet the hypotheses of `SluiceInstructions`, clause by clause. -/
theorem witness_SluiceInstructions :
   ((let s := wcom { mask := 1, stages := [] } (wtc (wsd 1 3 0x1000 0x2000))
     let w : IWord := wd 0 0 0 0 0 0
     let x : W64 := (0x40000000 : W64)
     let t := 0
     let r : Run := wr
     let k : LKernel := wk
     decide ((s.tile t).running = some (r, k)) &&
     (decide (s.canIssue t 0x70 w x = true) &&
      (let tl := s.issuing t r 0x70
       let s0 := s.setTile t tl
       let slot := slcPhys k (fld w.imm.toNat 3 0)
       let at' := specCis (tl.ctx r.ctx) (specA x)
       let bs := tl.cisBytes (k.cisOff + at') 128
       let d := slcD bs
       let key : OpKey := (d.comm, d.tag, d.step)
       let posts := ((s0.op key).map fun o => o.posts).getD []
       let was := spGet dSlc tl.slc slot
       decide (readable tl k at' 128 = true ∧ slcDescOk bs = true ∧ (s0.comm d.comm).all (fun c => decide (slcCountOk c d = true)) = true ∧ slcRanges d (((s0.comm d.comm).map fun c => c.total d.stages).getD 1) k.cisBytes = true ∧ s0.slcCommOk (s0.tilePart t) (some t) d = true ∧ d.late = false ∧ was.state ≠ 1 ∧ posts.all (fun (p : SlcPost) => decide (p.who = .tile t → p.ended = true ∧ p.kept = false)) = true ∧ s0.openOps < 256 ∧ tl.run = some r ∧ runs (slcOpen { who := .tile t, slot := slot, ctx := r.ctx, sel := r.sel, cisOff := k.cisOff, launch := r.launch,                    handle := k.handle, jmode := r.jmode, jstep := r.jstep, seqno := 0, desc := bs, t0 := s.time, ended := false,                    status := 0, detail := 0, flags := 0, got := [], taken := false, filled := 0, since := none, kept := false }) (s0.setTile t { tl with slc := spSet dSlc tl.slc slot { was with state := 1, tag := d.tag, ring := d.ringOf } }) = true))) &&
     (decide (s.canIssue t 0x71 w x = true) &&
      (let tl := s.issuing t r 0x71
       let sl := slcPhys k (fld w.imm.toNat 3 0)
       let g := spGet dSlc tl.slc sl
       let rec' := if g.state = 0 then slcRecord 0xA09 sl 0 0 0 0 0 0 s.time else g.record
       let at' := specCis (tl.ctx r.ctx) (specA x)
       decide (g.state ≠ 1 ∧ at' + rec'.length ≤ k.cisBytes)))) &&
    (let s := wcom { mask := 3, stages := [] } (wtc (wsd 1 3 0x1000 0x2000))
     let w : IWord := wd 0 0 0 0 0 0
     let x : W64 := (0x40000000 : W64)
     let t := 0
     let r : Run := wr
     let k : LKernel := wk
     decide ((s.tile t).running = some (r, k) ∧ s.canIssue t 0x70 w x = true) &&
     (let tl := s.issuing t r 0x70
      let s0 := s.setTile t tl
      let slot := slcPhys k (fld w.imm.toNat 3 0)
      let at' := specCis (tl.ctx r.ctx) (specA x)
      let bs := tl.cisBytes (k.cisOff + at') 128
      let d := slcD bs
      let key : OpKey := (d.comm, d.tag, d.step)
      let posts := ((s0.op key).map fun o => o.posts).getD []
      let was := spGet dSlc tl.slc slot
      decide (readable tl k at' 128 = true ∧ slcDescOk bs = true ∧ (s0.comm d.comm).all (fun c => decide (slcCountOk c d = true)) = true ∧ slcRanges d (((s0.comm d.comm).map fun c => c.total d.stages).getD 1) k.cisBytes = true ∧ s0.slcCommOk (s0.tilePart t) (some t) d = true ∧ d.late = false ∧ was.state ≠ 1 ∧ posts.all (fun (p : SlcPost) => decide (p.who = .tile t → p.ended = true ∧ p.kept = false)) = true ∧ s0.openOps < 256 ∧ tl.run = some r ∧ runs (slcOpen { who := .tile t, slot := slot, ctx := r.ctx, sel := r.sel, cisOff := k.cisOff, launch := r.launch,                    handle := k.handle, jmode := r.jmode, jstep := r.jstep, seqno := 0, desc := bs, t0 := s.time, ended := false,                    status := 0, detail := 0, flags := 0, got := [], taken := false, filled := 0, since := none, kept := false }) (s0.setTile t { tl with slc := spSet dSlc tl.slc slot { was with state := 1, tag := d.tag, ring := d.ringOf } }) = true))) &&
    (let s := (wcom { mask := 1, stages := [] } (wtc (wsd 1 3 0x1000 0x2000))).setTile 0 { (wcom { mask := 1, stages := [] } (wtc (wsd 1 3 0x1000 0x2000))).tile 0 with slc := [(0, { dSlc 0 with state := 2, record := [1, 2, 3] })] }
     let w : IWord := wd 0 0 0 0 0 0
     let x : W64 := (0x40000000 : W64)
     let t := 0
     let r : Run := wr
     let k : LKernel := wk
     decide ((s.tile t).running = some (r, k) ∧ s.canIssue t 0x71 w x = true) &&
     (let tl := s.issuing t r 0x71
      let sl := slcPhys k (fld w.imm.toNat 3 0)
      let g := spGet dSlc tl.slc sl
      let rec' := if g.state = 0 then slcRecord 0xA09 sl 0 0 0 0 0 0 s.time else g.record
      let at' := specCis (tl.ctx r.ctx) (specA x)
      decide (g.state ≠ 1 ∧ at' + rec'.length ≤ k.cisBytes))) &&
    (let s := (let s := (wq 2 [(0, 0x30), (8, 0x50000)]); wcom (wcm 0) { s with mem := s.mem ++ bytesAt 0x50000 (wsd 2 0 0x40000 0x44000 [(0x1C, 1)]) })
     let s1 := aft (takeCmd 5 0x30) s
     let s2 := aft (vaRead (s1.queueView 5 2) 0 0x50000 128 none) s1
     let q := 5
     let c : QCmd := ({ seqno := 7, bytes := blob 64 [(0, 0x30), (8, 0x50000)] } : QCmd)
     let bs : List Byte := wsd 2 0 0x40000 0x44000 [(0x1C, 1)]
     let v := s1.queueView q 2
     let d := slcD bs
     let key : OpKey := (d.comm, d.tag, d.step)
     let posts := ((s2.op key).map fun o => o.posts).getD []
     decide ((Dev.go (takeCmd q 0x30) s).1 = Except.ok (c) ∧ c.zero 1 7 = true ∧ c.zero 0x10 48 = true ∧ c.f 8 8 % 64 = 0 ∧ (Dev.go (vaRead v 0 (c.f 8 8) 128 none) s1).1 = Except.ok ((.ok bs)) ∧ slcDescOk bs = true ∧ d.srcCis = false ∧ d.dstCis = false ∧ d.ring = false ∧ bit d.stages 0 = false ∧ (s2.comm d.comm).all (fun c => decide (slcCountOk c d = true)) = true ∧ s2.slcCommOk (s2.qPart q) none d = true ∧ d.late = false ∧ posts.all (fun (p : SlcPost) => decide (p.who = .queue q → p.ended = true)) = true ∧ s2.openOps < 256 ∧ runs (slcOpen { who := .queue q, slot := 0xFF, ctx := 0, sel := v.sel, cisOff := 0, launch := 0, handle := 0, jmode := 0, jstep := 0,                  seqno := c.seqno, desc := bs, t0 := s2.time, ended := false, status := 0, detail := 0, flags := 0, got := [],                  taken := false, filled := 0, since := none, kept := false }) s2 = true)) &&
    (let s := wcom { mask := 1, stages := [] } (wtc (wsd 0 3 0 0))
     let w : IWord := wd 0 0 0 0 0 0
     let x : W64 := (0x40000000 : W64)
     let t := 0
     let r : Run := wr
     let k : LKernel := wk
     decide ((s.tile t).running = some (r, k) ∧ s.canIssue t 0x70 w x = true) &&
     (let tl := s.issuing t r 0x70
      let at' := specCis (tl.ctx r.ctx) (specA x)
      let bs := tl.cisBytes (k.cisOff + at') 128
      decide (readable tl k at' 128 = true ∧ slcDescOk bs = false))) &&
    (let s := wcom { mask := 1, stages := [] } (wtc (wsd 1 3 0xFFC0 0))
     let w : IWord := wd 0 0 0 0 0 0
     let x : W64 := (0x40000000 : W64)
     let t := 0
     let r : Run := wr
     let k : LKernel := wk
     decide ((s.tile t).running = some (r, k) ∧ s.canIssue t 0x70 w x = true) &&
     (let tl := s.issuing t r 0x70
      let s0 := s.setTile t tl
      let at' := specCis (tl.ctx r.ctx) (specA x)
      let bs := tl.cisBytes (k.cisOff + at') 128
      let d := slcD bs
      let ranges := slcRanges d (((s0.comm d.comm).map fun c => c.total d.stages).getD 1) k.cisBytes
      decide (readable tl k at' 128 = true ∧ slcDescOk bs = true ∧ (s0.comm d.comm).all (fun c => decide (slcCountOk c d = true)) = true ∧ ranges = false))) &&
    (let s := wtc (wsd 1 3 0x1000 0x2000)
     let w : IWord := wd 0 0 0 0 0 0
     let x : W64 := (0x40000000 : W64)
     let t := 0
     let r : Run := wr
     let k : LKernel := wk
     decide ((s.tile t).running = some (r, k) ∧ s.canIssue t 0x70 w x = true) &&
     (let tl := s.issuing t r 0x70
      let s0 := s.setTile t tl
      let at' := specCis (tl.ctx r.ctx) (specA x)
      let bs := tl.cisBytes (k.cisOff + at') 128
      let d := slcD bs
      let ranges := slcRanges d (((s0.comm d.comm).map fun c => c.total d.stages).getD 1) k.cisBytes
      decide (readable tl k at' 128 = true ∧ slcDescOk bs = true ∧ (s0.comm d.comm).all (fun c => decide (slcCountOk c d = true)) = true ∧ ranges = true ∧ s0.slcCommOk (s0.tilePart t) (some t) d = false))) &&
    (let s := (wcom { mask := 1, stages := [] } (wtc (wsd 1 3 0x1000 0x2000))).setTile 0 { (wcom { mask := 1, stages := [] } (wtc (wsd 1 3 0x1000 0x2000))).tile 0 with slc := [(0, { dSlc 0 with state := 1 })] }
     let w : IWord := wd 0 0 0 0 0 0
     let x : W64 := (0x40000000 : W64)
     let t := 0
     let r : Run := wr
     let k : LKernel := wk
     decide ((s.tile t).running = some (r, k) ∧ s.canIssue t 0x70 w x = true) &&
     (let tl := s.issuing t r 0x70
      let s0 := s.setTile t tl
      let at' := specCis (tl.ctx r.ctx) (specA x)
      let bs := tl.cisBytes (k.cisOff + at') 128
      let d := slcD bs
      let ranges := slcRanges d (((s0.comm d.comm).map fun c => c.total d.stages).getD 1) k.cisBytes
      decide (readable tl k at' 128 = true ∧ slcDescOk bs = true ∧ (s0.comm d.comm).all (fun c => decide (slcCountOk c d = true)) = true ∧ ranges = true ∧ s0.slcCommOk (s0.tilePart t) (some t) d = true ∧ d.late = false ∧ s0.op (d.comm, d.tag, d.step) = none ∧ (spGet dSlc tl.slc (slcPhys k (fld w.imm.toNat 3 0))).state = 1))) &&
    (let s := { wb with mem := wb.mem ++ bytesAt 0x60000 (blob 128 [(0, 1), (0x20, 0xFF), (0x40, 0xFF), (0x60, 0xFF)]) }
     let n := 0
     let v := 2 ^ 63 + 2 ^ 54 + 0x60000
     let o : Origin := wdr
     let off := commReg n
     let new := keepBits v (maskBits 63 54 + maskBits 47 6)
     let part := fld new 62 60
     decide (n < 64 ∧ s.rb off 63 = false ∧ bit new 63 = true ∧ (o.isDrd || o.owns part) = true) &&
     (let r := got (commRead n (fld new 47 6 * 64)) (s.putAt off new)
      let s1 := aft (commRead n (fld new 47 6 * 64)) (s.putAt off new)
      decide (runs (commRead n (fld new 47 6 * 64)) (s.putAt off new) = true) &&
      (let c := ({ mask := 1, stages := [{ alg := 0xFF, ports := 0, n := 0, rank := 0, members := [] }, { alg := 0xFF, ports := 0, n := 0, rank := 0, members := [] }, { alg := 0xFF, ports := 0, n := 0, rank := 0, members := [] }] } : SlcComm)
       decide (r = some c ∧ s1.commOk part c = true ∧ s1.heard o off = true)))) &&
    (let s := { wb with mem := wb.mem ++ bytesAt 0x60000 (blob 128 [(0, 1), (0x20, 0xFF), (0x40, 0xFF), (0x60, 0x1FF)]) }
     let n := 0
     let v := 2 ^ 63 + 2 ^ 54 + 0x60000
     let o : Origin := wdr
     let off := commReg n
     let new := keepBits v (maskBits 63 54 + maskBits 47 6)
     let part := fld new 62 60
     decide (n < 64 ∧ s.rb off 63 = false ∧ bit new 63 = true ∧ (o.isDrd || o.owns part) = true) &&
     (let r := got (commRead n (fld new 47 6 * 64)) (s.putAt off new)
      let s1 := aft (commRead n (fld new 47 6 * 64)) (s.putAt off new)
      decide (runs (commRead n (fld new 47 6 * 64)) (s.putAt off new) = true ∧ (r.all fun c => !s1.commOk part c) = true) &&
      (let s2 := s1.putAt off (s.rn off)
       decide (s2.reaches o off = true))))) = true := by decide +kernel

/-- States and operands that meet the hypotheses of `SluiceWork`, clause by clause. -/
theorem witness_SluiceWork :
   ((let s := { wcom (wcm 0) State.reset with ops := [{ wso [] with sent := [{ kind := 3, stage := 1, hop := 0, unit := 0, off := 0, dest := 1, acked := false }] }] }
     let msg : List Byte := (blob 64 [(0, 4), (1, 1), (8, 7), (12, 5), (24, 1)] : List Byte)
     let c : SlcComm := wcm 0
     let f := dfld msg
     let k : OpKey := (f 4 2, f 8 4, f 0xC 4)
     let s1 := s.leaTake 2 msg
     decide (s1.comm k.1 = some c ∧ f 0 1 = 4)) &&
    (let s := wcom (wcm 0) State.reset
     let msg : List Byte := (blob 128 [(0, 2), (40, 4), (1, 1), (8, 7), (12, 5), (24, 1), (64, 5)] : List Byte)
     let c : SlcComm := wcm 0
     let f := dfld msg
     let k : OpKey := (f 4 2, f 8 4, f 0xC 4)
     let s1 := s.leaTake 2 msg
     let st := ((s1.op k).bind fun o => if o.desc = [] then none else some (slcD o.desc).stages).getD (s1.stagesOf c k.1 k.2.1)
     let from' := c.rankOf st (f 1 1) (f 0x18 4)
     let unit := f 0x10 8
     decide (s1.comm k.1 = some c ∧ 1 ≤ f 0 1 ∧ f 0 1 ≤ 3 ∧ s.staged (unit % 4) + f 0x28 4 ≤ 8 * 2 ^ 20) &&
     (let s3 := (s1.perf (slcReg (unit % 4) 0x108) (1 + ceilDiv (f 0x28 4) 64)).toMember c (f 1 1) from' unit 2 0x30
         (slcPacket k 4 (f 1 1) (f 2 1) 0 unit (c.global st 0) 0 0 0 (f 0x2C 4) (f 0x34 4) [])
      decide (s1.op k = none ∧ runs (slcStep k) (s3.addTerm k
           { kind := f 0 1, stage := f 1 1, hop := f 2 1, src := f 0x18 4, unit := unit, off := f 0x34 4, contrib := f 0x1C 4,             hdr := f 0x20 8, own := false, digest := f 0x2C 4, data := (msg.drop 64).take (f 0x28 4) }) = true))) &&
    (let s := { wcom (wcm 0) State.reset with ops := [{ wso [] with terms := [{ kind := 2, stage := 1, hop := 0, src := 1, unit := 0, off := 0, contrib := 0, hdr := 0, own := false, digest := 0, data := [] }] }] }
     let msg : List Byte := (blob 128 [(0, 2), (40, 4), (1, 1), (8, 7), (12, 5), (24, 1), (64, 5)] : List Byte)
     let c : SlcComm := wcm 0
     let f := dfld msg
     let k : OpKey := (f 4 2, f 8 4, f 0xC 4)
     let s1 := s.leaTake 2 msg
     let unit := f 0x10 8
     decide (s1.comm k.1 = some c ∧ 1 ≤ f 0 1 ∧ f 0 1 ≤ 3 ∧ s.staged (unit % 4) + f 0x28 4 ≤ 8 * 2 ^ 20) &&
     (let o := ({ wso [] with terms := [{ kind := 2, stage := 1, hop := 0, src := 1, unit := 0, off := 0, contrib := 0, hdr := 0, own := false, digest := 0, data := [] }] } : SlcOp)
      decide (s1.op k = some o ∧ (o.terms.any fun t => t.stage == f 1 1 && t.hop == f 2 1 && t.unit == unit && t.off == f 0x34 4 &&
           t.src == f 0x18 4 && !t.own) = true))) &&
    (let s := { wcom { mask := 1, stages := [] } (wtc (wsd 1 3 0x1000 0x2000)) with ops := [wso [{ wsp (wsd 1 3 0x1000 0x2000) with got := [0], taken := true }]] }
     (let comm := 0
      let tag := 7
      let step := 5
      let post := 0
      let o : SlcOp := wso [{ wsp (wsd 1 3 0x1000 0x2000) with got := [0], taken := true }]
      let c : SlcComm := { mask := 1, stages := [] }
      let p : SlcPost := { wsp (wsd 1 3 0x1000 0x2000) with got := [0], taken := true }
      let k : OpKey := (comm, tag, step)
      let d := slcD p.desc
      decide (s.op k = some o ∧ o.posts[post]? = some p ∧ slcComplete s k post = true ∧ s.comm comm = some c ∧ d.opk ≠ 5 ∧ d.late = false) &&
      (let s1 := aft (forAll (slcHubs d (c.total d.stages)) fun h => do
           let _ ← slcJournal k 3 h (leBytes 4 step ++ leBytes 4 (s.slcPresent k c d) ++ leBytes 4 o.added)) s
       decide (runs (forAll (slcHubs d (c.total d.stages)) fun h => do
           let _ ← slcJournal k 3 h (leBytes 4 step ++ leBytes 4 (s.slcPresent k c d) ++ leBytes 4 o.added)) s = true ∧ runs (slcFinish k post 0 0) s1 = true))) &&
     (let k : OpKey := ((0, 7, 5) : OpKey)
      let i := 0
      let t := 0
      let o : SlcOp := wso [{ wsp (wsd 1 3 0x1000 0x2000) with got := [0], taken := true }]
      let p : SlcPost := { wsp (wsd 1 3 0x1000 0x2000) with got := [0], taken := true }
      decide (s.op k = some o ∧ o.posts[i]? = some p ∧ p.ended = false ∧ p.who = .tile t ∧ spWf dTile s.tiles = true ∧ spWf dSlc (s.tile t).slc = true))) &&
    (let s := { { wcom { mask := 1, stages := [] } (wtc (wsd 1 3 0x1000 0x2000)) with time := 3000 } with ops := [wso [wsp (wsd 1 3 0 0 [(0x5C, 2)])]] }
     let comm := 0
     let tag := 7
     let step := 5
     let post := 0
     let o : SlcOp := wso [wsp (wsd 1 3 0 0 [(0x5C, 2)])]
     let p : SlcPost := wsp (wsd 1 3 0 0 [(0x5C, 2)])
     let k : OpKey := (comm, tag, step)
     let d := slcD p.desc
     decide (s.op k = some o ∧ o.posts[post]? = some p ∧ p.ended = false ∧ d.dead ≠ 0 ∧ bit d.flags 5 = false ∧ p.t0 + 1000 * d.dead ≤ s.time ∧ runs (slcFinish k post 0xA07 0) s = true)) &&
    (let s := (wcom { mask := 1, stages := [] } (wtc (wsd 1 3 0x1000 0x2000))).setTile 0 { (wcom { mask := 1, stages := [] } (wtc (wsd 1 3 0x1000 0x2000))).tile 0 with slc := [(0, { dSlc 0 with ring := { (slcD (wsd 1 4 0 0 [(7, 2)])).ringOf with sl := [2, 1] } })] }
     let t := 0
     let slot := 0
     let i := 0
     decide ((spGet dSlc (s.tile t).slc slot).ring.sl.getD i 0 = 2 ∧ s.ops = []))) = true := by decide +kernel

/-- States and operands that meet the hypotheses of `Sprinkle`, clause by clause. -/
theorem witness_Sprinkle :
   ((let s := (let s := wcom { mask := 1, stages := [] } (wtc []); s.setTile 0 { wt (fun c => { c with s := [(1, 0x10000)] }) with cis := bytesAt 4096 [1, 2, 3, 4] })
     (let w : IWord := wd 0 0 1 0 0 0x10
      let x : W64 := (0x4000010040000000 : W64)
      let t := 0
      let r : Run := wr
      let k : LKernel := wk
      decide ((s.tile t).running = some (r, k) ∧ s.canIssue t 0x72 w x = true) &&
      (let tl := s.issuing t r 0x72
       let y := tl.ctx r.ctx
       let s0 := s.setTile t tl
       let slot := fld w.imm.toNat 2 0
       decide (w.fn = 0) &&
       (let sa := (y.sGet w.sa.toNat).toNat
        let comm := fld sa 15 0
        let stages := fld sa 19 16
        let op := fld w.imm.toNat 7 4
        let count := fld w.imm.toNat 11 8 + 1
        let src := specCis y (specA x)
        let dst := specCis y (specB x)
        let key := spkCountKey t comm slot
        let e := spGet dNat s.spkEpoch key
        decide (comm < 64 ∧ s0.slcCommOk (s0.tilePart t) (some t) { slcD [] with comm := comm, stages := stages } = true ∧ op ≤ 8 ∧ (op ≠ 8 → readable tl k src 64 = true) ∧ dst + 128 ≤ k.cisBytes ∧ tl.run = some r ∧ ((s.spkOps.filter fun o => o.slot == slot).flatMap fun o => o.posts.filter fun p => p.tile == t && !p.waited).length < 256 ∧ s.spkAt (comm, slot, e) = none) &&
        (let p : SpkPost :=
         { tile := t, t0 := s.time, dst := k.cisOff + dst, jmode := r.jmode, jstep := r.jstep,           vals := if op = 8 then [] else wordsOf 4 count (tl.cisBytes (k.cisOff + src) 64), wrote := false, waited := false }
         decide (runs (spkStep (comm, slot, e) false) ({ s0 with spkEpoch := spSet dNat s.spkEpoch key (e + 1) }.modSpk (comm, slot, e) fun o =>
         { o with stages := stages, op := op, count := count, posts := [p] }) = true))))) &&
     (let w : IWord := wd 0 0 1 0 0 0x80
      let x : W64 := (0x4000010040000000 : W64)
      let t := 0
      let r : Run := wr
      let k : LKernel := wk
      decide ((s.tile t).running = some (r, k) ∧ s.canIssue t 0x72 w x = true) &&
      (let tl := s.issuing t r 0x72
       let y := tl.ctx r.ctx
       let s0 := s.setTile t tl
       let slot := fld w.imm.toNat 2 0
       decide (w.fn = 0) &&
       (let sa := (y.sGet w.sa.toNat).toNat
        let comm := fld sa 15 0
        let stages := fld sa 19 16
        let op := fld w.imm.toNat 7 4
        let count := fld w.imm.toNat 11 8 + 1
        let src := specCis y (specA x)
        let dst := specCis y (specB x)
        let key := spkCountKey t comm slot
        let e := spGet dNat s.spkEpoch key
        decide (comm < 64 ∧ s0.slcCommOk (s0.tilePart t) (some t) { slcD [] with comm := comm, stages := stages } = true ∧ op ≤ 8 ∧ (op ≠ 8 → readable tl k src 64 = true) ∧ dst + 128 ≤ k.cisBytes ∧ tl.run = some r ∧ ((s.spkOps.filter fun o => o.slot == slot).flatMap fun o => o.posts.filter fun p => p.tile == t && !p.waited).length < 256 ∧ s.spkAt (comm, slot, e) = none) &&
        (let p : SpkPost :=
         { tile := t, t0 := s.time, dst := k.cisOff + dst, jmode := r.jmode, jstep := r.jstep,           vals := if op = 8 then [] else wordsOf 4 count (tl.cisBytes (k.cisOff + src) 64), wrote := false, waited := false }
         decide (runs (spkStep (comm, slot, e) false) ({ s0 with spkEpoch := spSet dNat s.spkEpoch key (e + 1) }.modSpk (comm, slot, e) fun o =>
         { o with stages := stages, op := op, count := count, posts := [p] }) = true))))) &&
     (let w : IWord := wd 1 0 0 0 0 0
      let x : W64 := (0 : W64)
      let t := 0
      let r : Run := wr
      let k : LKernel := wk
      decide ((s.tile t).running = some (r, k) ∧ s.canIssue t 0x72 w x = true) &&
      (let slot := fld w.imm.toNat 2 0
       decide (w.fn = 1 ∧ (s.spkOps.flatMap fun o => o.posts.filter fun p => o.slot == slot && p.tile == t && !p.waited) = [])))) &&
    (let s := { (let s := wcom { mask := 1, stages := [] } (wtc []); s.setTile 0 { wt (fun c => { c with s := [(1, 0x10000)] }) with cis := bytesAt 4096 [1, 2, 3, 4] }) with spkOps := [{ comm := 0, slot := 0, epoch := 0, stages := 1, op := 1, count := 1, posts := [{ tile := 0, t0 := 0, dst := 0x1100, jmode := 0, jstep := 0, vals := [5], wrote := true, waited := false }], recv := [], up := 0, result := none, closed := false }] }
     let w : IWord := wd 1 0 0 0 0 0
     let x : W64 := (0 : W64)
     let t := 0
     let r : Run := wr
     let k : LKernel := wk
     decide ((s.tile t).running = some (r, k) ∧ s.canIssue t 0x72 w x = true) &&
     (let slot := fld w.imm.toNat 2 0
      decide (w.fn = 1) &&
      (let o := ({ comm := 0, slot := 0, epoch := 0, stages := 1, op := 1, count := 1, posts := [{ tile := 0, t0 := 0, dst := 0x1100, jmode := 0, jstep := 0, vals := [5], wrote := true, waited := false }], recv := [], up := 0, result := none, closed := false } : SpkOp)
       let p := ({ tile := 0, t0 := 0, dst := 0x1100, jmode := 0, jstep := 0, vals := [5], wrote := true, waited := false } : SpkPost)
       decide (s.spkOps = [o] ∧ o.posts = [p] ∧ o.slot = slot ∧ p.tile = t ∧ p.waited = false ∧ p.wrote = true)))) &&
    (let s := wcom (wcm 0) State.reset
     let msg : List Byte := (blob 96 [(0, 17), (1, 1), (4, 0), (6, 0), (8, 1), (12, 1), (16, 1), (32, 5)] : List Byte)
     let c : SlcComm := wcm 0
     let f := dfld msg
     let comm := f 4 2
     let slot := f 3 1
     let s1 := s.leaTake 3 msg
     let next := s1.spkNext comm slot
     let diff := (f 6 2 + 65536 - next % 65536) % 65536
     let k : SpkKey := (comm, slot, next + diff)
     let vals := if f 1 1 = 8 then [] else wordsOf 4 (f 2 1 + 1) (msg.drop 0x20)
     decide (s1.comm comm = some c ∧ diff < 256 ∧ s1.spkAt k = none) &&
     (let st := [1, 2, 3].foldl (fun v l => if c.alg l = 0xFF then v else v + 2 ^ l) 1
      decide (f 0 1 = 0x11 ∧ runs (spkStep k false) (s1.modSpk k fun o =>
           { o with recv := o.recv ++ [(f 0x10 1, c.rankOf st (f 0x10 1) (f 8 4), f 0xC 4, vals)] }) = true))) &&
    (let s := wcom (wcm 1) State.reset
     let msg : List Byte := (blob 96 [(0, 18), (1, 1), (4, 0), (6, 0), (8, 1), (12, 1), (16, 1), (32, 5)] : List Byte)
     let c : SlcComm := wcm 1
     let f := dfld msg
     let comm := f 4 2
     let slot := f 3 1
     let s1 := s.leaTake 3 msg
     let next := s1.spkNext comm slot
     let diff := (f 6 2 + 65536 - next % 65536) % 65536
     let k : SpkKey := (comm, slot, next + diff)
     let vals := if f 1 1 = 8 then [] else wordsOf 4 (f 2 1 + 1) (msg.drop 0x20)
     decide (s1.comm comm = some c ∧ diff < 256 ∧ s1.spkAt k = none) &&
     (let st := [1, 2, 3].foldl (fun v l => if c.alg l = 0xFF then v else v + 2 ^ l) 1
      decide (f 0 1 = 0x12 ∧ runs (spkResult k c (f 0x10 1) (f 0xC 4) vals) (s1.modSpk k fun o => if o.posts = []
           then { o with stages := st, op := f 1 1, count := f 2 1 + 1 } else o) = true))) &&
    (let s := { wcom (wcm 0) (put State.reset [(0x50400, 2)]) with spkOps := [{ comm := 0, slot := 0, epoch := 0, stages := 3, op := 1, count := 1, posts := [{ tile := 0, t0 := 0, dst := 0x1100, jmode := 0, jstep := 0, vals := [5], wrote := false, waited := false }], recv := [], up := 0, result := none, closed := false }], time := 2000 }
     let comm := 0
     let slot := 0
     let epoch := 0
     let o : SpkOp := ({ comm := 0, slot := 0, epoch := 0, stages := 3, op := 1, count := 1, posts := [{ tile := 0, t0 := 0, dst := 0x1100, jmode := 0, jstep := 0, vals := [5], wrote := false, waited := false }], recv := [], up := 0, result := none, closed := false } : SpkOp)
     let k : SpkKey := (comm, slot, epoch)
     decide (s.spkAt k = some o) &&
     (let c := (wcm 0 : SlcComm)
      let p := ({ tile := 0, t0 := 0, dst := 0x1100, jmode := 0, jstep := 0, vals := [5], wrote := false, waited := false } : SpkPost)
      decide (s.comm comm = some c ∧ [1, 2, 3].all (fun l => decide (bit o.stages l = true → c.rankIn o.stages l = 0)) = true ∧ o.closed = false ∧ o.posts.head? = some p ∧ p.t0 + s.spkTimeout comm ≤ s.time ∧ runs (spkStep k true) s = true))) &&
    (let s := { wcom (wcm 1) (put State.reset [(0x50400, 2)]) with spkOps := [{ comm := 0, slot := 0, epoch := 0, stages := 3, op := 1, count := 1, posts := [{ tile := 0, t0 := 0, dst := 0x1100, jmode := 0, jstep := 0, vals := [5], wrote := false, waited := false }], recv := [], up := 0, result := none, closed := false }], time := 4000 }
     let comm := 0
     let slot := 0
     let epoch := 0
     let o : SpkOp := ({ comm := 0, slot := 0, epoch := 0, stages := 3, op := 1, count := 1, posts := [{ tile := 0, t0 := 0, dst := 0x1100, jmode := 0, jstep := 0, vals := [5], wrote := false, waited := false }], recv := [], up := 0, result := none, closed := false } : SpkOp)
     let k : SpkKey := (comm, slot, epoch)
     decide (s.spkAt k = some o) &&
     (let t := 0
      let i := 0
      decide ((o.posts.findIdx? fun p => p.tile == t && !p.wrote && decide (p.t0 + 2 * s.spkTimeout comm ≤ s.time)) = some i ∧ runs (spkWrite k i 0xA21 0 ((List.range o.count).map fun _ => 0)) s = true))) &&
    (let a := 0xFFFFFFFF
     let b := 2
     decide (a < 2 ^ 32 ∧ b < 2 ^ 32))) = true := by decide +kernel

/-- States and operands that meet the hypotheses of `LateBuckets`, clause by clause. -/
theorem witness_LateBuckets :
   ((let s := wcom (wcm 0) State.reset
     (let msg : List Byte := (blob 96 [(0, 19), (4, 0), (8, 1), (32, 7), (36, 5), (40, 9)] : List Byte)
      let c : SlcComm := wcm 0
      let f := dfld msg
      let k : OpKey := (f 4 2, f 0x20 4, f 0x24 4)
      let s1 := s.leaTake 3 msg
      let st := s1.stagesOf c k.1 k.2.1
      decide (s1.comm k.1 = some c ∧ f 0 1 = 0x13 ∧ [1, 2, 3].all (fun l => decide (bit st l = true → c.rankIn st l = 0)) = true ∧ s1.late k = none) &&
      (let s2 := aft (lateJoin k (f 8 4) (f 0x28 4) (s1.jrnMode (s1.commPart k.1)) (s1.rf (jrnReg (s1.commPart k.1) 0x10) 31 0)) s1
       decide (runs (lateJoin k (f 8 4) (f 0x28 4) (s1.jrnMode (s1.commPart k.1)) (s1.rf (jrnReg (s1.commPart k.1) 0x10) 31 0)) s1 = true ∧ runs (slcStep k) s2 = true))) &&
     (let n := 0
      let v := 0
      let o : Origin := wdr
      let off := lateReg n
      let new := keepBits v (maskBits 63 60 + maskBits 57 6)
      decide (n < 64 ∧ (o.isDrd || o.owns (s.commPart n)) = true ∧ fld new 62 60 ≤ 4 ∧ s.rb off 63 = false ∧ bit new 63 = false ∧ s.heard o off = true))) &&
    (let s := wcom (wcm 1) State.reset
     let msg : List Byte := (blob 96 [(0, 20), (4, 0), (8, 0), (32, 7), (36, 5), (48, 3)] : List Byte)
     let c : SlcComm := wcm 1
     let f := dfld msg
     let k : OpKey := (f 4 2, f 0x20 4, f 0x24 4)
     let s1 := s.leaTake 3 msg
     let st := s1.stagesOf c k.1 k.2.1
     decide (s1.comm k.1 = some c ∧ f 0 1 = 0x14 ∧ c.packages st ≤ 384 ∧ s1.late k = none ∧ [1, 2, 3].all (fun l => decide (bit st l = true → c.rankIn st l ≠ 0)) = true ∧ [1, 2, 3].any (fun l => decide (bit st l = true)) = true) &&
     (let here := (flagList ((msg.drop 0x30).take 48)).map (· + 384 * f 0x28 2)
      let s4 := s1.modLate k fun l => { l with parts := l.parts ++ [f 0x28 2], flags := l.flags ++ here }
      let s2 := aft (lateDecided k here) s4
      decide (runs (lateDecided k here) s4 = true ∧ runs (slcStep k) s2 = true))) &&
    (let s := { wcom (wcm 0) State.reset with lates := [{ SlcLate.begun (0, 7, 5) with joins := [0], limit := 9 }], time := 9000 }
     let comm := 0
     let tag := 7
     let step := 5
     let l : SlcLate := { SlcLate.begun (0, 7, 5) with joins := [0], limit := 9 }
     let k : OpKey := (comm, tag, step)
     decide (s.late k = some l ∧ l.joins ≠ [] ∧ l.first + 1000 * l.limit ≤ s.time ∧ l.jmode ≠ 2) &&
     (let s2 := aft (lateClose k true) s
      decide (runs (lateClose k true) s = true ∧ runs (slcStep k) s2 = true))) &&
    (let s := wcom (wcm 0) wb
     let n := 0
     let v := 2 ^ 63 + 0x40000
     let o : Origin := wdr
     let off := lateReg n
     let new := keepBits v (maskBits 63 60 + maskBits 57 6)
     let m := fld new 57 48 + 1
     decide (n < 64 ∧ (o.isDrd || o.owns (s.commPart n)) = true ∧ fld new 62 60 ≤ 4 ∧ s.rb off 63 = false) &&
     (let b := List.replicate 32 (0 : Byte)
      decide (bit new 63 = true) &&
      (let s1 := aft (vaRead (s.commView n) 0 (fld new 47 6 * 64) (32 * m) none) s
       decide ((Dev.go (vaRead (s.commView n) 0 (fld new 47 6 * 64) (32 * m) none) s).1 = Except.ok (.ok b) ∧ s1.heard o off = true)))) &&
    (let s := (let s := wcom { mask := 1, stages := [] } (wtc []); s.setTile 0 { wt (fun c => { c with s := [(1, 0), (2, 7), (3, 5)] }) with cis := bytesAt 4096 [1, 2, 3, 4] })
     (let w : IWord := wd 0 0 1 2 3 0
      let x : W64 := (0x40000100 : W64)
      let t := 0
      let r : Run := wr
      let k : LKernel := wk
      decide ((s.tile t).running = some (r, k) ∧ spWf dTile s.tiles = true ∧ r.jmode = 0) &&
      (let key := fun (tl : Tile) => let y := tl.ctx r.ctx
       ((y.sGet w.sa.toNat).toNat % 65536, (y.sGet w.sb.toNat).toNat % 2 ^ 32, (y.sGet w.sc.toNat).toNat % 2 ^ 32)
       decide (s.canIssue t 0x79 w x = true) &&
       (let tl := s.issuing t r 0x79
        let s0 := s.setTile t tl
        let dst := specCis (tl.ctx r.ctx) (specA x)
        decide (w.fn = 0 ∧ s0.lateEntry (key tl).1 (key tl).2.1 = none ∧ s0.op (key tl) = none ∧ s0.late (key tl) = none ∧ dst + 64 ≤ k.cisBytes)))) &&
     (let w : IWord := wd 1 0 1 2 0 0
      let x : W64 := (0 : W64)
      let t := 0
      let r : Run := wr
      let k : LKernel := wk
      decide ((s.tile t).running = some (r, k) ∧ spWf dTile s.tiles = true ∧ r.jmode = 0) &&
      (let key := fun (tl : Tile) => let y := tl.ctx r.ctx
       ((y.sGet w.sa.toNat).toNat % 65536, (y.sGet w.sb.toNat).toNat % 2 ^ 32, (y.sGet w.sc.toNat).toNat % 2 ^ 32)
       decide (s.canIssue t 0x79 w x = true) &&
       (let tl := s.issuing t r 0x79
        let s0 := s.setTile t tl
        decide (w.fn = 1 ∧ s0.lateEntry (key tl).1 (key tl).2.1 = none)))) &&
     (let w : IWord := wd 0 4 2 0 0 0
      let x : W64 := (0 : W64)
      let t := 0
      let r : Run := wr
      let k : LKernel := wk
      decide ((s.tile t).running = some (r, k) ∧ spWf dTile s.tiles = true ∧ r.jmode = 0 ∧ s.canIssue t 0x7A w x = true)))) = true := by decide +kernel

/-- States and operands that meet the hypotheses of `PublishesAndSnapshots`, clause by clause. -/
theorem witness_PublishesAndSnapshots :
   ((let s := wq 1 [(0, 0x40), (1, 1), (2, 2), (3, 1), (8, 9)]
     let s1 := aft (takeCmd 5 0x40) s
     let s2 := aft (pubExtents 5 ({ seqno := 7, bytes := blob 64 [(0, 0x40), (1, 1), (2, 2), (3, 1), (8, 9)] } : QCmd)) s1
     let q := 5
     let c : QCmd := ({ seqno := 7, bytes := blob 64 [(0, 0x40), (1, 1), (2, 2), (3, 1), (8, 9)] } : QCmd)
     let ext := ([] : List (Nat × Nat))
     let u : Pub :=
         { as := c.f 1 1, sel := c.f 2 1, value := c.f 3 1, version := c.f 8 8, queue := q, seqno := c.seqno, extents := ext,           running := false, flipped := false }
     let same := s2.pubs.filter fun w => w.as == u.as && w.sel == u.sel
     decide ((Dev.go (takeCmd q 0x40) s).1 = Except.ok (c) ∧ (Dev.go (pubExtents q c) s1).1 = Except.ok ((.ok ext)) ∧ same = [] ∧ runs (pubStart u) s2 = true)) &&
    (let s := { wq 1 [(0, 0x40), (1, 1), (2, 2), (3, 1), (8, 9)] with pubs := [{ as := 1, sel := 2, value := 1, version := 8, queue := 5, seqno := 3, extents := [], running := true, flipped := true }] }
     let s1 := aft (takeCmd 5 0x40) s
     let s2 := aft (pubExtents 5 ({ seqno := 7, bytes := blob 64 [(0, 0x40), (1, 1), (2, 2), (3, 1), (8, 9)] } : QCmd)) s1
     let q := 5
     let c : QCmd := ({ seqno := 7, bytes := blob 64 [(0, 0x40), (1, 1), (2, 2), (3, 1), (8, 9)] } : QCmd)
     let ext := ([] : List (Nat × Nat))
     let u : Pub :=
         { as := c.f 1 1, sel := c.f 2 1, value := c.f 3 1, version := c.f 8 8, queue := q, seqno := c.seqno, extents := ext,           running := false, flipped := false }
     let same := s2.pubs.filter fun w => w.as == u.as && w.sel == u.sel
     decide ((Dev.go (takeCmd q 0x40) s).1 = Except.ok (c) ∧ (Dev.go (pubExtents q c) s1).1 = Except.ok ((.ok ext))) &&
     (let w := ({ as := 1, sel := 2, value := 1, version := 8, queue := 5, seqno := 3, extents := [], running := true, flipped := true } : Pub)
      decide (same = [w] ∧ w.running = true))) &&
    (let s := { wq 1 [(0, 0x40), (1, 1), (2, 2), (3, 1), (8, 9)] with pubs := [{ as := 1, sel := 2, value := 1, version := 8, queue := 5, seqno := 3, extents := [], running := false, flipped := false }] }
     let s1 := aft (takeCmd 5 0x40) s
     let s2 := aft (pubExtents 5 ({ seqno := 7, bytes := blob 64 [(0, 0x40), (1, 1), (2, 2), (3, 1), (8, 9)] } : QCmd)) s1
     let q := 5
     let c : QCmd := ({ seqno := 7, bytes := blob 64 [(0, 0x40), (1, 1), (2, 2), (3, 1), (8, 9)] } : QCmd)
     let ext := ([] : List (Nat × Nat))
     let u : Pub :=
         { as := c.f 1 1, sel := c.f 2 1, value := c.f 3 1, version := c.f 8 8, queue := q, seqno := c.seqno, extents := ext,           running := false, flipped := false }
     let same := s2.pubs.filter fun w => w.as == u.as && w.sel == u.sel
     decide ((Dev.go (takeCmd q 0x40) s).1 = Except.ok (c) ∧ (Dev.go (pubExtents q c) s1).1 = Except.ok ((.ok ext))) &&
     (let w := ({ as := 1, sel := 2, value := 1, version := 8, queue := 5, seqno := 3, extents := [], running := false, flipped := false } : Pub)
      decide (same.find? (fun w => !w.running) = some w ∧ runs (completeWith w.queue w.seqno 0x40 0xB02 (u.version % 2 ^ 32)) { s2 with pubs := s2.pubs.map fun x => if x = w then u else x } = true))) &&
    (let s := { wq 1 [] with pubs := [{ as := 1, sel := 2, value := 1, version := 8, queue := 5, seqno := 3, extents := [], running := true, flipped := true }] }
     let n := 1
     let b := 2
     let u : Pub := { as := 1, sel := 2, value := 1, version := 8, queue := 5, seqno := 3, extents := [], running := true, flipped := true }
     decide (s.pubs.find? (fun w => w.as == n && w.sel == b && w.running) = some u ∧ u.flipped = true ∧ s.rb (asReg n 0x20) 1 = false) &&
     (let s0 := s.putAt (asReg n (0x200 + 8 * b)) u.version
      let s2 := aft (completeWith u.queue u.seqno 0x40 0 0) ({ s0 with pubs := s0.pubs.erase u }.setPubBit 0x28 n b false)
      decide (runs (completeWith u.queue u.seqno 0x40 0 0) ({ s0 with pubs := s0.pubs.erase u }.setPubBit 0x28 n b false) = true ∧ s2.pubs.find? (fun w => w.as == n && w.sel == b) = none))) &&
    (let s := (let s := wq 1 [(0, 0x48), (1, 1), (8, 0x30000), (0x10, 1), (0x14, 3), (0x18, 0x100000)]; { s with mem := s.mem ++ bytesAt 0x30000 (blob 16 [(0, 0x10000), (8, 1), (12, 1)]) })
     let q := 5
     let c : QCmd := ({ seqno := 7, bytes := blob 64 [(0, 0x48), (1, 1), (8, 0x30000), (0x10, 1), (0x14, 3), (0x18, 0x100000)] } : QCmd)
     let n : Snap := ({ wsn with id := 3, image := 0x100000, set := [(1, 1)] } : Snap)
     let s1 := aft (snapBuild 5 0x48 false fun c f m => if bit (c.f 1 1) 0 then 0xFFFF else Nat.lor f.dirty (m.getD 0)) s
     decide ((Dev.go (snapBuild q 0x48 false fun c f m => if bit (c.f 1 1) 0 then 0xFFFF else Nat.lor f.dirty (m.getD 0)) s).1 = Except.ok ((some (c, n)))) &&
     (let u := n.cut.foldl (fun s e =>
         let f := s.frame e.1
         s.setFrame e.1 { f with dirty := f.dirty - Nat.land f.dirty e.2 }) s1
      let u' := { u with snaps := u.snaps ++ [n] }.snapBegin n
      let s2 := aft (snapSend n n.image true 64 (snapHeader u' n 1)) u'
      decide (runs (snapSend n n.image true 64 (snapHeader u' n 1)) u' = true ∧ runs (completeWith q c.seqno 0x48 0 n.id) s2 = true))) &&
    (let s := (let s := wq 1 [(0, 0x4B), (8, 0x30000), (0x10, 1), (0x14, 3), (0x18, 0x100000)]; { s with mem := s.mem ++ bytesAt 0x30000 (blob 16 [(0, 0x10000), (8, 1), (12, 1)]) })
     let q := 5
     let c : QCmd := ({ seqno := 7, bytes := blob 64 [(0, 0x4B), (8, 0x30000), (0x10, 1), (0x14, 3), (0x18, 0x100000)] } : QCmd)
     let n : Snap := ({ wsn with id := 3, image := 0x100000, set := [(1, 1)], restore := true, begun := false } : Snap)
     let s1 := aft (snapBuild 5 0x4B true fun c _ m => if bit (c.f 1 1) 1 then m.getD 0 else 0xFFFF) s
     decide ((Dev.go (snapBuild q 0x4B true fun c _ m => if bit (c.f 1 1) 1 then m.getD 0 else 0xFFFF) s).1 = Except.ok ((some (c, n))) ∧ runs (snapSend n n.image false 64 []) ({ s1 with snaps := s1.snaps ++ [n] }.snapBegin n) = true)) &&
    (let s := { wb with snaps := [({ wsn with id := 3, image := 0x100000, set := [(1, 1)], restore := true } : Snap)] }
     let p := 0
     let n : Snap := ({ wsn with id := 3, image := 0x100000, set := [(1, 1)], restore := true } : Snap)
     let f := 1
     let k := 2
     let img := 1
     decide (s.snapOf p = some n ∧ n.set.find? (fun e => e.1 == f) = some (f, img) ∧ n.begun = true ∧ n.err = 0 ∧ k < 16 ∧ bit (spGet dNat n.todo f) k = true ∧ s.snapStaged n (s.hubOf (f * 65536)) < 4096) &&
     (let va := n.sectorAt img k
      let s0 := s.setSnap { n with todo := spMod dNat n.todo f fun m => setFld m k k 0, flying := n.flying ++ [va] }
      decide (n.restore = true ∧ runs (snapSend n va false 4096 []) s0 = true))) &&
    (let s := { wb with snaps := [({ wsn with id := 3, image := 0x100000, set := [(1, 1)] } : Snap)] }
     let p := 0
     let n : Snap := ({ wsn with id := 3, image := 0x100000, set := [(1, 1)] } : Snap)
     let f := 1
     let k := 2
     let img := 1
     decide (s.snapOf p = some n ∧ n.set.find? (fun e => e.1 == f) = some (f, img) ∧ n.begun = true ∧ n.err = 0 ∧ k < 16 ∧ bit (spGet dNat n.todo f) k = true ∧ s.snapStaged n (s.hubOf (f * 65536)) < 4096 ∧ n.restore = false)) &&
    (let s := { wb with snaps := [({ wsn with id := 3, image := 0x100000, set := [(1, 1)], restore := true, todo := [] } : Snap)] }
     let p := 0
     let n : Snap := ({ wsn with id := 3, image := 0x100000, set := [(1, 1)], restore := true, todo := [] } : Snap)
     decide (s.snapOf p = some n ∧ n.err = 0 ∧ n.begun = true ∧ n.todo = [] ∧ n.flying = [] ∧ n.restore = true ∧ runs (snapFinish n 0) s = true)) &&
    (let s := { wb with snaps := [({ wsn with id := 3, image := 0x100000, set := [(1, 1)], err := 5 } : Snap)] }
     let p := 0
     let n : Snap := ({ wsn with id := 3, image := 0x100000, set := [(1, 1)], err := 5 } : Snap)
     decide (s.snapOf p = some n ∧ n.err ≠ 0 ∧ runs (snapFinish n n.err) s = true)) &&
    (let s := { wq 1 [(0, 0x49)] with snaps := [({ wsn with id := 3, image := 0x100000, set := [(1, 1)] } : Snap)] }
     let q := 5
     let c : QCmd := ({ seqno := 7, bytes := blob 64 [(0, 0x49)] } : QCmd)
     let s1 := aft (takeCmd 5 0x49) s
     let p := s1.qPart q
     decide ((Dev.go (takeCmd q 0x49) s).1 = Except.ok (c) ∧ c.zero 1 63 = true ∧ (s1.snapOf p).isSome = true)) &&
    (let s := { wq 1 [(0, 0x49)] with snapEnd := [(0, 1)] }
     let q := 5
     let c : QCmd := ({ seqno := 7, bytes := blob 64 [(0, 0x49)] } : QCmd)
     let s1 := aft (takeCmd 5 0x49) s
     let p := s1.qPart q
     let e := spGet dNat s1.snapEnd p
     decide ((Dev.go (takeCmd q 0x49) s).1 = Except.ok (c) ∧ c.zero 1 63 = true ∧ s1.snapOf p = none ∧ e ≠ 0 ∧ runs (completeWith q c.seqno 0x49 (e - 1) 0) { s1 with snapEnd := spSet dNat s1.snapEnd p 0 } = true)) &&
    (let s := wq 1 [(0, 0x49)]
     let q := 5
     let c : QCmd := ({ seqno := 7, bytes := blob 64 [(0, 0x49)] } : QCmd)
     let s1 := aft (takeCmd 5 0x49) s
     let p := s1.qPart q
     let e := spGet dNat s1.snapEnd p
     decide ((Dev.go (takeCmd q 0x49) s).1 = Except.ok (c) ∧ c.zero 1 63 = true ∧ s1.snapOf p = none ∧ e = 0 ∧ runs (completeWith q c.seqno 0x49 0xB07 0) s1 = true)) &&
    (let s := { wq 1 [(0, 0x4A)] with snaps := [({ wsn with id := 3, image := 0x100000, set := [(1, 1)] } : Snap)] }
     let q := 5
     let c : QCmd := ({ seqno := 7, bytes := blob 64 [(0, 0x4A)] } : QCmd)
     let s1 := aft (takeCmd 5 0x4A) s
     let p := s1.qPart q
     decide ((Dev.go (takeCmd q 0x4A) s).1 = Except.ok (c) ∧ c.zero 1 63 = true) &&
     (let n := ({ wsn with id := 3, image := 0x100000, set := [(1, 1)] } : Snap)
      decide (s1.snapOf p = some n) &&
      (let s2 := aft (snapFinish n 0xB06) s1
       decide (runs (snapFinish n 0xB06) s1 = true ∧ runs (completeWith q c.seqno 0x4A 0 0) s2 = true)))) &&
    (let s := wq 1 [(0, 0x4A)]
     let q := 5
     let c : QCmd := ({ seqno := 7, bytes := blob 64 [(0, 0x4A)] } : QCmd)
     let s1 := aft (takeCmd 5 0x4A) s
     let p := s1.qPart q
     decide ((Dev.go (takeCmd q 0x4A) s).1 = Except.ok (c) ∧ c.zero 1 63 = true ∧ s1.snapOf p = none ∧ runs (completeWith q c.seqno 0x4A 0 0) s1 = true)) &&
    (let s := { wb with licences := 0x20 }
     let n := 0
     (let v := 0x4000000000000001
      let o : Origin := wdr
      decide (n < 8 ∧ s.lic 5 = true ∧ o.mine n = true ∧ s.partRuns n = false) &&
      (let base := false
       decide ((base = false → fld v 63 62 ≠ 3)) &&
       (let off := jrnReg n (if base then 8 else 0)
        decide (s.heard o off = true)))) &&
     (let v := 0x50000
      let o : Origin := wdr
      decide (n < 8 ∧ s.lic 5 = true ∧ o.mine n = true ∧ s.partRuns n = false) &&
      (let base := true
       decide ((base = false → fld v 63 62 ≠ 3)) &&
       (let off := jrnReg n (if base then 8 else 0)
        decide (s.heard o off = true)))) &&
     (let o : Origin := wdr
      decide (n < 8 ∧ s.lic 5 = true ∧ o.mine n = true ∧ s.partRuns n = false ∧ s.heard o (jrnReg n 0x10) = true ∧ s.jrnMode n ≠ 1))) &&
    (let s := put ({ wb with licences := 0x20 }) [(jrnReg 0 0, 2 ^ 62 + 1), (jrnReg 0 8, 0x50000)]
     let n := 0
     let v := 5
     let o : Origin := wdr
     decide (n < 8 ∧ s.lic 5 = true ∧ o.mine n = true ∧ s.partRuns n = false ∧ s.heard o (jrnReg n 0x10) = true) &&
     (let s0 := s.putAt (jrnReg n 0x10) (v % 2 ^ 32)
      let s1 := { s0 with jseq := s0.jseq.filter fun e => e.1 / 2 ^ 27 != n }.setF (jrnReg n 0x18) 31 0 0
      decide (s.jrnMode n = 1 ∧ runs (vaWrite (s.jrnView .device n) 0 (s.jrnBase n (v % 2 ^ 32)) (jrnHeader (v % 2 ^ 32) 1 0 0 0)) s1 = true)))) = true := by decide +kernel

/-- States and operands that meet the hypotheses of `PublishFlips`, clause by clause. -/
theorem witness_PublishFlips :
   (let s := wb
    let u : Pub := { as := 1, sel := 2, value := 1, version := 8, queue := 5, seqno := 3, extents := [], running := true, flipped := true }
    decide (spWf regInit s.regs = true ∧ s.asBusy u.as = false ∧ u.as < 64 ∧ u.sel < 64 ∧ u.value < 2)) = true := by decide +kernel

/-- States and operands that meet the hypotheses of `Flits`, clause by clause. -/
theorem witness_Flits :
   ((let s := wlp fun p => { p with st := 2 }
     let n := 0
     let flit : List Byte := ([] : List Byte)
     decide (n < 16 ∧ spWf dLPort s.lports = true ∧ 2 ≤ s.leaState n ∧ s.leaState n ≤ 5) &&
     (let bad := 1
      decide (bad ≠ 0 ∨ flitOk flit = false))) &&
    (let s := wlp fun p => { p with st := 3 }
     let n := 0
     (let corr : List Nat := ([1] : List Nat)
      (let flit : List Byte := wfData
       decide (n < 16 ∧ spWf dLPort s.lports = true) &&
       (let t := flitTrailer flit
        let s1 := s.flitIn n corr
        let p := s1.lport n
        let d := (fld t 13 2 + 4096 - p.expect) % 4096
        decide (s.leaState n = 3 ∧ fld t 1 0 = 1) &&
        (let r := (p.parse t flit).getD ⟨[], none, false, false, []⟩
         decide (d = 0 ∧ p.parse t flit = some r)))) &&
      (let flit : List Byte := wfCtl 1
       decide (n < 16 ∧ spWf dLPort s.lports = true) &&
       (let t := flitTrailer flit
        let s1 := s.flitIn n corr
        decide (s.leaState n = 3 ∧ fld t 1 0 = 2 ∧ (flit.headD 0).toNat = 1) &&
        (let s2 := s1.trailed n t
         let q := s2.lport n
         let e := leNat ((flit.drop 8).take 2)
         decide (q.acks e = true))))) &&
     (let flit : List Byte := wfNull
      decide (n < 16 ∧ spWf dLPort s.lports = true) &&
      (let t := flitTrailer flit
       decide (s.leaState n = 3 ∧ fld t 1 0 = 0)))) &&
    (let s := wlp fun p => { p with st := 3, expect := 4095 }
     let n := 0
     let corr : List Nat := ([1] : List Nat)
     let flit : List Byte := wfData
     decide (n < 16 ∧ spWf dLPort s.lports = true) &&
     (let t := flitTrailer flit
      let s1 := s.flitIn n corr
      let p := s1.lport n
      let d := (fld t 13 2 + 4096 - p.expect) % 4096
      decide (s.leaState n = 3 ∧ fld t 1 0 = 1 ∧ 0 < d ∧ d < 2048))) &&
    (let s := wlp fun p => { p with st := 3, expect := 2 }
     let n := 0
     let corr : List Nat := ([1] : List Nat)
     let flit : List Byte := wfData
     decide (n < 16 ∧ spWf dLPort s.lports = true) &&
     (let t := flitTrailer flit
      let s1 := s.flitIn n corr
      let p := s1.lport n
      let d := (fld t 13 2 + 4096 - p.expect) % 4096
      decide (s.leaState n = 3 ∧ fld t 1 0 = 1 ∧ 2048 ≤ d))) &&
    (let s := { wlp (fun p => { p with st := 3, replay := some 0 }) with time := 1000 }
     let n := 0
     let p := s.lport n
     let t := 0
     decide (p.replay = some t ∧ t + 1000 ≤ s.time)) &&
    (let s := { wlp (fun p => { p with st := 3, next := 1, out := [{ seq := 0, cont := none, slots := List.replicate 2560 0, counts := [0, 0, 0, 0, 0], ends := [], sent := 1 }] }) with time := 4000 }
     let n := 0
     let p := s.lport n
     decide ((p.st = 3 ∨ p.st = 5) ∧ p.out ≠ [] ∧ p.lastAdv + 4000 ≤ s.time)) &&
    (let s := { wlp (fun p => { p with st := 5 }) with time := 10000 }
     let n := 0
     let p := s.lport n
     decide ((p.st = 3 ∨ p.st = 5) ∧ p.lastFlit + 10000 ≤ s.time)) &&
    (let s := wlp fun p => { p with st := 3, lact := 15 }
     let n := 0
     let p := s.lport n
     let k := 0
     decide ((p.st = 3 ∨ p.st = 5) ∧ k < 5 ∧ bit p.lact k = true)) &&
    (let s := put ({ wlp (fun p => { p with st := 6 }) with time := 100000000 }) [(leatReg 0 0, 2 ^ 63)]
     let n := 0
     let p := s.lport n
     decide (p.st = 6 ∧ s.leaEn n = true ∧ p.failT + 100000000 ≤ s.time)) &&
    (let s := { wlp (fun p => { p with st := 3 }) with time := 1000000 }
     let n := 0
     let p := s.lport n
     decide (n < 16 ∧ p.st ≠ 0 ∧ s.rb (leatReg n 0) 63 = false ∧ p.drainT + 1000000 ≤ s.time ∧ runs (leaFail n 0) s = true))) = true := by decide +kernel

/-- States and operands that meet the hypotheses of `FlitLayout`, clause by clause. -/
theorem witness_FlitLayout :
   (let ftype := 2
    let seq := 4095
    let ack := 4095
    let cvc := 7
    let cred := 32767
    let cont : Option Nat := (some 7 : Option Nat)
    let slots : List Byte := List.replicate 2560 (0 : Byte)
    decide (ftype < 3 ∧ seq < 4096 ∧ ack < 4096 ∧ cvc < 8 ∧ cred < 32768 ∧ (cont).all (fun v => decide (v < 8)) = true ∧ slots.length = 2560)) = true := by decide +kernel

/-- States and operands that meet the hypotheses of `FlitAcknowledgements`, clause by clause. -/
theorem witness_FlitAcknowledgements :
   (let p : LPort := ({ LPort.none with next := 1, out := [{ seq := 0, cont := none, slots := List.replicate 2560 0, counts := [0, 0, 0, 0, 0], ends := [], sent := 1 }] } : LPort)
    (let a := 1
     decide (a < 4096 ∧ p.next < 4096 ∧ p.out.length < 4096) &&
     (let k := (a + 4096 - p.oldest) % 4096
      decide (k ≤ p.out.length))) &&
    (let a := 2
     decide (a < 4096 ∧ p.next < 4096 ∧ p.out.length < 4096) &&
     (let k := (a + 4096 - p.oldest) % 4096
      decide (p.out.length < k)))) = true := by decide +kernel

/-- States and operands that meet the hypotheses of `LinkTraining`, clause by clause. -/
theorem witness_LinkTraining :
   ((let s := wlp fun p => { p with st := 1 }
     let n := 0
     decide (spWf dLPort s.lports = true) &&
     (let p := s.lport n
      decide (p.st = 1))) &&
    (let s := wlp fun p => { p with st := 2, sizes := [1, 1, 1, 1, 1] }
     let n := 0
     decide (spWf dLPort s.lports = true) &&
     (let p := s.lport n
      let good := 31
      let pgood := 3
      decide (p.st = 2 ∧ s.defects = [] ∧ good % 32 = 31 ∧ pgood % 32 ≠ 0))) &&
    (let s := wlp fun p => { p with st := 2 }
     let n := 0
     decide (spWf dLPort s.lports = true) &&
     (let p := s.lport n
      let flit := wfCtl 7
      decide (n < 16 ∧ p.st = 2 ∧ fld (flitTrailer flit) 1 0 = 2 ∧ (flit.headD 0).toNat = 7))) &&
    (let s := wlp fun p => { p with st := 3 }
     let n := 0
     decide (spWf dLPort s.lports = true) &&
     (let p := s.lport n
      (let v := 3
       let o := wdr
       decide (s.leatThere n = true ∧ s.heard o (leatReg n 8) = true ∧ o.mine (s.rf (leatReg n 0) 62 60) = true ∧ (bit v 0 = true → p.st = 3))) &&
      (let flit := wfCtl 5
       decide (n < 16 ∧ fld (flitTrailer flit) 1 0 = 2 ∧ p.st = 3 ∧ (flit.headD 0).toNat = 5)))) &&
    (let s := wlp fun p => { p with st := 5 }
     let n := 0
     decide (spWf dLPort s.lports = true) &&
     (let p := s.lport n
      let width := 2
      decide ((p.st = 3 ∨ p.st = 5) ∧ (width = 1 ∨ width = 2 ∨ width = 4)))) &&
    (let s := wlp fun p => { p with st := 4, req := some 4 }
     let n := 0
     decide (spWf dLPort s.lports = true) &&
     (let p := s.lport n
      let width := 1
      let own := 4
      decide (p.st = 4 ∧ p.req = some own ∧ (width = 1 ∨ width = 2 ∨ width = 4)))) &&
    (let s := wlp fun p => { p with st := 4, agreed := 4 }
     let n := 0
     decide (spWf dLPort s.lports = true) &&
     (let p := s.lport n
      let failed := 1
      let pgood := 7
      decide (p.st = 4 ∧ p.agreed ≠ 0 ∧ p.good = none) &&
      (let s1 := s.setLport n { p with lfail := Nat.lor p.lfail (failed % 32) }
       let g := s1.goodLanes n
       let w := widthFor (min (min (popcount 5 g) (popcount 5 pgood)) p.agreed)
       decide (w ≠ 0)))) &&
    (let s := wlp fun p => { p with st := 4 }
     let n := 0
     decide (spWf dLPort s.lports = true) &&
     (let p := s.lport n
      let flit := wfCtl 4
      decide (n < 16 ∧ p.st = 4 ∧ fld (flitTrailer flit) 1 0 = 2 ∧ (flit.headD 0).toNat = 4))) &&
    (let s := { wlp (fun p => { p with st := 3, lact := 1, corr := [20000, 0, 0, 0, 0] }) with time := 1000000 }
     let n := 0
     decide (spWf dLPort s.lports = true) &&
     (let p := s.lport n
      decide ((p.st = 3 ∨ p.st = 5) ∧ p.winT + 1000000 ≤ s.time ∧ p.uncorr ≤ 16 ∧ (List.range (5)).all (fun k => decide (bit p.lact k = true → p.corr.getD k 0 ≤ 20000)) = true))) &&
    (let s := wlp fun p => { p with st := 5, swap := some { swapOf (wfCtl 6) true with agreed := false } }
     let n := 0
     decide (spWf dLPort s.lports = true) &&
     (let p := s.lport n
      let corr := ([] : List Nat)
      let flit := wfCtl 6
      decide (n < 16 ∧ fld (flitTrailer flit) 1 0 = 2) &&
      (let s1 := (s.flitIn n corr).trailed n (flitTrailer flit)
       let q := s1.lport n
       decide (p.st = 5 ∧ (flit.headD 0).toNat = 6 ∧ q.swap = some { swapOf flit true with agreed := false })))) &&
    (let s := wlp fun p => { p with st := 5, lact := 15, swap := some { old := 0, new := 4, frame := 0, rx := true, agreed := true } }
     let n := 0
     decide (spWf dLPort s.lports = true) &&
     (let p := s.lport n
      let w := ({ old := 0, new := 4, frame := 0, rx := true, agreed := true } : LSwap)
      decide (p.st = 5 ∧ p.swap = some w ∧ w.agreed = true)))) = true := by decide +kernel

/-- States and operands that meet the hypotheses of `PeerMessages`, clause by clause. -/
theorem witness_PeerMessages :
   ((let s := (let s := put { wlp (fun p => { p with st := 3, vcs := [(0, { LVc.none with ready := [blob 64 [(0, 0x20), (2, 8), (8, 3), (0x10, 0x30000)]] })] }) with peerReqs := [] } [(leatReg 0 0, 2 ^ 63 + 2 ^ 59 + 2 ^ 53 + 3)]; s)
     let n := 0
     let m : List Byte := blob 64 [(0, 0x20), (2, 8), (8, 3), (0x10, 0x30000)]
     let rest := ([] : List (List Byte))
     let f := dfld m
     let cfg := s.rn (leatReg n 0)
     let as := some (fld cfg 58 53)
     let v : View := { who := .leat n (f 6 2), part := fld cfg 62 60, as := as, sel := s.vsel as, src := 5, fn := none }
     decide (((s.lport n).vc 0).ready = m :: rest ∧ reqFormat m = true ∧ bit cfg 59 = true ∧ (m.headD 0).toNat = 0x20 ∧ isOk (got (inRead v (f 1 1) (f 0x10 8) (f 2 2)) s) = true)) &&
    (let s := (let s := put { wlp (fun p => { p with st := 3, vcs := [(0, { LVc.none with ready := [blob 128 [(0, 0x21), (2, 8), (8, 3), (0x10, 0x30000)]] })] }) with peerReqs := [] } [(leatReg 0 0, 2 ^ 63 + 2 ^ 59 + 2 ^ 53 + 3)]; s)
     let n := 0
     let m : List Byte := blob 128 [(0, 0x21), (2, 8), (8, 3), (0x10, 0x30000)]
     let rest := ([] : List (List Byte))
     let f := dfld m
     let cfg := s.rn (leatReg n 0)
     let as := some (fld cfg 58 53)
     let v : View := { who := .leat n (f 6 2), part := fld cfg 62 60, as := as, sel := s.vsel as, src := 5, fn := none }
     decide (((s.lport n).vc 0).ready = m :: rest ∧ reqFormat m = true ∧ bit cfg 59 = true ∧ (m.headD 0).toNat = 0x21 ∧ (Dev.go (inWrite v (f 1 1) (f 0x10 8) ((m.drop 64).take (f 2 2))) s).1 = Except.ok (.ok ()))) &&
    (let s := (let s := put { wlp (fun p => { p with st := 3, vcs := [(1, { LVc.none with ready := [blob 128 [(0, 0x22), (2, 8), (8, 3), (0x10, 0x30000)]] })] }) with peerReqs := [{ port := 0, tag := 3, write := false, dest := 0, addr := 0, len := 8, who := .flume 0 4, t0 := 0, sent := true }] } [(leatReg 0 0, 2 ^ 63 + 2 ^ 59 + 2 ^ 53 + 3)]; s)
     let n := 0
     let m : List Byte := blob 128 [(0, 0x22), (2, 8), (8, 3), (0x10, 0x30000)]
     let rest := ([] : List (List Byte))
     let f := dfld m
     decide (((s.lport n).vc 1).ready = m :: rest) &&
     (let r := ({ port := 0, tag := 3, write := false, dest := 0, addr := 0, len := 8, who := .flume 0 4, t0 := 0, sent := true } : PeerReq)
      decide ((s.leaPop n 1).peerReqs.find? (fun r => r.port == n && r.tag == f 8 2 && r.sent && r.write == ((m.headD 0).toNat == 0x23)) = some r ∧ (m.headD 0).toNat = 0x22 ∧ (m.getD 0xA 0) = 0 ∧ r.len ≤ m.length - 64 ∧ runs (peerDone r 0 ((m.drop 64).take r.len)) (s.leaPop n 1) = true))) &&
    (let s := (let s := put { wlp (fun p => { p with st := 3, vcs := [(1, { LVc.none with ready := [blob 64 [(0, 0x23), (2, 8), (8, 3), (0x10, 0x30000)]] })] }) with peerReqs := [{ port := 0, tag := 3, write := true, dest := 0, addr := 0, len := 8, who := .flume 0 4, t0 := 0, sent := true }] } [(leatReg 0 0, 2 ^ 63 + 2 ^ 59 + 2 ^ 53 + 3)]; s)
     let n := 0
     let m : List Byte := blob 64 [(0, 0x23), (2, 8), (8, 3), (0x10, 0x30000)]
     let rest := ([] : List (List Byte))
     let f := dfld m
     decide (((s.lport n).vc 1).ready = m :: rest) &&
     (let r := ({ port := 0, tag := 3, write := true, dest := 0, addr := 0, len := 8, who := .flume 0 4, t0 := 0, sent := true } : PeerReq)
      decide ((s.leaPop n 1).peerReqs.find? (fun r => r.port == n && r.tag == f 8 2 && r.sent && r.write == ((m.headD 0).toNat == 0x23)) = some r ∧ (m.headD 0).toNat = 0x23 ∧ runs (peerDone r (m.getD 0xA 0).toNat []) (s.leaPop n 1) = true))) &&
    (let s := (let s := put { wlp (fun p => { p with st := 3, vcs := [(1, { LVc.none with ready := [blob 64 [(0, 0x23), (2, 8), (8, 3), (0x10, 0x30000)]] })] }) with peerReqs := [{ port := 0, tag := 3, write := true, dest := 0, addr := 0, len := 8, who := .flume 0 4, t0 := 0, sent := true }], time := 3000 } [(leatReg 0 0, 2 ^ 63 + 2 ^ 59 + 2 ^ 53 + 3)]; s)
     let n := 0
     let tag := 3
     let r := ({ port := 0, tag := 3, write := true, dest := 0, addr := 0, len := 8, who := .flume 0 4, t0 := 0, sent := true } : PeerReq)
     decide (s.peerReqs.find? (fun r => r.port == n && r.tag == tag && r.sent) = some r ∧ r.t0 + 1000 * s.rf (leatReg n 0) 15 0 ≤ s.time ∧ runs (peerDone r 0x11 []) s = true)) &&
    (let s := (let s := put { wlp (fun p => { p with st := 3, vcs := [(4, { LVc.none with ready := [blob 64 [(0, 0x30), (2, 8), (8, 3), (0x10, 0x30000)]] })] }) with peerReqs := [] } [(leatReg 0 0, 2 ^ 63 + 2 ^ 59 + 2 ^ 53 + 3)]; s)
     let n := 0
     let m : List Byte := blob 64 [(0, 0x30), (2, 8), (8, 3), (0x10, 0x30000)]
     let rest := ([] : List (List Byte))
     decide (((s.lport n).vc 4).ready = m :: rest)) &&
    (let s := wb
     let o : Origin := wdr
     decide (s.heard o 0x70000 = true ∧ (o.isDrd || originPf0 o) = true ∧ s.rb 0x70000 16 = false)) &&
    (let s := put wb [(0x70000, 0x10005)]
     (let o : Origin := wdr
      decide (s.heard o 0x70000 = true ∧ (o.isDrd || originPf0 o) = true ∧ s.rb 0x70000 16 = true)) &&
     (let n := 0
      let o : Origin := wdr
      decide (s.leatThere n = true ∧ s.heard o (leatReg n 0) = true ∧ o.mine (s.rf (leatReg n 0) 62 60) = true ∧ s.rb (leatReg n 0) 63 = false)))) = true := by decide +kernel

/-- States and operands that meet the hypotheses of `HostAccesses`, clause by clause. -/
theorem witness_HostAccesses :
   ((let s := put wb [(fnCfg 0 0, 2 ^ 63 + 2 ^ 59 + 2 ^ 53)]
     let p := 0
     let f := 0
     let va := 0x30000
     decide (p < 4 ∧ f < 64 ∧ s.fnOpen p f = true) &&
     (let len := 8
      decide (isOk (got (inRead (s.fnView p f) 0 va len) s) = true)) &&
     (let data := ([1, 2] : List Byte)
      decide ((Dev.go (inWrite (s.fnView p f) 0 va data) s).1 = Except.ok (.ok ())))) &&
    (let s := wb
     let p := 0
     let f := 0
     decide (p < 4 ∧ f < 64 ∧ s.fnOpen p f = false)) &&
    (let p := 0
     let f := 0
     decide (p < 4 ∧ f < 64)) &&
    (let s := put (wtc []) [(flushReg 0 0, 0x80)]
     (let w : IWord := wd 0 0 0 0 0 0
      let t := 0
      let r : Run := wr
      let k : LKernel := wk
      decide ((s.tile t).running = some (r, k) ∧ s.canIssue t 0x74 w 0 = true) &&
      (let tl := s.issuing t r 0x74
       let ports := (List.range 4).filter fun p => bit w.imm.toNat p
       decide ((∀ e ∈ tl.outstanding, tl.issued ≤ e.seq + 1) ∧ bit k.flags 1 = true ∧ spWf dTile s.tiles = true ∧ ports = []))) &&
     (let w : IWord := wd 0 0 0 0 0 1
      let t := 0
      let r : Run := wr
      let k : LKernel := wk
      decide ((s.tile t).running = some (r, k) ∧ s.canIssue t 0x74 w 0 = true) &&
      (let tl := s.issuing t r 0x74
       let ports := (List.range 4).filter fun p => bit w.imm.toNat p
       decide ((∀ e ∈ tl.outstanding, tl.issued ≤ e.seq + 1) ∧ bit k.flags 1 = true ∧ spWf dTile s.tiles = true ∧ ports ≠ [] ∧ (∀ p ∈ ports, s.rb (flushReg p (s.tilePart t)) 7 = true) ∧ runs (forAll ports fun p => do
         let g := (← get).rn (flushReg p (s.tilePart t))
         sendHostRead (.tile t) p (fld g 5 0) (fld g 63 8 * 256) 0) (s.setTile t tl) = true)))) &&
    (let s := { wtc [] with hostReqs := [{ tag := 4, port := 0, fn := 0, addr := 64, len := 0, who := .tile 0, t0 := 0 }], time := 0 }
     let tag := 4
     let h : HostReq := ({ tag := 4, port := 0, fn := 0, addr := 64, len := 0, who := .tile 0, t0 := 0 } : HostReq)
     decide (s.hostReqs.find? (fun r => r.tag == tag) = some h) &&
     (let data := ([] : List Byte)
      let ok := true
      decide (runs (hostReadEnd tag ok data) s = true)) &&
     (decide (h.len = 0 ∧ runs (hostReadEnd tag true []) s = true))) &&
    (let s := { wtc [] with hostReqs := [{ tag := 4, port := 0, fn := 0, addr := 64, len := 0, who := .tile 0, t0 := 0 }], time := 50000000 }
     let tag := 4
     let h : HostReq := ({ tag := 4, port := 0, fn := 0, addr := 64, len := 0, who := .tile 0, t0 := 0 } : HostReq)
     decide (s.hostReqs.find? (fun r => r.tag == tag) = some h ∧ h.t0 + 50000000 ≤ s.time ∧ runs (hostReadEnd tag false []) s = true)) &&
    (let s := { wtc [] with hostReqs := [{ tag := 4, port := 0, fn := 0, addr := 64, len := 0, who := .tile 0, t0 := 0 }], time := 49999999 }
     let tag := 4
     let h : HostReq := ({ tag := 4, port := 0, fn := 0, addr := 64, len := 0, who := .tile 0, t0 := 0 } : HostReq)
     decide (s.hostReqs.find? (fun r => r.tag == tag) = some h ∧ s.time < h.t0 + 50000000))) = true := by decide +kernel

/-- States and operands that meet the hypotheses of `Doorbells`, clause by clause. -/
theorem witness_Doorbells :
   ((let s := put wb [(qReg 5 0x20, 2 ^ 32)]
     let q := 5
     let p := 0
     let f := 0
     let v := 0
     decide (q < 8192 ∧ p < 4 ∧ s.ready = true ∧ s.fnFrozen p f = false) &&
     (let cfg := s.rn (qReg q 0)
      let pi := s.rf (qReg q 0x20) 63 32
      decide (fld cfg 47 46 = p ∧ fld cfg 45 40 = f ∧ bit cfg 63 = true ∧ v < 2 ^ 32 ∧ 2 ^ 31 ≤ (v + 2 ^ 32 - pi) % 2 ^ 32))) &&
    (let s := wb
     let q := 5
     let p := 0
     (let f := 0
      (let v := 17
       decide (q < 8192 ∧ p < 4 ∧ s.ready = true ∧ s.fnFrozen p f = false) &&
       (let cfg := s.rn (qReg q 0)
        let cons := s.rf (qReg q 0x20) 31 0
        let pi := s.rf (qReg q 0x20) 63 32
        decide (fld cfg 47 46 = p ∧ fld cfg 45 40 = f ∧ bit cfg 63 = true ∧ v < 2 ^ 32 ∧ (v + 2 ^ 32 - pi) % 2 ^ 32 < 2 ^ 31 ∧ 2 ^ fld cfg 39 35 < (v + 2 ^ 32 - cons) % 2 ^ 32))) &&
      (let v := 16
       decide (q < 8192 ∧ p < 4 ∧ s.ready = true ∧ s.fnFrozen p f = false) &&
       (let cfg := s.rn (qReg q 0)
        let cons := s.rf (qReg q 0x20) 31 0
        let pi := s.rf (qReg q 0x20) 63 32
        decide (fld cfg 47 46 = p ∧ fld cfg 45 40 = f ∧ bit cfg 63 = true ∧ v < 2 ^ 32 ∧ (v + 2 ^ 32 - pi) % 2 ^ 32 < 2 ^ 31 ∧ (v + 2 ^ 32 - cons) % 2 ^ 32 ≤ 2 ^ fld cfg 39 35)))) &&
     (let f := 1
      decide (q < 8192 ∧ p < 4 ∧ s.ready = true ∧ s.fnFrozen p f = false) &&
      (let cfg := s.rn (qReg q 0)
       decide (fld cfg 47 46 ≠ p ∨ fld cfg 45 40 ≠ f))))) = true := by decide +kernel

/-- States and operands that meet the hypotheses of `QueuesAndRegisters`, clause by clause. -/
theorem witness_QueuesAndRegisters :
   ((let s := put { wb with mem := wb.mem ++ bytesAt 0x10000 [2] } [(qReg 5 0x20, 2 ^ 32)]
     let q := 5
     decide (q < 8192) &&
     (let cfg := s.rn (qReg q 0)
      let cons := s.rf (qReg q 0x20) 31 0
      let pi := s.rf (qReg q 0x20) 63 32
      let ext := (none : Option (List Byte))
      decide (bit cfg 63 = true ∧ cons ≠ pi ∧ s.isFrozen 2 q = false ∧ (s.rf (qReg q 0x28) 63 32 + (s.cq q).owed.length + 2 ^ 32 - s.rf (qReg q 0x28) 31 0) % 2 ^ 32 < 2 ^ fld cfg 39 35) &&
      (let bytes := val (got (vaRead (s.queueView q 4) 0 (s.rf (qReg q 0x10) 47 6 * 64 + 64 * (cons % 2 ^ fld cfg 39 35)) 64 ext) s)
       decide (isOk (got (vaRead (s.queueView q 4) 0 (s.rf (qReg q 0x10) 47 6 * 64 + 64 * (cons % 2 ^ fld cfg 39 35)) 64 ext) s) = true) &&
       (let ty := (bytes.headD 0).toNat
        decide (targetTakes (fld cfg 53 50) ty = true ∧ (fld cfg 53 50 < 6 ∨ s.lic 2 = true)))))) &&
    (let s := put { wb with mem := wb.mem ++ bytesAt 0x10000 [0x99] } [(qReg 5 0x20, 2 ^ 32)]
     let q := 5
     decide (q < 8192) &&
     (let cfg := s.rn (qReg q 0)
      let cons := s.rf (qReg q 0x20) 31 0
      let pi := s.rf (qReg q 0x20) 63 32
      let ext := (none : Option (List Byte))
      decide (bit cfg 63 = true ∧ cons ≠ pi ∧ s.isFrozen 2 q = false ∧ (s.rf (qReg q 0x28) 63 32 + (s.cq q).owed.length + 2 ^ 32 - s.rf (qReg q 0x28) 31 0) % 2 ^ 32 < 2 ^ fld cfg 39 35) &&
      (let bytes := val (got (vaRead (s.queueView q 4) 0 (s.rf (qReg q 0x10) 47 6 * 64 + 64 * (cons % 2 ^ fld cfg 39 35)) 64 ext) s)
       let s1 := aft (vaRead (s.queueView q 4) 0 (s.rf (qReg q 0x10) 47 6 * 64 + 64 * (cons % 2 ^ fld cfg 39 35)) 64 ext) s
       decide (isOk (got (vaRead (s.queueView q 4) 0 (s.rf (qReg q 0x10) 47 6 * 64 + 64 * (cons % 2 ^ fld cfg 39 35)) 64 ext) s) = true) &&
       (let u := s1.setF (qReg q 0x20) 31 0 (cons + 1)
        let u := u.setCq q { u.cq q with owed := (u.cq q).owed ++ [(cons, none)] }
        let ty := (bytes.headD 0).toNat
        decide (targetTakes (fld cfg 53 50) ty = false ∧ runs (completeWith q cons ty 0x311 0) u = true))))) &&
    (let q := 5
     decide (q < 8192)) &&
    (let s := wb
     let o : Origin := wdr
     (let v := 2 ^ 63 + 4 * 2 ^ 35
      let q := 6
      decide (q < 8192 ∧ o.isDrd = true) &&
      (let cfg := s.rn (qReg q 0)
       decide (s.heard o (qReg q 0) = true) &&
       (let n := keepBits v (maskBits 63 35)
        decide (bit cfg 63 = false ∧ fld n 53 50 ≤ 8 ∧ bit n 63 = true ∧ 4 ≤ fld n 39 35 ∧ fld n 39 35 ≤ 16)))) &&
     (let v := 2 ^ 54 + 4 * 2 ^ 35
      let q := 5
      decide (q < 8192 ∧ o.isDrd = true) &&
      (let cfg := s.rn (qReg q 0)
       decide (s.heard o (qReg q 0) = true) &&
       (let n := keepBits v (maskBits 63 35)
        decide (bit cfg 63 = true ∧ n = setFld cfg 63 63 0 ∧ bit n 63 = false)))) &&
     (let q := 6
      decide (q < 8192 ∧ o.isDrd = true) &&
      (let cfg := s.rn (qReg q 0)
       (let k := 1
        decide (0 < k ∧ k < 4 ∧ bit cfg 63 = false ∧ s.heard o (qReg q (8 * k)) = true)) &&
       (let k := 2
        decide (0 < k ∧ k < 4 ∧ bit cfg 63 = false ∧ s.heard o (qReg q (8 * k)) = true)) &&
       (let k := 3
        decide (0 < k ∧ k < 4 ∧ bit cfg 63 = false ∧ s.heard o (qReg q (8 * k)) = true)))) &&
     (let p := 0
      (let f := 0
       decide (p < 4 ∧ f < 64 ∧ o.isDrd = true ∧ s.heard o (fnCfg p f) = true ∧ (f = 0 ∨ s.rb (fnCfg p f) 63 = false))) &&
      (let f := 1
       decide (p < 4 ∧ f < 64 ∧ o.isDrd = true ∧ s.heard o (fnCfg p f) = true ∧ (f = 0 ∨ s.rb (fnCfg p f) 63 = false)))) &&
     (let v := 0
      decide (s.heard o 0x30 = true ∧ (o.isDrd || o.isPf) = true ∧ (fld v 62 61 ≠ 1 ∨ s.lic 2 = true)))) &&
    (let s := put wb [(qReg 5 0x28, 2 ^ 32)]
     let o : Origin := wdr
     let v := 1
     let q := 5
     decide (q < 8192 ∧ o.isDrd = true ∧ v < 2 ^ 32 ∧ (s.rf (qReg q 0x28) 63 32 + 2 ^ 32 - v) % 2 ^ 32 < 2 ^ 31 ∧ s.heard o (qReg q 0x28) = true)) &&
    (let s := { wb with licences := 4 }
     let o : Origin := wdr
     let v := 2 ^ 63 + 5
     let n := 0
     decide (n < 4 ∧ s.lic 2 = true ∧ s.heard o (ethReg n) = true ∧ s.rb (ethReg n) 63 = false) &&
     (let k := keepBits v (maskBits 63 32 + maskBits 13 0)
      decide (o.mine (fld k 62 60) = true ∧ fld k 59 58 ≠ 3)))) = true := by decide +kernel

/-- States and operands that meet the hypotheses of `Mailboxes`, clause by clause. -/
theorem witness_Mailboxes :
   ((let s := { wb with tiles := [(0, { wt with regs := [(mbxReg 0 false, BitVec.ofNat 64 (2 ^ 63))] })] }
     let p := 0
     let f := 0
     let m := 0
     decide (m < 1024 ∧ s.ready = true ∧ s.fnFrozen p f = false) &&
     (let t := m / 16
      let k := m % 16
      let tl := s.tile t
      (decide (tl.mbxBound k false p f = true) &&
       (let off := 0
        let data := ([1] : List Byte)
        decide (off + data.length ≤ 64 ∧ data ≠ [] ∧ off + data.length < 64))) &&
      (let b := tl.mbxAt k
       decide (tl.mbxBound k false p f = true) &&
       (let off := 62
        let data := ([1, 2] : List Byte)
        decide (off + data.length ≤ 64 ∧ data ≠ [] ∧ off + data.length = 64 ∧ b.msgs.length < 16))))) &&
    (let s := { wb with tiles := [(0, { wt with regs := [(mbxReg 0 false, BitVec.ofNat 64 (2 ^ 63))], mbx := [(0, { dMbx 0 with msgs := List.replicate 16 (List.replicate 64 0) })] })] }
     let p := 0
     let f := 0
     let m := 0
     decide (m < 1024 ∧ s.ready = true ∧ s.fnFrozen p f = false) &&
     (let t := m / 16
      let k := m % 16
      let tl := s.tile t
      let b := tl.mbxAt k
      decide (tl.mbxBound k false p f = true) &&
      (let off := 63
       let data := ([1] : List Byte)
       decide (off + data.length ≤ 64 ∧ data ≠ [] ∧ off + data.length = 64 ∧ 16 ≤ b.msgs.length)))) &&
    (let s := wb
     let p := 0
     let f := 0
     let m := 0
     decide (m < 1024 ∧ s.ready = true ∧ s.fnFrozen p f = false) &&
     (let t := m / 16
      let k := m % 16
      let tl := s.tile t
      let off := 63
      let data := ([1] : List Byte)
      decide (tl.mbxBound k false p f = false ∧ off + List.length data ≤ 64))) &&
    (let s := { wb with tiles := [(0, { wt with regs := [(mbxReg 0 true, BitVec.ofNat 64 (2 ^ 63))], mbx := [(0, { dMbx 0 with sent := 2 })] })] }
     let p := 0
     let f := 0
     let m := 0
     decide (m < 1024 ∧ s.ready = true ∧ s.fnFrozen p f = false) &&
     (let t := m / 16
      let k := m % 16
      let tl := s.tile t
      let b := tl.mbxAt k
      let v := 1
      decide (tl.mbxBound k true p f = true) &&
      (let left := (b.sent + 2 ^ 32 - v % 2 ^ 32) % 2 ^ 32
       decide (left ≤ b.sent - b.consumed)))) &&
    (let s := { wb with tiles := [(0, { wt with regs := [(mbxReg 0 true, BitVec.ofNat 64 (2 ^ 63))], mbx := [(0, { dMbx 0 with sent := 1, outbox := [[5]] })] })] }
     let p := 0
     let f := 0
     let m := 0
     decide (m < 1024 ∧ s.ready = true ∧ s.fnFrozen p f = false) &&
     (let t := m / 16
      let k := m % 16
      let tl := s.tile t
      let b := tl.mbxAt k
      let x := ([5] : List Byte)
      let rest := ([] : List (List Byte))
      let r := (tl.reg (mbxReg k true)).toNat
      decide (b.outbox = x :: rest ∧ bit r 63 = true))) &&
    (let s := { wb with tiles := [(0, { wt with regs := [(mbxReg 0 true, BitVec.ofNat 64 (2 ^ 63 + 2 ^ 43))], mbx := [(0, { dMbx 0 with sent := 1, outbox := [[5]] })] })] }
     let p := 0
     let f := 0
     let m := 0
     decide (m < 1024 ∧ s.ready = true ∧ s.fnFrozen p f = false) &&
     (let t := m / 16
      let k := m % 16
      let tl := s.tile t
      let b := tl.mbxAt k
      let x := ([5] : List Byte)
      let rest := ([] : List (List Byte))
      let r := (tl.reg (mbxReg k true)).toNat
      decide (b.outbox = x :: rest ∧ bit r 63 = true))) &&
    (let s := { wb with tiles := [(0, wt)] }
     let p := 0
     let f := 0
     let m := 0
     decide (m < 1024 ∧ s.ready = true ∧ s.fnFrozen p f = false) &&
     (let t := m / 16
      let k := m % 16
      let tl := s.tile t
      let b := tl.mbxAt k
      let v := 2 ^ 63
      let o := wdr
      decide (s.tileUp t = true ∧ s.heard o (tileReg t (mbxReg k false)) = true ∧ o.mine (s.tilePart t) = true ∧ b.msgs = []) &&
      (let n := keepBits v (maskBits 63 55)
       decide (s.rf (fnCfg (fld n 62 61) (fld n 60 55)) 62 60 = s.tilePart t)))) &&
    (let s := { wb with tiles := [(0, { wt (fun c => { c with a := [(1, 64)] }) with regs := [(mbxReg 0 false, BitVec.ofNat 64 (2 ^ 63))], mbx := [(0, { dMbx 0 with msgs := [[1, 2]] })] })] }
     (let w : IWord := wd 0 0 1 0 0 0
      let t := 0
      let r : Run := wr
      let k : LKernel := wk
      decide ((s.tile t).running = some (r, k) ∧ s.canIssue t 0x73 w 0 = true) &&
      (let tl := s.issuing t r 0x73
       let y := tl.ctx r.ctx
       let a := (y.aGet w.sa.toNat).toNat
       let m := 4 * r.ctx + fld w.imm.toNat 1 0
       let b := tl.mbxAt m
       decide (w.fn = 0 ∧ bit (tl.reg (mbxReg m false)).toNat 63 = true ∧ a % 64 = 0 ∧ a + 64 ≤ k.cisBytes ∧ r.jmode = 0 ∧ spWf dTile s.tiles = true) &&
       (let x := ([1, 2] : List Byte)
        let rest := ([] : List (List Byte))
        decide (b.msgs = x :: rest)))) &&
     (let w : IWord := wd 2 4 0 0 0 0
      let t := 0
      let r : Run := wr
      let k : LKernel := wk
      decide ((s.tile t).running = some (r, k) ∧ s.canIssue t 0x73 w 0 = true) &&
      (let tl := s.issuing t r 0x73
       let m := 4 * r.ctx + fld w.imm.toNat 1 0
       decide (w.fn = 2 ∧ bit (tl.reg (mbxReg m false)).toNat 63 = true)))) &&
    (let s := { wb with tiles := [(0, { wt (fun c => { c with a := [(1, 64)] }) with regs := [(mbxReg 0 true, BitVec.ofNat 64 (2 ^ 63))] })] }
     let w : IWord := wd 1 0 1 0 0 0
     let t := 0
     let r : Run := wr
     let k : LKernel := wk
     decide ((s.tile t).running = some (r, k) ∧ s.canIssue t 0x73 w 0 = true) &&
     (let tl := s.issuing t r 0x73
      let y := tl.ctx r.ctx
      let a := (y.aGet w.sa.toNat).toNat
      let m := 4 * r.ctx + fld w.imm.toNat 1 0
      let b := tl.mbxAt m
      decide (w.fn = 1 ∧ bit (tl.reg (mbxReg m true)).toNat 63 = true ∧ a % 64 = 0 ∧ b.sent - b.consumed < 16 ∧ readable tl k a 64 = true)))) = true := by decide +kernel

/-- States and operands that meet the hypotheses of `RdmaCommands`, clause by clause. -/
theorem witness_RdmaCommands :
   ((let s := (wq 6 [(0, 0x50), (1, 0), (2, 1), (3, 3), (4, 3), (8, 0xFFFF), (10, 0xFFFF), (38, 0xFFFF), (51, 1), (52, 1)])
     let q := 5
     let c : QCmd := ({ seqno := 7, bytes := blob 64 [(0, 0x50), (1, 0), (2, 1), (3, 3), (4, 3), (8, 0xFFFF), (10, 0xFFFF), (38, 0xFFFF), (51, 1), (52, 1)] } : QCmd)
     let s1 := aft (takeCmd 5 0x50) s
     let n := c.f 4 4
     let v := s1.queueView q 6
     let old := s1.qp n
     let st := c.f 2 1
     decide ((Dev.go (takeCmd q 0x50) s).1 = Except.ok (c) ∧ c.zero 0x35 11 = true ∧ s1.qpSetOk q c = true ∧ st ≠ 0 ∧ st ≠ 4 ∧ runs (completeWith q c.seqno 0x50 0 0) (s1.setQp n { old with
             state := st, port := c.f 1 1, mtu := c.f 3 1, sq := c.f 8 2, rq := c.f 0xA 2, dqpn := c.f 0xC 4,             dgid := (c.bytes.drop 0x10).take 16, dmac := (c.bytes.drop 0x20).take 6, vlan := c.f 0x26 2, dscp := c.f 0x30 1,             prio := c.f 0x31 1, retry := c.f 0x32 1, timeout := c.f 0x33 1, maxrd := c.f 0x34 1, part := v.part, as := v.as.getD 0,             psn := if st = 3 then c.f 0x28 4 else old.psn, epsn := if st = 2 then c.f 0x2C 4 else old.epsn,             left := c.f 0x32 1 }) = true)) &&
    (let s := (wq 6 [(0, 0x50), (1, 0), (2, 0), (3, 3), (4, 3), (8, 0xFFFF), (10, 0xFFFF), (38, 0xFFFF), (51, 1), (52, 1)])
     let q := 5
     let c : QCmd := ({ seqno := 7, bytes := blob 64 [(0, 0x50), (1, 0), (2, 0), (3, 3), (4, 3), (8, 0xFFFF), (10, 0xFFFF), (38, 0xFFFF), (51, 1), (52, 1)] } : QCmd)
     let s1 := aft (takeCmd 5 0x50) s
     let n := c.f 4 4
     let v := s1.queueView q 6
     let st := c.f 2 1
     decide ((Dev.go (takeCmd q 0x50) s).1 = Except.ok (c) ∧ c.zero 0x35 11 = true ∧ s1.qpSetOk q c = true ∧ st = 0) &&
     (let s2 := aft (qpFlush n) s1
      decide (runs (qpFlush n) s1 = true ∧ runs (completeWith q c.seqno 0x50 0 0) (s2.setQp n
             { Qp.none with port := c.f 1 1, sq := c.f 8 2, rq := c.f 0xA 2, part := v.part, as := v.as.getD 0 }) = true))) &&
    (let s := (wq 6 [(0, 0x50), (1, 0), (2, 3), (3, 3), (4, 3), (8, 0xFFFF), (10, 0xFFFF), (38, 0xFFFF), (51, 1), (52, 1)])
     let q := 5
     let c : QCmd := ({ seqno := 7, bytes := blob 64 [(0, 0x50), (1, 0), (2, 3), (3, 3), (4, 3), (8, 0xFFFF), (10, 0xFFFF), (38, 0xFFFF), (51, 1), (52, 1)] } : QCmd)
     let s1 := aft (takeCmd 5 0x50) s
     decide ((Dev.go (takeCmd q 0x50) s).1 = Except.ok (c) ∧ c.zero 0x35 11 = true ∧ s1.qpSetOk q c = false ∧ runs (completeWith q c.seqno 0x50 0xC10 0) s1 = true)) &&
    (let s := { (wq 6 [(0, 0x51), (4, 3)]) with qps := [(3, { Qp.none with state := 1 })] }
     let q := 5
     let c : QCmd := ({ seqno := 7, bytes := blob 64 [(0, 0x51), (4, 3)] } : QCmd)
     let s1 := aft (takeCmd 5 0x51) s
     let n := c.f 4 4
     let old := s1.qp n
     decide ((Dev.go (takeCmd q 0x51) s).1 = Except.ok (c) ∧ c.zero 1 3 = true ∧ c.zero 8 56 = true ∧ old ≠ .none ∧ old.part = s1.qPart q) &&
     (let s2 := aft (qpFlush n) s1
      decide (runs (qpFlush n) s1 = true ∧ runs (completeWith q c.seqno 0x51 0 0) (s2.setQp n .none) = true))) &&
    (let s := (wq 6 [(0, 0x52), (1, 1), (4, 9), (16, 64)])
     let q := 5
     let c : QCmd := ({ seqno := 7, bytes := blob 64 [(0, 0x52), (1, 1), (4, 9), (16, 64)] } : QCmd)
     let s1 := aft (takeCmd 5 0x52) s
     let n := c.f 4 4
     decide ((Dev.go (takeCmd q 0x52) s).1 = Except.ok (c) ∧ c.zero 2 2 = true ∧ c.zero 0x18 40 = true ∧ c.f 1 1 < 4 ∧ c.f 0x10 8 ≠ 0 ∧ s1.mrs.length < 65536 ∧ spGet dMr s1.mrs n = none ∧ runs (completeWith q c.seqno 0x52 0 0) { s1 with mrs := spSet dMr s1.mrs n (some
           { access := c.f 1 1, base := c.f 8 8, len := c.f 0x10 8, part := s1.qPart q, as := s1.rf (qReg q 0) 59 54 }) } = true)) &&
    (let s := { (wq 6 [(0, 0x52), (1, 1), (4, 9), (16, 64)]) with mrs := [(9, some { access := 3, base := 0x30000, len := 64, part := 0, as := 1 })] }
     let q := 5
     let c : QCmd := ({ seqno := 7, bytes := blob 64 [(0, 0x52), (1, 1), (4, 9), (16, 64)] } : QCmd)
     let s1 := aft (takeCmd 5 0x52) s
     let n := c.f 4 4
     decide ((Dev.go (takeCmd q 0x52) s).1 = Except.ok (c) ∧ c.zero 2 2 = true ∧ c.zero 0x18 40 = true ∧ c.f 1 1 < 4 ∧ c.f 0x10 8 ≠ 0 ∧ s1.mrs.length < 65536 ∧ spGet dMr s1.mrs n ≠ none ∧ runs (completeWith q c.seqno 0x52 0xC11 0) s1 = true)) &&
    (let s := { (wq 6 [(0, 0x53), (4, 9)]) with mrs := [(9, some { access := 3, base := 0x30000, len := 64, part := 0, as := 1 })] }
     let q := 5
     let c : QCmd := ({ seqno := 7, bytes := blob 64 [(0, 0x53), (4, 9)] } : QCmd)
     let s1 := aft (takeCmd 5 0x53) s
     let n := c.f 4 4
     decide ((Dev.go (takeCmd q 0x53) s).1 = Except.ok (c) ∧ c.zero 1 3 = true ∧ c.zero 8 56 = true) &&
     (let m := ({ access := 3, base := 0x30000, len := 64, part := 0, as := 1 } : Mr)
      decide (spGet dMr s1.mrs n = some m ∧ m.part = s1.qPart q ∧ runs (completeWith q c.seqno 0x53 0 0) { s1 with mrs := spSet dMr s1.mrs n none } = true))) &&
    (let s := { (wq 6 [(0, 0x60), (4, 8), (8, 0x30000)]) with qps := [(3, { Qp.none with state := 3, sq := 5, maxrd := 1, mtu := 3 })] }
     let q := 5
     let c : QCmd := ({ seqno := 7, bytes := blob 64 [(0, 0x60), (4, 8), (8, 0x30000)] } : QCmd)
     let s1 := aft (takeCmd 5 0x60) s
     let n := 3
     let qp := s1.qp n
     let reads := (qp.out.filter fun m => m.type == 0x64).length
     decide (s.qpOfQueue q true = some n ∧ qp.state = 3 ∧ (bit (c.f 1 1) 0 = false ∨ reads = 0)) &&
     (let type := 0x60
      let ext := (none : Option (List Byte))
      let i := Instr.rdmaSend 5 ext
      decide ((type, i) ∈ [(0x60, Instr.rdmaSend q ext), (0x61, .rdmaSendImm q ext), (0x62, .rdmaWrite q ext), (0x63, .rdmaWriteImm q ext)] ∧ (Dev.go (takeCmd q type) s).1 = Except.ok (c) ∧ isOk (got (vaRead (s1.rdmaView q (.qp n)) 0 (c.f 8 8) (c.f 4 4) ext) s1) = true))) &&
    (let s := { (wq 6 [(0, 0x61), (4, 8), (8, 0x30000)]) with qps := [(3, { Qp.none with state := 3, sq := 5, maxrd := 1, mtu := 3 })] }
     let q := 5
     let c : QCmd := ({ seqno := 7, bytes := blob 64 [(0, 0x61), (4, 8), (8, 0x30000)] } : QCmd)
     let s1 := aft (takeCmd 5 0x61) s
     let n := 3
     let qp := s1.qp n
     let reads := (qp.out.filter fun m => m.type == 0x64).length
     decide (s.qpOfQueue q true = some n ∧ qp.state = 3 ∧ (bit (c.f 1 1) 0 = false ∨ reads = 0)) &&
     (let type := 0x61
      let ext := (none : Option (List Byte))
      let i := Instr.rdmaSendImm 5 ext
      decide ((type, i) ∈ [(0x60, Instr.rdmaSend q ext), (0x61, .rdmaSendImm q ext), (0x62, .rdmaWrite q ext), (0x63, .rdmaWriteImm q ext)] ∧ (Dev.go (takeCmd q type) s).1 = Except.ok (c) ∧ isOk (got (vaRead (s1.rdmaView q (.qp n)) 0 (c.f 8 8) (c.f 4 4) ext) s1) = true))) &&
    (let s := { (wq 6 [(0, 0x62), (4, 8), (8, 0x30000)]) with qps := [(3, { Qp.none with state := 3, sq := 5, maxrd := 1, mtu := 3 })] }
     let q := 5
     let c : QCmd := ({ seqno := 7, bytes := blob 64 [(0, 0x62), (4, 8), (8, 0x30000)] } : QCmd)
     let s1 := aft (takeCmd 5 0x62) s
     let n := 3
     let qp := s1.qp n
     let reads := (qp.out.filter fun m => m.type == 0x64).length
     decide (s.qpOfQueue q true = some n ∧ qp.state = 3 ∧ (bit (c.f 1 1) 0 = false ∨ reads = 0)) &&
     (let type := 0x62
      let ext := (none : Option (List Byte))
      let i := Instr.rdmaWrite 5 ext
      decide ((type, i) ∈ [(0x60, Instr.rdmaSend q ext), (0x61, .rdmaSendImm q ext), (0x62, .rdmaWrite q ext), (0x63, .rdmaWriteImm q ext)] ∧ (Dev.go (takeCmd q type) s).1 = Except.ok (c) ∧ isOk (got (vaRead (s1.rdmaView q (.qp n)) 0 (c.f 8 8) (c.f 4 4) ext) s1) = true))) &&
    (let s := { (wq 6 [(0, 0x63), (4, 8), (8, 0x30000)]) with qps := [(3, { Qp.none with state := 3, sq := 5, maxrd := 1, mtu := 3 })] }
     let q := 5
     let c : QCmd := ({ seqno := 7, bytes := blob 64 [(0, 0x63), (4, 8), (8, 0x30000)] } : QCmd)
     let s1 := aft (takeCmd 5 0x63) s
     let n := 3
     let qp := s1.qp n
     let reads := (qp.out.filter fun m => m.type == 0x64).length
     decide (s.qpOfQueue q true = some n ∧ qp.state = 3 ∧ (bit (c.f 1 1) 0 = false ∨ reads = 0)) &&
     (let type := 0x63
      let ext := (none : Option (List Byte))
      let i := Instr.rdmaWriteImm 5 ext
      decide ((type, i) ∈ [(0x60, Instr.rdmaSend q ext), (0x61, .rdmaSendImm q ext), (0x62, .rdmaWrite q ext), (0x63, .rdmaWriteImm q ext)] ∧ (Dev.go (takeCmd q type) s).1 = Except.ok (c) ∧ isOk (got (vaRead (s1.rdmaView q (.qp n)) 0 (c.f 8 8) (c.f 4 4) ext) s1) = true))) &&
    (let s := { (wq 6 [(0, 0x64), (4, 8), (8, 0x30000)]) with qps := [(3, { Qp.none with state := 3, sq := 5, maxrd := 1, mtu := 3 })] }
     let q := 5
     let c : QCmd := ({ seqno := 7, bytes := blob 64 [(0, 0x64), (4, 8), (8, 0x30000)] } : QCmd)
     let s1 := aft (takeCmd 5 0x64) s
     let n := 3
     let qp := s1.qp n
     let reads := (qp.out.filter fun m => m.type == 0x64).length
     decide (s.qpOfQueue q true = some n ∧ qp.state = 3 ∧ (bit (c.f 1 1) 0 = false ∨ reads = 0) ∧ (Dev.go (takeCmd q 0x64) s).1 = Except.ok (c) ∧ reads < qp.maxrd)) &&
    (let s := put ({ (wq 6 [(0, 0x65), (4, 60), (8, 0x30000)]) with qps := [(3, { Qp.none with state := 3, sq := 5, maxrd := 1, mtu := 3 })] }) [(ethReg 0, 1500 * 2 ^ 32)]
     let q := 5
     let c : QCmd := ({ seqno := 7, bytes := blob 64 [(0, 0x65), (4, 60), (8, 0x30000)] } : QCmd)
     let s1 := aft (takeCmd 5 0x65) s
     let n := 3
     let qp := s1.qp n
     let ext := (none : Option (List Byte))
     decide (s.qpOfQueue q true = some n ∧ (Dev.go (takeCmd q 0x65) s).1 = Except.ok (c) ∧ qp.state ≠ 4 ∧ 60 ≤ c.f 4 4 ∧ c.f 4 4 + 4 ≤ s1.rf (ethReg qp.port) 45 32) &&
     (let bs := val (got (vaRead (s1.rdmaView q (.qp n)) 0 (c.f 8 8) (c.f 4 4) ext) s1)
      let s2 := aft (vaRead (s1.rdmaView q (.qp n)) 0 (c.f 8 8) (c.f 4 4) ext) s1
      decide (isOk (got (vaRead (s1.rdmaView q (.qp n)) 0 (c.f 8 8) (c.f 4 4) ext) s1) = true ∧ runs (complete q c.seqno (rdmaRecord c 0 0 bs.length 0xFF s2.time)) (s2.emit (.eth qp.port bs)) = true))) &&
    (let s := (wq 6 [(0, 0x68), (4, 60), (8, 0x30000)])
     let q := 5
     let c : QCmd := ({ seqno := 7, bytes := blob 64 [(0, 0x68), (4, 60), (8, 0x30000)] } : QCmd)
     let s1 := aft (takeCmd 5 0x68) s
     let n := 3
     decide ((Dev.go (takeCmd q 0x68) s).1 = Except.ok (c) ∧ (s1.qpOfQueue q false).all (fun n => decide ((s1.qp n).state ≠ 4)) = true)) &&
    (let s := put { wb with licences := 4, queues := [(5, { dCmdQ 5 with posted := [({ seqno := 7, bytes := blob 64 [(0, 0x68), (4, 60), (8, 0x30000)] } : QCmd)] })] } [(ethReg 0, 2 ^ 63 + 1500 * 2 ^ 32 + 2 ^ 13 + 5)]
     let port := 0
     let frame := List.replicate 60 (0 : Byte)
     decide (port < 4 ∧ s.lic 2 = true ∧ s.rb (ethReg port) 63 = true ∧ frame.length ≤ s.rf (ethReg port) 45 32 ∧ passesOn frame = false) &&
     (let raw := s.rf (ethReg port) 12 0
      decide (s.rb (ethReg port) 13 = true ∧ (s.cq raw).posted ≠ []) &&
      (let a := got (recvInto raw (.queue raw) frame none) s
       decide ((Dev.go (recvInto raw (.queue raw) frame none) s).1 = Except.ok (a))))) &&
    (let s := put { wb with licences := 4 } [(ethReg 0, 2 ^ 63 + 1500 * 2 ^ 32 + 0)]
     let port := 0
     let frame := List.replicate 60 (0 : Byte)
     decide (port < 4 ∧ s.lic 2 = true ∧ s.rb (ethReg port) 63 = true ∧ frame.length ≤ s.rf (ethReg port) 45 32 ∧ passesOn frame = false ∧ s.rb (ethReg port) 13 = false))) = true := by decide +kernel

/-- States and operands that meet the hypotheses of `RdmaMessages`, clause by clause. -/
theorem witness_RdmaMessages :
   ((let s := { wb with licences := 4, qps := [(3, { Qp.none with state := 2 })], mrs := [(9, some { access := 3, base := 0x30000, len := 64, part := 0, as := 1 })] }
     let n := 3
     (let psn := 0
      decide (s.qp n ≠ .none ∧ s.lic 2 = true) &&
      (let q := s.qp n
       (let key := 9
        let va := 0x30000
        (let len := 8
         let m := ({ access := 3, base := 0x30000, len := 64, part := 0, as := 1 } : Mr)
         decide (psn = q.epsn ∧ s.mrFor n key va len 0 = some m ∧ isOk (got (inRead (s.mrView n m) 0 va len) s) = true)) &&
        (let data := ([1] : List Byte)
         let m := ({ access := 3, base := 0x30000, len := 64, part := 0, as := 1 } : Mr)
         decide (psn = q.epsn ∧ s.mrFor n key va data.length 1 = some m ∧ (Dev.go (inWrite (s.mrView n m) 0 va data) s).1 = Except.ok (.ok ())))) &&
       (let key := 8
        let va := 0x30000
        let len := 8
        decide (psn = q.epsn ∧ s.mrFor n key va len 0 = none)))) &&
     (let psn := 1
      decide (s.qp n ≠ .none ∧ s.lic 2 = true) &&
      (let q := s.qp n
       decide (psn ≠ q.epsn ∧ psnBefore psn q.epsn = false ∧ (q.state = 2 ∨ q.state = 3))))) &&
    (let s := { wb with licences := 4, qps := [(3, { Qp.none with state := 2, rq := 5 })], mrs := [(9, some { access := 3, base := 0x30000, len := 64, part := 0, as := 1 })], queues := [(5, { dCmdQ 5 with posted := [({ seqno := 7, bytes := blob 64 [(0, 0x68), (4, 60), (8, 0x30000)] } : QCmd)] })] }
     let n := 3
     let psn := 0
     decide (s.qp n ≠ .none ∧ s.lic 2 = true) &&
     (let q := s.qp n
      let data := ([1] : List Byte)
      let imm := (none : Option Nat)
      decide ((q.state = 2 ∨ q.state = 3) ∧ psn = q.epsn ∧ q.rq ≠ 0xFFFF ∧ (Dev.go (recvInto q.rq (.qp n) data imm) s).1 = Except.ok ((some false))))) &&
    (let s := { wb with licences := 4, qps := [(3, { Qp.none with state := 3, out := [{ psn := 0, pkts := 1, type := 0x60, data := [1], raddr := 0, rkey := 0, len := 1, imm := 0, cmd := none, tag := 0, laddr := 0, got := 0 }], timeout := 1 })], mrs := [(9, some { access := 3, base := 0x30000, len := 64, part := 0, as := 1 })] }
     let n := 3
     let psn := 0
     let q := s.qp n
     (decide (q.state = 3 ∧ q.out ≠ [] ∧ runs (qpAcked n psn) s = true)) &&
     (let before := (psn + 2 ^ 24 - 1) % 2 ^ 24
      decide (q.state = 3 ∧ q.out ≠ []) &&
      (let s1 := aft (qpAcked n before) s
       decide (runs (qpAcked n before) s = true ∧ runs (qpFail n 0xC12) s1 = true)) &&
      (decide (runs (qpAcked n before) s = true)))) &&
    (let s := { { wb with licences := 4, qps := [(3, { Qp.none with state := 3, out := [{ psn := 0, pkts := 1, type := 0x60, data := [1], raddr := 0, rkey := 0, len := 1, imm := 0, cmd := none, tag := 0, laddr := 0, got := 0 }], timeout := 1, left := 1, rnr := true })], mrs := [(9, some { access := 3, base := 0x30000, len := 64, part := 0, as := 1 })] } with time := 10000 }
     let n := 3
     let q := s.qp n
     decide (0 < q.left ∧ q.rnr = true ∧ q.since + 10000 ≤ s.time)) &&
    (let s := { { wb with licences := 4, qps := [(3, { Qp.none with state := 3, out := [{ psn := 0, pkts := 1, type := 0x60, data := [1], raddr := 0, rkey := 0, len := 1, imm := 0, cmd := none, tag := 0, laddr := 0, got := 0 }], timeout := 1, left := 1 })], mrs := [(9, some { access := 3, base := 0x30000, len := 64, part := 0, as := 1 })] } with time := 8192 }
     let n := 3
     let q := s.qp n
     decide (0 < q.left ∧ q.state = 3 ∧ q.out ≠ [] ∧ q.rnr = false ∧ q.since + 4096 * 2 ^ q.timeout ≤ s.time)) &&
    (let s := { { wb with licences := 4, qps := [(3, { Qp.none with state := 3, out := [{ psn := 0, pkts := 1, type := 0x60, data := [1], raddr := 0, rkey := 0, len := 1, imm := 0, cmd := none, tag := 0, laddr := 0, got := 0 }], timeout := 1 })], mrs := [(9, some { access := 3, base := 0x30000, len := 64, part := 0, as := 1 })] } with time := 8192 }
     let n := 3
     let q := s.qp n
     decide (q.left = 0 ∧ runs (qpFail n 0xC13) s = true ∧ q.state = 3 ∧ q.out ≠ [] ∧ q.rnr = false ∧ q.since + 4096 * 2 ^ q.timeout ≤ s.time)) &&
    (let s := { wb with licences := 4, qps := [(3, { Qp.none with state := 3, out := [{ psn := 0, pkts := 1, type := 0x60, data := [1], raddr := 0, rkey := 0, len := 1, imm := 0, cmd := none, tag := 0, laddr := 0, got := 0 }], timeout := 1 })], mrs := [(9, some { access := 3, base := 0x30000, len := 64, part := 0, as := 1 })], udAgain := [(0, 1, 3, [5])] }
     let n := 3
     let due := 0
     let port := 1
     let m := ([5] : List Byte)
     let rest := ([] : List (Nat × Nat × Nat × List Byte))
     decide (s.udAgain = (due, port, n, m) :: rest ∧ due ≤ s.time))) = true := by decide +kernel

/-- States and operands that meet the hypotheses of `DeviceTime`, clause by clause. -/
theorem witness_DeviceTime :
   ((let s := put { wb with licences := 4, ptpGood := 15 } [(0x30, 2 ^ 63 + 2 * 2 ^ 61 + 2 ^ 59)]
     let n := 1
     decide (spWf regInit s.regs = true ∧ s.rb 0x30 63 = true ∧ s.rf 0x30 60 59 = n ∧ s.rf 0x30 62 61 = 2)) &&
    (let s := put { wb with licences := 4, ptpGood := 15 } [(0x30, 2 ^ 63 + 1 * 2 ^ 61 + 2 ^ 59)]
     let n := 1
     decide (spWf regInit s.regs = true ∧ s.rb 0x30 63 = true ∧ s.rf 0x30 60 59 = n ∧ s.rf 0x30 62 61 = 1 ∧ s.lic 2 = true))) = true := by decide +kernel

/-- States and operands that meet the hypotheses of `Media`, clause by clause. -/
theorem witness_Media :
   ((let s := wm
     let r := 0
     decide (r < 32) &&
     (let q := ringQ r
      let v := 2
      let o := ({ cls := 3, part := 0, port := 0, id := 0 } : Origin)
      let off := hifReg (0x4030 + 0x40 * r)
      decide (s.heard o off = true ∧ (o.isPf && o.part == s.rf (qReg q 0) 62 60) = true ∧ v < 2 ^ 32) &&
      (let s0 := (s.noted o off v).shadowing off v
       let pi := s0.rf (qReg q 0x20) 63 32
       let n := s0.rf (qReg q 0x20) 31 0
       decide (s.rb (qReg q 0) 63 = true ∧ (v + 2 ^ 32 - pi) % 2 ^ 32 < 2 ^ 31 ∧ (v + 2 ^ 32 - n) % 2 ^ 32 ≤ s0.qSize q)))) &&
    (let s := wm fun s => put s [(qReg 8192 0, 0)]
     let r := 0
     decide (r < 32) &&
     (let q := ringQ r
      (let k := 0
       let v := 2 ^ 63 + 4 * 2 ^ 40
       let o := wdr
       decide (k < 3 ∧ o.isDrd = true ∧ s.heard o (hifReg (0x4000 + 0x40 * r + 8 * k)) = true ∧ s.rb (qReg q 0) 63 = false ∧ (k = 0 → bit v 63 = true → 4 ≤ fld v 44 40 ∧ fld v 44 40 ≤ 12))) &&
      (let k := 1
       let v := 2 ^ 63 + 4 * 2 ^ 40
       let o := wdr
       decide (k < 3 ∧ o.isDrd = true ∧ s.heard o (hifReg (0x4000 + 0x40 * r + 8 * k)) = true ∧ s.rb (qReg q 0) 63 = false ∧ (k = 0 → bit v 63 = true → 4 ≤ fld v 44 40 ∧ fld v 44 40 ≤ 12))) &&
      (let k := 2
       let v := 2 ^ 63 + 4 * 2 ^ 40
       let o := wdr
       decide (k < 3 ∧ o.isDrd = true ∧ s.heard o (hifReg (0x4000 + 0x40 * r + 8 * k)) = true ∧ s.rb (qReg q 0) 63 = false ∧ (k = 0 → bit v 63 = true → 4 ≤ fld v 44 40 ∧ fld v 44 40 ≤ 12))))) &&
    (let s := wm fun s => put { s with mem := s.mem ++ bytesAt 0x60000 (blob 128 [(0, 0x70)]) } [(qReg 8192 0x20, 2 ^ 32)]
     let r := 0
     decide (r < 32) &&
     (let q := ringQ r
      let cons := s.rf (qReg q 0x20) 31 0
      let ext := (none : Option (List Byte))
      let bytes := blob 128 [(0, 0x70)]
      decide (s.rb (qReg q 0) 63 = true ∧ cons ≠ s.rf (qReg q 0x20) 63 32 ∧ (s.rf (qReg q 0x28) 63 32 + (s.cq q).owed.length + 2 ^ 32 - s.rf (qReg q 0x28) 31 0) % 2 ^ 32 < s.qSize q ∧ (Dev.go (vaRead (s.queueView q 7) 0 (s.rf (qReg q 0x10) 47 6 * 64 + 128 * (cons % s.qSize q)) 128 ext) s).1 = Except.ok (.ok bytes)) &&
      (let j : MedJob := { ring := r, idx := cons, bytes := bytes, t0 := s.time, res := none }
       decide (s.medThere (s.rf (qReg q 0) 53 53) = true ∧ 0x70 ≤ j.type ∧ j.type ≤ 0x73)))) &&
    (let s := wm fun s => { s with jobs := [wmj (wmo 0)], medDead := 2 }
     let r := 0
     let i := 0
     let j : MedJob := wmj (wmo 0)
     decide (s.medWaits j = false) &&
     (let turn := fun ty => s.jobs.find? fun j => j.ring == r && j.idx == i && j.res.isNone && j.type == ty
      decide (turn 0x70 = some j) &&
      (let d := s.rf (qReg (ringQ r) 0) 53 53
       let enc := j.f 0x19 1 == 1
       decide ((!enc || s.lic 4) = true ∧ medOpenOk j = true ∧ medSupported j = true ∧ (s.sessions.filter fun x => x.die == d).length < 64 ∧ medStore j ≤ j.f 0x38 8 ∧ j.f 0x1D 1 ≠ 0) &&
       (let e := 0
        decide (s.medEngines d enc = [e]))))) &&
    (let s := wm fun s => { s with jobs := [wmj (wmo 1)] }
     let r := 0
     let i := 0
     let j : MedJob := wmj (wmo 1)
     decide (s.medWaits j = false) &&
     (let turn := fun ty => s.jobs.find? fun j => j.ring == r && j.idx == i && j.res.isNone && j.type == ty
      decide (turn 0x70 = some j) &&
      (let enc := j.f 0x19 1 == 1
       decide ((enc && !s.lic 4) = true)))) &&
    (let s := wm fun s => { s with jobs := [wmj [(0, 0x73), (4, 3)]], sessions := [wms 0] }
     let r := 0
     let i := 0
     let j : MedJob := wmj [(0, 0x73), (4, 3)]
     decide (s.medWaits j = false) &&
     (let turn := fun ty => s.jobs.find? fun j => j.ring == r && j.idx == i && j.res.isNone && j.type == ty
      decide (turn 0x73 = some j ∧ (j.hdrOk 0 && j.zero 0x18 104) = true) &&
      (let x := wms 0
       decide (s.session j.num = some x ∧ x.ring = j.ring)))) &&
    (let s := wm fun s => { s with jobs := [wmj [(0, 0x73), (4, 3)]] }
     let r := 0
     let i := 0
     let j : MedJob := wmj [(0, 0x73), (4, 3)]
     decide (s.medWaits j = false) &&
     (let turn := fun ty => s.jobs.find? fun j => j.ring == r && j.idx == i && j.res.isNone && j.type == ty
      decide (turn 0x73 = some j ∧ (j.hdrOk 0 && j.zero 0x18 104) = true ∧ s.session j.num = none))) &&
    (let s := wm fun s => { s with jobs := [wmj [(0, 0x71), (4, 3), (0x18, 0x32000), (0x20, 1), (0x29, 1), (0x30, 0x30000), (0x38, 1), (0x40, 0x31000)]], sessions := [wms 0], mem := s.mem ++ bytesAt 0x30000 wmp }
     let r := 0
     let i := 0
     let j : MedJob := wmj [(0, 0x71), (4, 3), (0x18, 0x32000), (0x20, 1), (0x29, 1), (0x30, 0x30000), (0x38, 1), (0x40, 0x31000)]
     let x : Sess := wms 0
     let s1 := aft (medRead (wms 0) 0x30000 64 none) s
     decide (s.medWaits j = false ∧ s.session j.num = some x ∧ x.ring = j.ring ∧ x.failed = false) &&
     (let turn := fun ty => s.jobs.find? fun j => j.ring == r && j.idx == i && j.res.isNone && j.type == ty
      decide (turn 0x71 = some j ∧ medDecodeOk j = true ∧ x.f 0x19 1 = 0) &&
      (let us := [wmu]
       let tail := ([] : List MedFrame)
       let bs := (none : Option (List Byte))
       let pix := (none : Option (List Byte))
       let pr := wmp
       let room := j.f 0x38 4
       let step := j.f 0x29 1
       let w0 : MedWork := { units := 0, bytes := 0, out := [], ready := x.ready, shown := x.shown, conceal := 0, resync := 0, samples := 0 }
       let w1 := medUnits j (w0.drain step room) us
       let w := if j.f 1 1 = 1 ∧ w1.out.length < room then { w1 with ready := w1.ready ++ tail }.drain step room else w1
       let used := min w.bytes (j.f 0x20 4)
       let d := tdOf (BitVec.ofNat 512 (leNat pr))
       decide ((Dev.go (medRead x (j.f 0x30 8) 64 pix) s).1 = Except.ok (pr)) &&
       (let s2 := aft (medRead x (j.f 0x18 8) used bs) s1
        decide (runs (medRead x (j.f 0x18 8) used bs) s1 = true ∧ (j.f 0x28 1 = 1 → medTdOk d (3 * room) = true ∧ ∀ g ∈ w.out, medOutSize j g = (d.cols, d.rows))) &&
        (let u := (((s2.setSession { x with shown := w.shown, ready := w.ready }).count (medReg x.die 8) w.conceal).count
         (medReg x.die 0x10) w.resync).perf (medReg x.die 0x100) w.samples
         decide (runs (forAll w.out.zipIdx fun p => do
         if j.f 0x28 1 = 0 then medPlanes x j pr p.1 p.2
         else forAll [0, 1, 2] fun c => medChannel x j d p.1 c (3 * p.2 + c)
         medWrite x (j.f 0x40 8 + 16 * p.2) (medInfo p.1)) u = true)))))) &&
    (let s := wm fun s => { s with jobs := [wmj [(0, 0x72), (4, 3), (0x18, 0x30000), (0x22, 2), (0x24, 2), (0x28, 0x50000), (0x30, 65536)]], sessions := [wms 1], mem := s.mem ++ bytesAt 0x30000 wmp }
     let r := 0
     let i := 0
     let j : MedJob := wmj [(0, 0x72), (4, 3), (0x18, 0x30000), (0x22, 2), (0x24, 2), (0x28, 0x50000), (0x30, 65536)]
     let x : Sess := wms 1
     decide (s.medWaits j = false ∧ s.session j.num = some x ∧ x.ring = j.ring ∧ x.failed = false) &&
     (let turn := fun ty => s.jobs.find? fun j => j.ring == r && j.idx == i && j.res.isNone && j.type == ty
      decide (turn 0x72 = some j ∧ medEncodeOk j = true ∧ x.f 0x19 1 = 1) &&
      (let cs := [wmc]
       let pr := (none : Option (List Byte))
       let pix := (none : Option (List Byte))
       let st := ({ at_ := 3, x := { wms 1 with coded := 1 }, flags := 0, status := 0, samples := 4 } : MedEnc)
       decide (j.f 0x22 2 ≤ x.f 0x20 2 ∧ j.f 0x24 2 ≤ x.f 0x22 2 ∧ medSlices x j = false) &&
       (let s1 := aft (medInput x j pr pix) s
        decide (runs (medInput x j pr pix) s = true ∧ (Dev.go (medFrames j 0 { at_ := 0, x := x, flags := 0, status := 0, samples := 0 } cs) s1).1 = Except.ok st ∧ st.status = 0))))) &&
    (let s := wm fun s => { s with jobs := [wmj [(0, 0x70), (0x10, 0x51000)] (some MedRes.zero)] }
     let r := 0
     let i := 0
     let j := wmj [(0, 0x70), (0x10, 0x51000)] (some MedRes.zero)
     let m := MedRes.zero
     decide (s.jobs.find? (fun j => j.ring == r && j.idx == i) = some j ∧ j.res = some m ∧ (∀ x ∈ s.sessions, x.fall = none) ∧ j.f 0x10 8 % 64 = 0) &&
     (let s1 := aft (vaWrite { s.queueView (ringQ r) 7 with who := .media j.num } 0 (j.f 0x10 8) (m.record s.time)) s
      decide ((Dev.go (vaWrite { s.queueView (ringQ r) 7 with who := .media j.num } 0 (j.f 0x10 8) (m.record s.time)) s).1 = Except.ok (.ok ()) ∧ runs (complete (ringQ r) i (recordBytes i m.status j.type 0xFF (j.f 8 8) m.flags m.detail s.time)) { s1 with jobs := s1.jobs.filter fun k => !(k.ring == r && k.idx == i) } = true))) &&
    (let s := wm fun s => { s with jobs := [wmj [(0, 0x72), (4, 3), (0x38, 0x52000), (0x40, 4)]], sessions := [{ wms 1 with fall := some (0, { off := 0, bytes := 8, frame := 0, flags := 3 }) }] }
     let num := 3
     let x := ({ wms 1 with fall := some (0, { off := 0, bytes := 8, frame := 0, flags := 3 }) } : Sess)
     let idx := 0
     let e := ({ off := 0, bytes := 8, frame := 0, flags := 3 } : Slice)
     let j := wmj [(0, 0x72), (4, 3), (0x38, 0x52000), (0x40, 4)]
     let cons := (none : Option (List Byte))
     let y := ({ { wms 1 with fall := some (0, { off := 0, bytes := 8, frame := 0, flags := 3 }) } with seq := 1 } : Sess)
     decide (s.session num = some x ∧ x.fall = some (idx, e) ∧ s.jobs.find? (fun j => j.ring == x.ring && j.idx == idx) = some j) &&
     (let c := got (medRead x (j.f 0x38 8) 4 cons) s
      let s1 := aft (medRead x (j.f 0x38 8) 4 cons) s
      decide (runs (medRead x (j.f 0x38 8) 4 cons) s = true ∧ (Dev.go (putSlice x j (leNat c) e) s1).1 = Except.ok (y, true)))) &&
    (let s := wm fun s => { s with jobs := [wmj [(0, 0x72), (4, 3), (0x38, 0x52000), (0x40, 4)]], sessions := [wms 0] }
     let d := 0
     let e := 0
     decide (d < 2 ∧ e < 3 ∧ s.medThere d = true))) = true := by decide +kernel

/-- States and operands that meet the hypotheses of `Starts`, clause by clause. -/
theorem witness_Starts :
   ((let s := { wb with pins := { Pins.reset with standby := false } }
     decide (s.pins.standby = false)) &&
    (let s := { wb with pins := { Pins.reset with pwrgd := false } }
     decide (s.pins.standby = true ∧ s.pins.cold = true)) &&
    (let s := { wb with pins := { Pins.reset with cold := false } }
     (let us := 10
      decide (10 ≤ us ∧ s.pins.standby = true)) &&
     (let us := 1
      decide (1 ≤ us ∧ s.pins.pwrgd = true))) &&
    (let us := 9
     decide (us < 10)) &&
    (let s := { wb with pins := { Pins.reset with cold := true } }
     let us := 1
     decide (1 ≤ us ∧ s.pins.pwrgd = true)) &&
    (let s := State.reset
     (let b : Findings := { wfd0 with testLow := true }
      decide (s.pins.cold = true ∧ s.pins.pwrgd = true ∧ s.pins.standby = true ∧ (b.testLow || !b.fuseOk) = true)) &&
     (let b : Findings := wfd0
      decide (s.pins.cold = true ∧ s.pins.pwrgd = true ∧ s.pins.standby = true) &&
      (let s0 := { s with time := 0, pins := { s.pins with cold := false } }
       decide ((b.testLow || !b.fuseOk) = false) &&
       (let bank := ((s0.stage 2).selectBank).2
        decide (bank = none))))) &&
    (let s := wb
     (let us := 10
      let o : Origin := ({ cls := 3, part := 0, port := 0, id := 0 } : Origin)
      let b : Findings := wfd0
      decide (s.pins.cold = false ∧ s.pins.trip = false ∧ s.rf 0x18 31 24 ≠ 1 ∧ s.fw.busy = none ∧ 10 ≤ us ∧ o.isDrd = false ∧ runs (warmStart b) s = true)) &&
     (let us := 9
      let o : Origin := ({ cls := 3, part := 0, port := 0, id := 0 } : Origin)
      decide (s.pins.cold = false ∧ s.pins.trip = false ∧ s.rf 0x18 31 24 ≠ 1 ∧ s.fw.busy = none ∧ us < 10 ∧ o.isDrd = false)) &&
     (let v := 0xA5C30001
      let o : Origin := ({ cls := 3, part := 0, port := 0, id := 0 } : Origin)
      let b : Findings := wfd0
      decide (s.pins.cold = false ∧ s.pins.trip = false ∧ s.rf 0x18 31 24 ≠ 1 ∧ s.fw.busy = none ∧ v < 2 ^ 32 ∧ fld v 31 16 = 0xA5C3 ∧ (o.isDrd || originPf0 o) = true) &&
      (let s0 := (s.noted o 0x20 v).shadowing 0x20 v
       decide (bit v 0 = true ∧ runs (warmStart b) s0 = true))) &&
     (let v := 0xA5C30000
      let o : Origin := ({ cls := 3, part := 0, port := 0, id := 0 } : Origin)
      decide (s.pins.cold = false ∧ s.pins.trip = false ∧ s.rf 0x18 31 24 ≠ 1 ∧ s.fw.busy = none ∧ v < 2 ^ 32 ∧ fld v 31 16 = 0xA5C3 ∧ (o.isDrd || originPf0 o) = true ∧ bit v 0 = false))) &&
    (let s := { State.reset with pins := { Pins.reset with cold := false } }
     decide (s.ready = false) &&
     (let w := (s.warmCleared.setF 0x18 19 19 1).stage 0x13
      decide (((if w.power.brake then w.setF 0x30008 61 61 1 else w).selectBank).2 = none)))) = true := by decide +kernel

/-- States and operands that meet the hypotheses of `FlashUnit`, clause by clause. -/
theorem witness_FlashUnit :
   ((let s := wb
     (let len := 8
      let o : Origin := ({ cls := 3, part := 0, port := 0, id := 0 } : Origin)
      decide (s.heard o 0x10010 = true ∧ (originPf0 o || o.cls == 4) = true ∧ s.fw.busy = none) &&
      (let op := 1
       let i := Instr.fwBegin len o
       decide ((op, i) ∈ [(1, Instr.fwBegin len o), (2, .fwChunk len o), (3, .fwCommit len o), (4, .fwAbort len o), (5, .licAdd len o),
         (6, .defectClear len o), (7, .fwRead len o)])) &&
      (let op := 2
       let i := Instr.fwChunk len o
       decide ((op, i) ∈ [(1, Instr.fwBegin len o), (2, .fwChunk len o), (3, .fwCommit len o), (4, .fwAbort len o), (5, .licAdd len o),
         (6, .defectClear len o), (7, .fwRead len o)])) &&
      (let op := 3
       let i := Instr.fwCommit len o
       decide ((op, i) ∈ [(1, Instr.fwBegin len o), (2, .fwChunk len o), (3, .fwCommit len o), (4, .fwAbort len o), (5, .licAdd len o),
         (6, .defectClear len o), (7, .fwRead len o)])) &&
      (let op := 4
       let i := Instr.fwAbort len o
       decide ((op, i) ∈ [(1, Instr.fwBegin len o), (2, .fwChunk len o), (3, .fwCommit len o), (4, .fwAbort len o), (5, .licAdd len o),
         (6, .defectClear len o), (7, .fwRead len o)])) &&
      (let op := 5
       let i := Instr.licAdd len o
       decide ((op, i) ∈ [(1, Instr.fwBegin len o), (2, .fwChunk len o), (3, .fwCommit len o), (4, .fwAbort len o), (5, .licAdd len o),
         (6, .defectClear len o), (7, .fwRead len o)])) &&
      (let op := 6
       let i := Instr.defectClear len o
       decide ((op, i) ∈ [(1, Instr.fwBegin len o), (2, .fwChunk len o), (3, .fwCommit len o), (4, .fwAbort len o), (5, .licAdd len o),
         (6, .defectClear len o), (7, .fwRead len o)])) &&
      (let op := 7
       let i := Instr.fwRead len o
       decide ((op, i) ∈ [(1, Instr.fwBegin len o), (2, .fwChunk len o), (3, .fwCommit len o), (4, .fwAbort len o), (5, .licAdd len o),
         (6, .defectClear len o), (7, .fwRead len o)]))) &&
     (decide (s.fw.busy = none))) &&
    (let s := { wb with fw := { FwUnit.none with busy := some (1, 8) } }
     let len := 8
     decide (s.fw.staging = none ∧ 1 ≤ len ∧ len ≤ 31457280 ∧ s.fw.busy = some (1, len))) &&
    (let s := { wb with fw := { FwUnit.none with busy := some (1, 0) } }
     let len := 0
     decide (s.fw.staging = none ∧ len = 0 ∧ s.fw.busy = some (1, len))) &&
    (let s := { wb with fw := { FwUnit.none with busy := some (2, 8) } }
     let len := 8
     decide (s.fw.staging = none ∧ s.fw.busy = some (2, len))) &&
    (let s := { wb with fw := { FwUnit.none with busy := some (4, 8) } }
     let len := 8
     decide (s.fw.staging = none ∧ s.fw.busy = some (4, len))) &&
    (let s := { wb with fw := { FwUnit.none with busy := some (5, 8) } }
     let len := 8
     decide (s.fw.staging = none ∧ s.licOk (s.fwWin 128) = false ∧ s.fw.busy = some (5, len))) &&
    (let s := { wb with fw := { FwUnit.none with busy := some (6, 0) }, defects := [{ kind := 5, st := 0, unit := 0, loc := 0, events := 0, bootno := 0 }] }
     let len := 0
     let (_, _, active, next, bootno) := s.flashHdr
     decide (s.fw.staging = none) &&
     (let d := ({ kind := 5, st := 0, unit := 0, loc := 0, events := 0, bootno := 0 } : Defect)
      decide (s.defects[len]? = some d ∧ (d.kind = 5 ∨ d.kind = 6) ∧ s.fw.busy = some (6, len)))) &&
    (let s := { wb with fw := { FwUnit.none with busy := some (6, 0) }, defects := [{ kind := 6, st := 0, unit := 0, loc := 0, events := 0, bootno := 0 }] }
     let len := 0
     let (_, _, active, next, bootno) := s.flashHdr
     decide (s.fw.staging = none) &&
     (let d := ({ kind := 6, st := 0, unit := 0, loc := 0, events := 0, bootno := 0 } : Defect)
      decide (s.defects[len]? = some d ∧ (d.kind = 5 ∨ d.kind = 6) ∧ s.fw.busy = some (6, len)))) &&
    (let s := { wb with fw := { FwUnit.none with busy := some (6, 8) } }
     let len := 8
     decide (s.fw.staging = none ∧ s.defects[len]? = none ∧ s.fw.busy = some (6, len))) &&
    (let s := { wb with fw := { FwUnit.none with busy := some (1, 8), staging := some 8 } }
     let len := 8
     let total := 8
     decide (s.fw.staging = some total ∧ s.fw.busy = some (1, len))) &&
    (let s := { wb with fw := { FwUnit.none with busy := some (2, 8), staging := some 8 } }
     let len := 8
     let total := 8
     decide (s.fw.staging = some total ∧ 1 ≤ len ∧ len ≤ 65536 ∧ s.fw.got + len ≤ total ∧ s.fw.busy = some (2, len))) &&
    (let s := { wb with fw := { FwUnit.none with busy := some (3, 8), staging := some 8 } }
     let len := 8
     let total := 8
     decide (s.fw.staging = some total ∧ s.fw.got ≠ total ∧ s.fw.busy = some (3, len))) &&
    (let s := { wb with fw := { FwUnit.none with busy := some (4, 8), staging := some 8 } }
     let len := 8
     let total := 8
     decide (s.fw.staging = some total ∧ s.fw.busy = some (4, len))) &&
    (let s := { wb with fw := { FwUnit.none with busy := some (7, 8) } }
     let len := 8
     decide (s.fw.busy = some (7, len)))) = true := by decide +kernel

/-- States and operands that meet the hypotheses of `PartitionsAndSharing`, clause by clause. -/
theorem witness_PartitionsAndSharing :
   ((let s := wb
     (let n := 0
      let o : Origin := wdr
      (let v := 2 ^ 63 + 5
       decide (o.manages = true ∧ n < 8 ∧ s.heard o (partCfg n) = true ∧ s.enOk n (bit v 63) = true)) &&
      (let v := 2 ^ wb.nTiles - 1
       decide (o.manages = true ∧ n < 8 ∧ s.heard o (partTiles n) = true ∧ v < 2 ^ s.nTiles ∧ (List.range (64)).all (fun t => (List.range (8)).all (fun m => decide (bit v t = true → m ≠ n → s.rb (partTiles m) t = false))) = true ∧ (List.range (64)).all (fun t => decide (bit v t = false → s.rb (partTiles n) t = false)) = true))) &&
     (let o : Origin := wdr
      let v := 2 ^ 31
      decide (o.manages = true) &&
      (let board := false
       let g := 1
       decide (g < s.granules board) &&
       (let off := granReg (granBase board g)
        decide (s.heard o off = true ∧ (∀ e ∈ s.granFrames board g, e.2.shared = false ∧ e.2.state ≠ 1) ∧ s.rb (partCfg (fld v 30 28)) 63 = true ∧ s.meetsOverflow board g = false))))) &&
    (let s := put wb [(partCfg 0, 3 * 2 ^ 62)]
     let o : Origin := wdr
     let v := 256
     decide (o.manages = true ∧ s.heard o 0x100008 = true ∧ v < 2 ^ 32) &&
     (let i := fld v 7 0
      decide (bit v 8 = true ∧ s.partFrozen (i % 8) = true))) &&
    (let s := put wb [(0x101010, 2 ^ 63)]
     let o : Origin := wdr
     let v := 2
     decide (o.manages = true ∧ s.heard o 0x100008 = true ∧ v < 2 ^ 32) &&
     (let i := fld v 7 0
      let e := 0x101000 + 8 * i
      decide (bit v 8 = false ∧ s.rb e 63 = true ∧ s.rf e 59 56 ≠ 1))) &&
    (let s := put { wb with frames := [(3, { Frame.zero with mirror := true })] } [(0x100010, 1 + 3 * 2 ^ 32)]
     (let v := 0x100
      let o : Origin := wdr
      decide (s.heard o 0x100018 = true ∧ o.manages = true) &&
      (let s1 := (s.noted o 0x100018 v).shadowing 0x100018 v
       let fs := s1.shareRange
       decide ((∀ f ∈ fs, s1.granted (fld v 18 16) (f * 65536) = true) ∧ (List.range (8)).all (fun p => decide (bit (fld v 15 8) p = true → s1.rb (partCfg p) 63 = true)) = true ∧ (∀ f ∈ fs, (s1.frame f).mirror = true ∧ (s1.frame f).mstale = 0 ∧ (s1.frame f).state = 0)))) &&
     (let o : Origin := wdr
      decide (s.heard o 0x100018 = true ∧ o.manages = true))) &&
    (let o : Origin := wdr
     decide (o.manages = true))) = true := by decide +kernel

/-- States and operands that meet the hypotheses of `LossesAndLog`, clause by clause. -/
theorem witness_LossesAndLog :
   ((let s := wb
     (let board := false
      let k := 0
      decide ((if board then k < 16 ∧ bit s.boards k = true else s.sites.contains k = true))) &&
     (let t := 0
      decide (s.tileUp t = true ∧ s.launches = []) &&
      (let d := (s.dieOf t).1
       let k := 4
       decide (s.spareOf d = some k ∧ k ≠ s.fusedSite t))) &&
     (let o : Origin := wdr
      decide (o.manages = true ∧ s.heard o 0x40000 = true ∧ s.rb 0x40000 63 = false))) &&
    (let s := { wb with boards := 1, boardGib := 0 }
     let board := true
     let k := 0
     decide ((if board then k < 16 ∧ bit s.boards k = true else s.sites.contains k = true)) &&
     (let u := ((s.tierFrames (if board then k / 4 else k / 3) board).foldl State.rehome s).defect (if board then 5 else 4) k 0 2
      let u := if board then { u with boot := { u.boot with lostCh := Nat.lor u.boot.lostCh (2 ^ k) } }
         else { u with boot := { u.boot with deadDies := Nat.lor u.boot.deadDies (2 ^ (20 + k)) } }
      decide (runs (releaseWaits) u.capChange.reservice = true))) &&
    (let s := { wb with boot := { wb.boot with badSites := 16 } }
     let t := 0
     decide (s.tileUp t = true ∧ s.launches = []) &&
     (let d := (s.dieOf t).1
      decide (s.spareOf d = none))) &&
    (let s := put wb [(0x10000, 4)]
     (let f := 0
      decide (f < 2 ∧ s.rb 0x10000 2 = true)) &&
     (let f := 1
      decide (f < 2 ∧ s.rb 0x10000 2 = true))) &&
    (let s := put wb [(0x40008, 9)]
     (let v := 9
      let o : Origin := wdr
      decide (o.manages = true ∧ s.heard o 0x40018 = true ∧ v ≤ s.rn 0x40008)) &&
     (let v := 10
      let o : Origin := wdr
      decide (o.manages = true ∧ s.heard o 0x40018 = true ∧ s.rn 0x40008 < v))) &&
    (let s := put wb [(0x40008, 70000)]
     let o : Origin := wdr
     decide (o.manages = true ∧ s.heard o 0x40000 = true ∧ s.rb 0x40000 63 = false)) &&
    (let o : Origin := wdr
     decide (o.manages = true) &&
     (let off := 0xFFFFFF
      decide (off < 0x1000000)) &&
     (let t := 63
      let k := 0x3FFFF
      decide (t < 64 ∧ k < 0x40000)))) = true := by decide +kernel

/-- States and operands that meet the hypotheses of `LogRecords`, clause by clause. -/
theorem witness_LogRecords :
   (let s := wb
    decide (spWf regInit s.regs = true ∧ spWf dLog s.log = true) &&
    (let head := s.rn 0x40008
     let tail := s.rn 0x40010
     decide (head < 2 ^ 63 ∧ tail ≤ head ∧ head - tail < 65536))) = true := by decide +kernel

/-- States and operands that meet the hypotheses of `PowerAndTemperature`, clause by clause. -/
theorem witness_PowerAndTemperature :
   ((let s := put wb [(0x30000, 0)]
     let samples : List Nat := [1, 2, 3, 4]
     decide (4 ≤ samples.length ∧ (∀ x ∈ samples, s.rf 0x30000 31 16 < x))) &&
    (let s := put wb [(0x30000, 0x40000)]
     let samples : List Nat := [1, 2, 3, 4]
     decide ((∃ x ∈ samples, x ≤ s.rf 0x30000 31 16))) &&
    (let us := 1000
     decide (1 ≤ us)) &&
    (let s := { wb with power := { wb.power with brake := true } }
     let us := 1000
     decide (1000 ≤ us ∧ s.power.brake = true)) &&
    (let s := wb
     (let i := 0
      (let tj := 109
       decide (s.pins.trip = false ∧ tj < 256 ∧ s.logicDie i = true ∧ tj < alarmTemp i)) &&
      (let tj := 124
       decide (s.pins.trip = false ∧ tj < 256 ∧ s.logicDie i = true) &&
       (let off := 0x30400 + 8 * i
        decide (alarmTemp i ≤ tj ∧ tj < 125 ∧ s.rb off 0 = false))) &&
      (let tj := 94
       decide (s.pins.trip = false ∧ tj < 256 ∧ s.fittedSites.contains i = true) &&
       (let off := hubReg (i / 3) (0x200 + 8 * (i % 3))
        let old := s.rf off 10 8
        let new := nextStep old tj
        decide ((new ≤ old ∨ new < 4) ∧ tj < 115)))) &&
     (let i := 15
      let tj := 0
      decide (s.pins.trip = false ∧ tj < 256 ∧ i < 16)) &&
     (let v := (1400 * 2 ^ 32 + 2420 * 2 ^ 16 + 2200)
      let o : Origin := wdr
      decide (s.heard o 0x30000 = true ∧ o.manages = true) &&
      (let limit := max 600 (min 2200 (fld v 15 0))
       let clampW := min 2420 (fld v 31 16)
       let mhz := fld v 47 32
       decide (limit ≤ clampW ∧ 400 ≤ mhz ∧ mhz ≤ 1500 ∧ mhz % 25 = 0 ∧ s.rb 0x30000 63 = false))) &&
     (decide (s.alert = false)) &&
     (let sec := wrap 64 ((s.time : Int) + sgn 64 (s.rn 0x38)) / 1000000000
      decide (sec = s.pins.pps)) &&
     (decide (spWf regInit s.regs = true))) &&
    (let s := put wb [(0x30400, 1)]
     (let i := 0
      let tj := 125
      decide (s.pins.trip = false ∧ tj < 256 ∧ s.logicDie i = true) &&
      (let off := 0x30400 + 8 * i
       decide (125 ≤ tj ∧ s.rb off 0 = true))) &&
     (decide (s.pins.standby = true ∧ s.alert = true))) &&
    (let s := put wb [(hubReg 0 0x200, 1)]
     let i := 0
     let tj := 114
     decide (s.pins.trip = false ∧ tj < 256 ∧ s.fittedSites.contains i = true) &&
     (let off := hubReg (i / 3) (0x200 + 8 * (i % 3))
      let old := s.rf off 10 8
      let new := nextStep old tj
      decide (old < new ∧ new = 5 ∧ tj < 115 ∧ s.rb off 0 = true))) &&
    (let s := { wb with time := 100000000, power := { wb.power with cool := some 0, prot := true } }
     let tj := 0
     decide (s.pins.trip = false ∧ tj < 256) &&
     (let since := 0
      decide (s.power.cool = some since ∧ s.power.prot = true ∧ since + 100000000 ≤ s.time))) &&
    (let s := { wb with time := 99999999, power := { wb.power with cool := some 0, prot := true } }
     let tj := 0
     decide (s.pins.trip = false ∧ tj < 256) &&
     (let since := 0
      decide (s.power.cool = some since ∧ s.power.prot = true ∧ s.time < since + 100000000))) &&
    (let s := put wb [(0x30000, 2 ^ 63)]
     let v := (1400 * 2 ^ 32 + 2420 * 2 ^ 16 + 2200)
     let o : Origin := wdr
     decide (s.heard o 0x30000 = true ∧ o.manages = true) &&
     (let limit := max 600 (min 2200 (fld v 15 0))
      let clampW := min 2420 (fld v 31 16)
      let mhz := fld v 47 32
      decide (limit ≤ clampW ∧ 400 ≤ mhz ∧ mhz ≤ 1500 ∧ mhz % 25 = 0 ∧ s.rb 0x30000 63 = true))) &&
    (let s := { wb with time := 1000000000 }
     let sec := wrap 64 ((s.time : Int) + sgn 64 (s.rn 0x38)) / 1000000000
     decide (sec ≠ s.pins.pps)) &&
    (let step := 0
     decide (step ≤ 5)) &&
    (let step := 5
     decide (step ≤ 5))) = true := by decide +kernel

/-- States and operands that meet the hypotheses of `RegisterView`, clause by clause. -/
theorem witness_RegisterView :
   ((let off := 0x20000000
     decide (0x20000000 ≤ off)) &&
    (let s := wb
     (let off := 0x10000000
      let size := 8
      let o : Origin := wdr
      decide (s.reaches o off = true ∧ off < 0x20000000 ∧ (0x10000000 ≤ off ∨ (size ≠ 4 ∧ size ≠ 8) ∨ off % size ≠ 0))) &&
     (let off := 0
      let size := 2
      let o : Origin := wdr
      decide (s.reaches o off = true ∧ off < 0x20000000 ∧ (0x10000000 ≤ off ∨ (size ≠ 4 ∧ size ≠ 8) ∨ off % size ≠ 0))) &&
     (let off := 4
      (let size := 8
       let o : Origin := wdr
       decide (s.reaches o off = true ∧ off < 0x20000000 ∧ (0x10000000 ≤ off ∨ (size ≠ 4 ∧ size ≠ 8) ∨ off % size ≠ 0))) &&
      (let pec : Bool := true
       decide ((pec && s.pins.standby) = true ∧ (0x20000000 ≤ off ∨ off % 8 ≠ 0)))) &&
     (let off := 4088
      let size := 8
      let v := 5
      let o : Origin := wdr
      decide (s.reaches o off = true ∧ off < 0x20000000 ∧ off < 0x10000000 ∧ off % 8 = 0 ∧ size = 8) &&
      (let h := (findReg 4088).get (by decide +kernel)
       decide (findReg off = some h ∧ s.regThere h = true ∧ s.vfSees h o = true ∧ h.reg.wide = true ∧ (rowWrite h (v % 2 ^ 64) o).isNone = true ∧ h.lock = none ∧ s.heard o h.off = true ∧ (s.mayWrite h o && s.writeOk h (v % 2 ^ 64)) = true ∧ (∀ f ∈ h.reg.flds, f.2.2 ≠ .wo)))) &&
     (let off := 0x30000
      let pec : Bool := true
      decide ((pec && s.pins.standby) = true ∧ off < 0x20000000 ∧ off % 8 = 0)) &&
     (let off := 0x20000000
      let pec : Bool := true
      decide ((pec && s.pins.standby) = true ∧ (0x20000000 ≤ off ∨ off % 8 ≠ 0))) &&
     (let pec : Bool := true
      decide ((pec && s.pins.standby) = true)) &&
     (let pec : Bool := false
      decide ((pec && s.pins.standby) = false))) &&
    (let s := State.reset
     let off := 0x4000
     let o : Origin := ({ cls := 3, part := 0, port := 0, id := 0 } : Origin)
     decide (s.reaches o off = false))) = true := by decide +kernel

/-- States and operands that meet the hypotheses of `FieldAccess`, clause by clause. -/
theorem witness_FieldAccess :
   (let d : RegD := ((findReg 4088).get (by decide +kernel)).reg
    let old := 2 ^ 64 - 1
    decide ((∀ f ∈ d.flds, f.2.1 ≤ f.1 ∧ f.1 < 64) ∧ old < 2 ^ 64 ∧ d.flds.Pairwise (fun f g => f.1 < g.2.1 ∨ g.1 < f.2.1)) &&
    (let i := 63
     decide (i < 64))) = true := by decide +kernel

/-- States and operands that meet the hypotheses of `CisternBanks`, clause by clause. -/
theorem witness_CisternBanks :
   (let word := 48 * 2 ^ 20 / 8 - 1
    decide (word < 48 * 2 ^ 20 / 8)) = true := by decide +kernel

/-- States and operands that meet the hypotheses of `StepRunsFront`, clause by clause. -/
theorem witness_StepRunsFront :
   (let s := { wb with pending := [.ppsPulse, .ppsPulse] }
    let c : Instr := .ppsPulse
    let rest : List Instr := ([.ppsPulse] : List Instr)
    decide (s.pending = c :: rest)) = true := by decide +kernel

/-- States and operands that meet the hypotheses of `EmptyQueueLetsTimePass`, clause by clause. -/
theorem witness_EmptyQueueLetsTimePass :
   ((let s := State.reset
     decide (s.pending = [] ∧ s.pins.cold = true)) &&
    (let s := wb
     decide (s.pending = [] ∧ s.pins.cold = false))) = true := by decide +kernel

/-- States and operands that meet the hypotheses of `EveryCommandCompletes`, clause by clause. -/
theorem witness_EveryCommandCompletes :
   (let c : Instr := (.nop 0 (wd 0 0 0 0 0 0) : Instr)
    decide (c.wf = true)) = true := by decide +kernel

/-- States and operands that meet the hypotheses of `FusedPartsStay`, clause by clause. -/
theorem witness_FusedPartsStay :
   ((let s := { wb with pending := [.ppsPulse] }
     decide ((nx (step s)).isSome = true)) &&
    (let c : Instr := .ppsPulse
     let s := wb
     decide ((nx (exec c s)).isSome = true))) = true := by decide +kernel

/-- States and operands that meet the hypotheses of `ResetValues`, clause by clause. -/
theorem witness_ResetValues :
   (let p := 7
    decide (p < 8)) = true := by decide +kernel

/-- States and operands that meet the hypotheses of `AluFunctions`, clause by clause. -/
theorem witness_AluFunctions :
   ((let i := 63
     decide (i < 64)) &&
    (let b := (70 : W64)
     let c := (6 : W64)
     decide (c.toNat % 64 = b.toNat % 64))) = true := by decide +kernel

/-- The flits of the witnesses are accepted. -/
theorem witness_flits_ok : ([wfData, wfNull, wfCtl 1, wfCtl 4, wfCtl 5, wfCtl 6, wfCtl 7].all flitOk) = true := by
  have h (bs : List Byte) : flitOk bs = (bs.length == 2570 && fld (flitTrailer bs) 79 48 ==
      crcStrict (bs.take 2560 ++ leBytes 6 (flitTrailer bs)) && fld (flitTrailer bs) 1 0 != 3) := by
    simp only [flitOk, crc32c_eq_crcStrict]
  simp only [h, List.all_cons]
  decide +kernel

/-- A register write through its view has a row of its own to run, and that row answers a next state (RegisterView). -/
theorem witness_register_row :
    decide (wb.reaches wdr 0x40018 = true) &&
      ((findReg 0x40018).any fun h => wb.regThere h && wb.vfSees h wdr && h.reg.wide &&
        ((rowWrite h (0 % 2 ^ 64) wdr).any fun g => (nx (g wb)).isSome)) = true := by decide +kernel

/-- A state whose tiles are canonical, every one of them (ScalarPipeKeepsCanonicalTiles). -/
theorem witness_canonical_tiles :
    spWf dTile (ws wt).tiles = true ∧ ∀ u, ((ws wt).tile u).wf = true := by
  refine ⟨by decide +kernel, fun u => ?_⟩
  by_cases h : u = 0
  · subst h; decide +kernel
  · have e : (ws wt).tile u = Tile.reset := by
      show spGet dTile (spSet dTile [] 0 wt) u = _
      exact spGet_set_other dTile (by decide) h _
    rw [e]; decide +kernel

/-- Whether an operation answers this. -/
def answers (m : Dev Bool) (s : State) (b : Bool) : Bool :=
  match (m.go s).1 with
  | .ok a => a == b
  | .error _ => false

/-- 384 bits of ones. -/
def ones : Nat := leNat (List.replicate 48 0xFF)

/-- With a signature check that accepts and a hash of ones, an image is signed when its digest is ones. -/
theorem signed_of_open (h : ∀ k m g, Config.sigOk k m g = true) (hd : ∀ bs, Config.sha384 bs = ones) :
    State.imgSigned = fun _ i => ones == leNat ((i.man.drop 0x80).take 48) := by
  funext s i; simp [State.imgSigned, h, hd]

/-- Starts, a boot bank that lacks an image: its hypotheses hold wherever the opaque checks accept (R626 to R631). -/
theorem witness_Starts_missing_image (h : ∀ k m g, Config.sigOk k m g = true) (hd : ∀ bs, Config.sha384 bs = ones) :
    let s := wboot [1]
    let v := ({ s with time := 0, pins := { s.pins with cold := false } }.stage 2).selectBank
    let u := { v.1 with boot := { v.1.boot with ports := wfd0.ports % 16 } }
    v.2 = some 0 ∧ answers (checkImages 0) (u.stage 3) false = true := by
  simp only [State.selectBank, State.bankBoots, checkImages, State.bankFault, signed_of_open h hd]
  decide +kernel

/-- An operation that answers in every state. -/
def Always {α : Type} (m : Dev α) : Prop := ∀ s, ∃ a s', m.go s = (.ok a, s')

theorem always_upd (f : State → State) : Always (upd f) := fun _ => ⟨_, _, rfl⟩
theorem always_get : Always (get : Dev State) := fun _ => ⟨_, _, rfl⟩
theorem always_set (u : State) : Always (set u : Dev Unit) := fun _ => ⟨_, _, rfl⟩
theorem always_pure {α : Type} (a : α) : Always (pure a : Dev α) := fun _ => ⟨_, _, rfl⟩
theorem always_ite {α : Type} {p : Prop} [Decidable p] {m n : Dev α} (hm : Always m) (hn : Always n) :
    Always (if p then m else n) := by split <;> assumption
theorem always_bind {α β : Type} {m : Dev α} {f : α → Dev β} (hm : Always m) (hf : ∀ a, Always (f a)) : Always (m >>= f) :=
  fun s => by
    obtain ⟨a, s', h⟩ := hm s
    rw [go_bind_ok h]
    exact hf a s'
theorem always_forAll {α : Type} {f : α → Dev Unit} (hf : ∀ a, Always (f a)) : ∀ l, Always (forAll l f)
  | [] => always_pure ()
  | a :: l => always_bind (hf a) fun _ => always_forAll hf l

/-- What follows the images of a start always ends (R623). -/
theorem always_starts : Always (commonStart wfd0) ∧ Always (qualifyStacks wfd0) ∧ Always (finishStart wfd0) :=
  ⟨always_bind (always_upd _) fun _ => always_upd _,
   always_bind (always_upd _) fun _ => always_bind (always_upd _) fun _ => always_bind
    (always_bind always_get fun _ => always_forAll (fun _ => always_bind always_get fun _ =>
      always_ite (always_set _) (always_pure _)) _)
    fun _ => always_bind (always_pure ()) fun _ => always_upd _,
   always_bind (always_upd _) fun _ => always_bind (always_upd _) fun _ => always_bind always_get fun _ =>
    always_ite (always_upd _) (always_bind (always_upd _) fun _ => always_upd _)⟩

/-- Starts, a cold start to the end: its hypotheses hold wherever the opaque checks accept (R623). -/
theorem witness_Starts_boots (h : ∀ k m g, Config.sigOk k m g = true) (hd : ∀ bs, Config.sha384 bs = ones) :
    let s := wboot [1, 2, 3, 4]
    let v := ({ s with time := 0, pins := { s.pins with cold := false } }.stage 2).selectBank
    let u := { v.1 with boot := { v.1.boot with ports := wfd0.ports % 16 } }
    v.2 = some 0 ∧ answers (checkImages 0) (u.stage 3) true = true := by
  simp only [State.selectBank, State.bankBoots, checkImages, State.bankFault, signed_of_open h hd]
  decide +kernel

/-- FlashUnit, a commit of an image bank that passes (R634). -/
theorem witness_FlashUnit_commit (h : ∀ k m g, Config.sigOk k m g = true) (hd : ∀ bs, Config.sha384 bs = ones) :
    let s := { wboot [1, 2, 3, 4] with fw := { FwUnit.none with busy := some (3, 0), staging := some 8, got := 8 } }
    s.fw.got = 8 ∧ s.bankFault 0 = none := by
  simp only [State.bankFault, signed_of_open h hd]
  decide +kernel

/-- An erased flash reads ones. -/
theorem spRead_erased (n : Nat) : ∀ off, spRead dFlash [] off n = List.replicate n 0xFF := by
  induction n with
  | zero => exact fun _ => rfl
  | succ n ih => exact fun off => by rw [List.replicate_succ, ← ih (off + 1)]; rfl

/-- An erased flash has room for a licence. -/
theorem room_erased {s : State} (hf : s.flash = []) (r : List Byte) : ∃ u, s.addLicence r = some u := by
  have f : ∀ off n, s.fl off n = List.replicate n 0xFF := fun off n => by rw [State.fl, hf]; exact spRead_erased n off
  have e : (List.range 32).find? (fun i => erased (s.licCopy.2.2.getD i [])) = some 0 := by
    have g : s.licCopy.2.2 = List.replicate 32 (List.replicate 128 0xFF) := by
      simp only [State.licCopy]
      rcases newerCopy _ _ with _ | k
      · rfl
      · simp only [f]; rfl
    rw [g]; decide +kernel
  rcases hc : s.licCopy with ⟨k, seq, rs⟩
  rw [hc] at e
  exact ⟨_, by simp only [State.addLicence, hc, e]; rfl⟩

/-- FlashUnit, a licence that passes its check and finds room (R638). -/
theorem witness_FlashUnit_licence (h : ∀ k m g, Config.sigOk k m g = true) :
    let s := put { State.reset with fw := { FwUnit.none with busy := some (5, 0) } }
      [(0x20000, 0x00000001_43494C4E), (0x20008, State.reset.uid % 2 ^ 64), (0x20010, State.reset.uid / 2 ^ 64)]
    s.licOk (s.fwWin 128) = true ∧ ∃ u, s.addLicence (s.fwWin 128) = some u := by
  intro s
  exact ⟨by simp only [State.licOk, h]; decide +kernel, room_erased rfl _⟩

end Sys2Proof.Tests
end

section
/-! SUPPORT. The functions of ALU and ALUI (R89, R752): one lemma per group of FN values, and the obligation put together from them. -/

namespace Sys2Proof.Machine

/-! ### The upper half of a product -/

/-- mulhu is the upper word of the exact 128-bit product: two 64-bit words multiply below 2 ^ 128. -/
theorem aluOp_mulhu (a b : W64) :
    aluOp 9 a b = (a.zeroExtend 128 * b.zeroExtend 128).extractLsb' 64 64 := by
  have product_lt : a.toNat * b.toNat < 2 ^ 128 := by
    simpa [← pow_add] using Nat.mul_lt_mul'' a.isLt b.isLt
  have toNat_product : (a.zeroExtend 128 * b.zeroExtend 128).toNat = a.toNat * b.toNat := by
    rw [BitVec.toNat_mul, BitVec.toNat_setWidth_of_le (by decide), BitVec.toNat_setWidth_of_le (by decide),
      Nat.mod_eq_of_lt product_lt]
  apply BitVec.eq_of_toNat_eq
  rw [BitVec.extractLsb'_toNat, toNat_product, Nat.shiftRight_eq_div_pow]
  exact BitVec.toNat_ofNat _ _

/-! ### The lesser and the greater of two words -/

/-- A measure of words carries the choice of the lesser word to the minimum, where the order tested is that of the measure. -/
theorem map_ite_lt_min {α : Type} [LinearOrder α] (f : W64 → α) {p : Bool} {a b : W64} (h : p = true ↔ f a < f b) :
    f (if p then a else b) = min (f a) (f b) := by
  rw [apply_ite f, min_def_lt]
  exact if_congr h rfl rfl

/-- The same for the greater word. -/
theorem map_ite_lt_max {α : Type} [LinearOrder α] (f : W64 → α) {p : Bool} {a b : W64} (h : p = true ↔ f a < f b) :
    f (if p then b else a) = max (f a) (f b) := by
  rw [apply_ite f, max_def_lt]
  exact if_congr h rfl rfl

theorem toInt_aluOp_min (a b : W64) : (aluOp 10 a b).toInt = min a.toInt b.toInt :=
  map_ite_lt_min BitVec.toInt BitVec.slt_iff_toInt_lt

theorem toInt_aluOp_max (a b : W64) : (aluOp 11 a b).toInt = max a.toInt b.toInt :=
  map_ite_lt_max BitVec.toInt BitVec.slt_iff_toInt_lt

theorem toNat_aluOp_minu (a b : W64) : (aluOp 12 a b).toNat = min a.toNat b.toNat :=
  map_ite_lt_min BitVec.toNat BitVec.ult_iff_toNat_lt

theorem toNat_aluOp_maxu (a b : W64) : (aluOp 13 a b).toNat = max a.toNat b.toNat :=
  map_ite_lt_max BitVec.toNat BitVec.ult_iff_toNat_lt

/-! ### The shifts, bit by bit -/

theorem getLsbD_aluOp_shl (a b : W64) {i : Nat} (hi : i < 64) :
    (aluOp 5 a b).getLsbD i = (decide (b.toNat % 64 ≤ i) && a.getLsbD (i - b.toNat % 64)) := by
  have h : (aluOp 5 a b).getLsbD i = _ := BitVec.getLsbD_shiftLeft a (b.toNat % 64)
  rw [h, decide_eq_true hi, Bool.true_and, ← decide_not, decide_eq_decide.mpr Nat.not_lt]

/-- shr fills with zeros: a bit that would come from beyond bit 63 is clear. -/
theorem getLsbD_aluOp_shr (a b : W64) (i : Nat) :
    (aluOp 6 a b).getLsbD i = (decide (i + b.toNat % 64 < 64) && a.getLsbD (i + b.toNat % 64)) := by
  have h : (aluOp 6 a b).getLsbD i = _ := BitVec.getLsbD_ushiftRight a (b.toNat % 64) i
  rw [h, Nat.add_comm]
  by_cases inside : i + b.toNat % 64 < 64
  · rw [decide_eq_true inside, Bool.true_and]
  · rw [decide_eq_false inside, Bool.false_and, BitVec.getLsbD_of_ge _ _ (Nat.le_of_not_lt inside)]

/-- sra fills with copies of bit 63. -/
theorem getLsbD_aluOp_sra (a b : W64) {i : Nat} (hi : i < 64) :
    (aluOp 7 a b).getLsbD i = if i + b.toNat % 64 < 64 then a.getLsbD (i + b.toNat % 64) else a.getLsbD 63 := by
  have h : (aluOp 7 a b).getLsbD i = _ := BitVec.getLsbD_sshiftRight a (b.toNat % 64) i
  rw [h, decide_eq_false (Nat.not_le.mpr hi), Bool.not_false, Bool.true_and, Nat.add_comm, BitVec.msb_eq_getLsbD_last]

/-! ### The shift count -/

/-- The shifts read their second operand only through its count, bits [5:0]. -/
theorem aluOp_shift_congr (a : W64) {b c : W64} (h : c.toNat % 64 = b.toNat % 64) :
    aluOp 5 a c = aluOp 5 a b ∧ aluOp 6 a c = aluOp 6 a b ∧ aluOp 7 a c = aluOp 7 a b :=
  ⟨congrArg (a <<< ·) h, congrArg (a >>> ·) h, congrArg a.sshiftRight h⟩

/-- The sign that fills bits [63:24] of ALUI's operand adds a multiple of 64, so its count is that of IMM24 itself. -/
theorem imm24_signExtend_count (imm : BitVec 24) : (imm.signExtend 64).toNat % 64 = imm.toNat % 64 := by
  rw [BitVec.toNat_signExtend, BitVec.toNat_setWidth_of_le (by decide)]
  cases imm.msb
  · rw [if_neg Bool.false_ne_true, Nat.add_zero]
  · exact Nat.add_mul_mod_self_left imm.toNat 64 (2 ^ 58 - 2 ^ 18)

/-- Settles O10: an equation for each FN, the shifts bit by bit, and the count of a shift. -/
theorem aluFunctions : Obligations.AluFunctions := by
  intro a b
  exact ⟨rfl, rfl, rfl, rfl, rfl, rfl, aluOp_mulhu a b,
    toInt_aluOp_min a b, toInt_aluOp_max a b, toNat_aluOp_minu a b, toNat_aluOp_maxu a b,
    ⟨fun _ => getLsbD_aluOp_shl a b, fun i _ => getLsbD_aluOp_shr a b i, fun _ => getLsbD_aluOp_sra a b⟩,
    imm24_signExtend_count, fun _ => aluOp_shift_congr a⟩

end Sys2Proof.Machine
end

section
/-! SUPPORT. The cistern's banks and lines (R301): each direction of the map as arithmetic, and the XOR term undone by
itself. -/

namespace Sys2Proof.Machine

/-- The XOR term of R301 leaves a bank number a bank number: both sides have 6 bits. -/
theorem bankXor_lt (x : Nat) : Nat.xor (x / 64 % 64) (2 * (x / 4096 % 32)) < 64 :=
  Nat.xor_lt_two_pow (n := 6) (Nat.mod_lt _ (by decide)) (by omega)

/-- The fields of R301 as quotients and remainders of the byte offset. -/
theorem cisBankLine_eq (word : Nat) :
    cisBankLine word =
      (Nat.xor (8 * word / 64 % 64) (2 * (8 * word / 4096 % 32)), 8 * word / 4096 % 2 ^ 14) := by
  have shift : ∀ n : Nat, n <<< 1 = 2 * n := fun _ => rfl
  simp only [cisBankLine, fld, Nat.shiftRight_eq_div_pow, shift, Nat.mul_comm word 8]
  exact congrArg (·, _) (Nat.mod_eq_of_lt (bankXor_lt (8 * word)))

/-- The word at a place: the line gives the offset's upper bits, and bits [4:0] of the line are the XOR term's x[16:12]. -/
theorem cisWordAt_eq (bank line i : Nat) :
    cisWordAt bank line i = 512 * line + 8 * (Nat.xor bank (2 * (line % 32)) % 64) + i := by
  have term : fld (line <<< 12) 16 12 <<< 1 = 2 * (line % 32) := by
    rw [fld, Nat.shiftLeft_shiftRight]; rfl
  simp only [cisWordAt, term]
  rw [Nat.shiftLeft_eq, Nat.shiftLeft_eq]
  omega

/-- At the place of a word the XOR term comes in twice and leaves x[11:6]. -/
theorem cisWordAt_cisBankLine (word : Nat) (h : word < 48 * 2 ^ 20 / 8) :
    cisWordAt (cisBankLine word).1 (cisBankLine word).2 (8 * word % 64 / 8) = word := by
  have line_low : 8 * word / 4096 % 2 ^ 14 % 32 = 8 * word / 4096 % 32 := Nat.mod_mod_of_dvd _ ⟨512, rfl⟩
  have undone : ∀ a b, Nat.xor (Nat.xor a b) b = a := Nat.xor_xor_cancel_right
  rw [cisBankLine_eq, cisWordAt_eq, line_low, undone]
  omega

/-- Settles O12: the map of R301 as arithmetic, its bank below 64, and the map back. -/
theorem cisternBanks : Obligations.CisternBanks := by
  intro word h x
  have place := cisBankLine_eq word
  exact ⟨place, place ▸ bankXor_lt x, cisWordAt_cisBankLine word h⟩

end Sys2Proof.Machine
end

section
/-! SUPPORT. Address spaces in service for a partition (R349), and the walk that ends before it reads a table. -/

namespace Sys2Proof.Machine

/-- An address space is out of service for a partition when EN is 0 or PART is another partition's (R349). -/
theorem asOk_eq_false_iff {s : State} {n part : Nat} :
    s.asOk n part = false ↔ s.rb (asReg n 0) 63 = false ∨ s.rf (asReg n 0) 62 60 ≠ part := by
  rw [State.asOk, Bool.and_eq_false_iff, beq_eq_false_iff_ne]

/-- A binding with V = 0 names no address space to walk in. -/
theorem walk_none_gives (s : State) (part sel va : Nat) : (walk none part sel va).gives s (.error (1, 0)) s := by
  rw [Dev.gives, walk, go_pure]

/-- An address space out of service for the partition fails every address, before its canonical form is looked at (R350). -/
theorem walk_some_gives_of_asOk_false {s : State} {n part : Nat} (h : s.asOk n part = false) (sel va : Nat) :
    (walk (some n) part sel va).gives s (.error (1, 0)) s := by
  rw [Dev.gives, walk, go_bind_ok (go_get s), h, Bool.not_false, if_pos rfl, go_pure]

/-- Settles O27: no address space to walk in, or one that is out of service for the partition. -/
theorem invalidAddressSpaces : Obligations.InvalidAddressSpaces := by
  intro s part sel va
  exact ⟨walk_none_gives s part sel va, fun _ out_of_service =>
    walk_some_gives_of_asOk_false (asOk_eq_false_iff.mpr out_of_service) sel va⟩

end Sys2Proof.Machine
end

section
/-! SUPPORT. The sender's side of a leat port's flit numbers: the outstanding flits and the oldest number (R506), and what an
ACK does to them (R508). -/

namespace Sys2Proof.Machine

namespace LPort

theorem oldest_lt (p : LPort) : p.oldest < 4096 := Nat.mod_lt _ (by decide)

theorem acks_iff {p : LPort} {a : Nat} : p.acks a = true ↔ (a + 4096 - p.oldest) % 4096 ≤ p.out.length :=
  decide_eq_true_iff

/-- An acceptable ACK frees the flits before it; the time of the last advance changes only when it frees one. -/
theorem ack_of_acks {p : LPort} {a : Nat} (h : p.acks a = true) (now : Nat) :
    p.ack a now =
      { p with out := p.out.drop ((a + 4096 - p.oldest) % 4096)
               lastAdv := if (a + 4096 - p.oldest) % 4096 = 0 then p.lastAdv else now } :=
  if_pos h

/-- Any other ACK is ignored. -/
theorem ack_of_not_acks {p : LPort} {a : Nat} (h : ¬ p.acks a = true) (now : Nat) : p.ack a now = p :=
  if_neg h

/-- Freeing the `k` flits in front moves the oldest number on by `k`. The bound on the flits is needed: `oldest` counts them
back from `next` in one turn of the numbers. -/
theorem oldest_of_out_eq_drop {p q : LPort} {k : Nat} (hlen : p.out.length < 4096) (hk : k ≤ p.out.length)
    (hnext : q.next = p.next) (hout : q.out = p.out.drop k) : q.oldest = (p.oldest + k) % 4096 := by
  rw [oldest, oldest, hnext, hout, List.length_drop, Nat.mod_add_mod]
  congr 1
  omega

/-- The number that lies `(a − OLDEST) mod 4,096` after OLDEST is `a`. -/
theorem oldest_add_distance (p : LPort) {a : Nat} (ha : a < 4096) :
    (p.oldest + (a + 4096 - p.oldest) % 4096) % 4096 = a := by
  have := p.oldest_lt
  omega

end LPort

/-- Settles O42: an acceptable ACK drops the flits before it, so the oldest number moves on to it; any other changes nothing. -/
theorem flitAcknowledgements : Obligations.FlitAcknowledgements := by
  intro p a now ha _ hlen k
  constructor
  · intro within
    have taken := LPort.ack_of_acks (LPort.acks_iff.mpr within) now
    have freed : (p.ack a now).out = p.out.drop k := by rw [taken]
    have kept : (p.ack a now).next = p.next := by rw [taken]
    refine ⟨freed, ?_⟩
    calc (p.ack a now).oldest
        = (p.oldest + k) % 4096 := LPort.oldest_of_out_eq_drop hlen within kept freed
      _ = a := p.oldest_add_distance ha
  · intro beyond
    exact LPort.ack_of_not_acks (fun h => Nat.not_le.mpr beyond (LPort.acks_iff.mp h)) now

end Sys2Proof.Machine
end

section
/-! SUPPORT. The doorbell of a command queue (R541, R547): what it answers without the binding, and with it. -/

namespace Sys2Proof.Machine

/-- A command whose parts all answer ends in the state of the last. -/
theorem run'_of_go_ok {m : Dev Unit} {s s' : State} {u : Unit} (h : m.go s = (.ok u, s')) : m.run' s = .next s' :=
  congrArg Host.Outcome.next (next_ok h)

/-- A doorbell that is not bound to the function is ignored and counted (R541). -/
theorem exec_queueDoorbell_of_unbound {s : State} {q p f : Nat} (hq : q < 8192) (hp : p < 4) (ready : s.ready = true)
    (unbound : fld (s.rn (qReg q 0)) 47 46 ≠ p ∨ fld (s.rn (qReg q 0)) 45 40 ≠ f) (v : Nat) :
    exec (.queueDoorbell q v p f) s = .next (s.count (portErr p 0x10) 1) := by
  have refused : fld (s.rn (qReg q 0)) 47 46 ≠ p ∨ fld (s.rn (qReg q 0)) 45 40 ≠ f ∨ s.fnFrozen p f = true := by
    rw [← or_assoc]; exact .inl unbound
  refine run'_of_go_ok (u := ()) ?_
  rw [go_bind_ok (go_get s), if_pos ⟨hq, hp, ready⟩, if_pos refused]
  rfl

/-- The doorbell of an enabled queue, from the function it is bound to: the cases of R547 in their order. -/
theorem exec_queueDoorbell_of_bound {s : State} {q v p f : Nat} (hq : q < 8192) (hp : p < 4) (ready : s.ready = true)
    (thawed : s.fnFrozen p f = false) (port : fld (s.rn (qReg q 0)) 47 46 = p) (fn : fld (s.rn (qReg q 0)) 45 40 = f)
    (enabled : bit (s.rn (qReg q 0)) 63 = true) (hv : v < 2 ^ 32) :
    exec (.queueDoorbell q v p f) s = .next
      (if 2 ^ 31 ≤ (v + 2 ^ 32 - s.rf (qReg q 0x20) 63 32) % 2 ^ 32 then s
       else if 2 ^ fld (s.rn (qReg q 0)) 39 35 < (v + 2 ^ 32 - s.rf (qReg q 0x20) 31 0) % 2 ^ 32 then
         s.count (portErr p 0x10) 1
       else s.setF (qReg q 0x20) 63 32 v) := by
  have taken : ¬ (fld (s.rn (qReg q 0)) 47 46 ≠ p ∨ fld (s.rn (qReg q 0)) 45 40 ≠ f ∨ s.fnFrozen p f = true) := by
    simp [port, fn, thawed]
  have on : ¬ (!bit (s.rn (qReg q 0)) 63) = true := by simp [enabled]
  refine run'_of_go_ok (u := ()) ?_
  rw [go_bind_ok (go_get s), if_pos ⟨hq, hp, ready⟩, if_neg taken, if_neg on, Nat.mod_eq_of_lt hv]
  rw [go_ite, go_ite, dbErr, go_pure, go_upd, go_upd, ← apply_ite (Prod.mk _), ← apply_ite (Prod.mk _)]

/-- Settles O46: the cases of R547 are the branches of the bound doorbell; one of another function's queue is counted. -/
theorem doorbells : Obligations.Doorbells := by
  intro s q v p f hq hp ready thawed cfg cons pi
  constructor
  · intro port fn enabled hv
    rw [exec_queueDoorbell_of_bound hq hp ready thawed port fn enabled hv]
    refine ⟨fun behind => ?_, fun ahead excess => ?_, fun ahead fits => ?_⟩
    · rw [if_pos behind]
    · rw [if_neg (Nat.not_le.mpr ahead), if_pos excess]
    · rw [if_neg (Nat.not_le.mpr ahead), if_neg (Nat.not_lt.mpr fits)]
  · intro unbound
    exact exec_queueDoorbell_of_unbound hq hp ready unbound v

end Sys2Proof.Machine
end

section
/-! SUPPORT. Device time (R578, R579): the state a measurement of the chosen source leaves, register by register. The
measurement is the operand `err`, as log entry 78 has it. -/

namespace Sys2Proof.Machine

/-! ### Signed values in words -/

theorem wrap_lt (n : Nat) (i : Int) : wrap n i < 2 ^ n := by
  have pos : (0 : Int) < 2 ^ n := by positivity
  have := Int.emod_lt_of_pos i pos
  rw [wrap, Int.toNat_lt (Int.emod_nonneg i pos.ne')]
  exact_mod_cast this

/-- The signed reading of a word stands for the word itself in a sum that is cut to the word's width. -/
theorem wrap_sgn_add (n v : Nat) (i : Int) : wrap n (sgn n v + i) = wrap n ((v : Int) + i) := by
  have same : sgn n v % 2 ^ n = (v : Int) % 2 ^ n := by
    rw [sgn]
    split
    · rw [Int.emod_emod_of_dvd _ dvd_rfl]
    · rw [Int.sub_emod_right, Int.emod_emod_of_dvd _ dvd_rfl]
  rw [wrap, wrap, Int.add_emod, same, ← Int.add_emod]

/-! ### The word of GLB_PTP_STATUS -/

/-- A field of one bit is that bit. -/
theorem fld_self (v i : Nat) : fld v i i = b2n (bit v i) := by
  rw [fld, b2n, bit, Nat.testBit_eq_decide_div_mod_eq, Nat.shiftRight_eq_div_pow, Nat.add_sub_cancel_left]
  simp only [decide_eq_true_eq]
  split <;> omega

theorem b2n_lt_two (b : Bool) : b2n b < 2 := by
  cases b <;> decide

theorem decide_b2n_eq_one (b : Bool) : decide (b2n b = 1) = b := by
  cases b <;> decide

/-- The word of GLB_PTP_STATUS (R579): LOCKED, over an error of 32 bits. -/
def ptpStatus (locked : Bool) (e : Nat) : Nat := b2n locked * 2 ^ 63 + e

section
variable (locked : Bool) {e : Nat} (he : e < 2 ^ 32)
include he

theorem ptpStatus_lt : ptpStatus locked e < 2 ^ 64 := by
  have := b2n_lt_two locked
  rw [ptpStatus]
  omega

theorem fld_ptpStatus_error : fld (ptpStatus locked e) 31 0 = e := by
  rw [fld, ptpStatus, Nat.shiftRight_eq_div_pow]
  omega

theorem fld_ptpStatus_reserved : fld (ptpStatus locked e) 62 32 = 0 := by
  rw [fld, ptpStatus, Nat.shiftRight_eq_div_pow]
  omega

theorem bit_ptpStatus_locked : bit (ptpStatus locked e) 63 = locked := by
  have top : (b2n locked * 2 ^ 63 + e) / 2 ^ 63 % 2 = b2n locked := by
    have := b2n_lt_two locked
    omega
  rw [bit, ptpStatus, Nat.testBit_eq_decide_div_mod_eq, top]
  exact decide_b2n_eq_one locked

end

/-! ### The registers of the state -/

theorem State.reg_setReg {s : State} (wf : spWf regInit s.regs = true) (off : Nat) (v : W64) (i : Nat) :
    (s.setReg off v).reg i = if i = off then v else s.reg i :=
  spGet_set regInit wf off i v

theorem State.spWf_setReg {s : State} (wf : spWf regInit s.regs = true) (off : Nat) (v : W64) :
    spWf regInit (s.setReg off v).regs = true :=
  spWf_set regInit wf off v

/-! ### A measurement -/

/-- How many errors in a row are below 100 ns, with one more measurement (R579). -/
def goodAfter (s : State) (err : Int) : Nat := if err.natAbs < 100 then s.ptpGood + 1 else 0

/-- LOCKED with one more measurement (R579). -/
def lockedAfter (s : State) (err : Int) : Bool :=
  if 1000 ≤ err.natAbs then false else if 16 ≤ goodAfter s err then true else s.rb 0x40 63

/-- The state with the count and GLB_PTP_STATUS as a measurement leaves them (R579). -/
def statusWritten (s : State) (err : Int) : State :=
  { s with ptpGood := goodAfter s err }.setReg 0x40 (BitVec.ofNat 64 (ptpStatus (lockedAfter s err) (wrap 32 err)))

/-- The state a measurement leaves: an error above 1 ms steps GLB_PTP_OFFSET as well (R578). -/
def measured (s : State) (err : Int) : State :=
  if 1000000 < err.natAbs then (statusWritten s err).setReg 0x38 (BitVec.ofInt 64 (sgn 64 (s.rn 0x38) + err))
  else statusWritten s err

theorem reg_statusWritten {s : State} (wf : spWf regInit s.regs = true) (err : Int) (off : Nat) :
    (statusWritten s err).reg off =
      if off = 0x40 then BitVec.ofNat 64 (ptpStatus (lockedAfter s err) (wrap 32 err)) else s.reg off :=
  State.reg_setReg (s := { s with ptpGood := goodAfter s err }) wf 0x40 _ off

/-- The discipline of the model leaves `measured`: the offset it steps is the one before the write of GLB_PTP_STATUS. -/
theorem go_discipline {s : State} (wf : spWf regInit s.regs = true) (err : Int) :
    (discipline err).go s = (.ok (), measured s err) := by
  have locked_bit : (if 1000 ≤ err.natAbs then 0 else if 16 ≤ goodAfter s err then 1 else s.rf 0x40 63 63) =
      b2n (lockedAfter s err) := by
    rw [lockedAfter, apply_ite b2n, apply_ite b2n, State.rb, ← fld_self]
    rfl
  have offset_kept : (statusWritten s err).rn 0x38 = s.rn 0x38 :=
    congrArg BitVec.toNat ((reg_statusWritten wf err 0x38).trans (if_neg (by decide)))
  have status : statusWritten s err = State.setReg { s with ptpGood := goodAfter s err } 0x40 (BitVec.ofNat 64
      ((if 1000 ≤ err.natAbs then 0 else if 16 ≤ goodAfter s err then 1 else s.rf 0x40 63 63) <<< 63 + wrap 32 err)) := by
    rw [locked_bit, Nat.shiftLeft_eq]
    rfl
  rw [measured, ← offset_kept, status]
  rfl

/-- GLB_PTP_OFFSET and GLB_PTP_STATUS are the registers that a measurement writes. -/
theorem reg_measured {s : State} (wf : spWf regInit s.regs = true) (err : Int) (off : Nat) :
    (measured s err).reg off =
      if off = 0x38 ∧ 1000000 < err.natAbs then BitVec.ofInt 64 (sgn 64 (s.rn 0x38) + err)
      else (statusWritten s err).reg off := by
  have wf' : spWf regInit (statusWritten s err).regs = true :=
    State.spWf_setReg (s := { s with ptpGood := goodAfter s err }) wf 0x40 _
  rw [measured]
  by_cases step : 1000000 < err.natAbs
  · rw [if_pos step, State.reg_setReg wf']
    exact if_congr (and_iff_left step).symm rfl rfl
  · rw [if_neg step, if_neg fun h => step h.2]

theorem rn_measured_status {s : State} (wf : spWf regInit s.regs = true) (err : Int) :
    (measured s err).rn 0x40 = ptpStatus (lockedAfter s err) (wrap 32 err) := by
  rw [State.rn, reg_measured wf, if_neg fun h => absurd h.1 (by decide), reg_statusWritten wf, if_pos rfl,
    BitVec.toNat_ofNat, Nat.mod_eq_of_lt (ptpStatus_lt _ (wrap_lt 32 err))]

theorem rn_measured_offset {s : State} (wf : spWf regInit s.regs = true) (err : Int) :
    (measured s err).rn 0x38 =
      if 1000000 < err.natAbs then wrap 64 ((s.rn 0x38 : Int) + err) else s.rn 0x38 := by
  have stepped : (BitVec.ofInt 64 (sgn 64 (s.rn 0x38) + err)).toNat = wrap 64 ((s.rn 0x38 : Int) + err) :=
    (BitVec.toNat_ofInt _).trans (wrap_sgn_add 64 (s.rn 0x38) err)
  rw [State.rn, reg_measured wf, reg_statusWritten wf, if_neg (show ¬ 0x38 = 0x40 by decide), apply_ite BitVec.toNat,
    stepped]
  exact if_congr (and_iff_right rfl) rfl rfl

theorem reg_measured_other {s : State} (wf : spWf regInit s.regs = true) (err : Int) {off : Nat} (offset : off ≠ 0x38)
    (status : off ≠ 0x40) : (measured s err).reg off = s.reg off := by
  rw [reg_measured wf, if_neg fun h => offset h.1, reg_statusWritten wf, if_neg status]

theorem measured_ptpGood (s : State) (err : Int) : (measured s err).ptpGood = goodAfter s err := by
  rw [measured, apply_ite State.ptpGood, State.setReg_ptpGood, ite_self]
  rfl

/-- A state with the count and the registers of another: two states agree in everything else when this makes them equal. -/
def State.withDiscipline (s old : State) : State := { s with ptpGood := old.ptpGood, regs := old.regs }

theorem State.withDiscipline_setReg (s old : State) (off : Nat) (v : W64) :
    (s.setReg off v).withDiscipline old = s.withDiscipline old := rfl

theorem State.withDiscipline_ptpGood (s : State) (good : Nat) : { s with ptpGood := good }.withDiscipline s = s := rfl

theorem statusWritten_frame (s : State) (err : Int) : (statusWritten s err).withDiscipline s = s := by
  rw [statusWritten, State.withDiscipline_setReg, State.withDiscipline_ptpGood]

/-- Outside the count and the registers a measurement leaves the state alone. -/
theorem measured_frame (s : State) (err : Int) : (measured s err).withDiscipline s = s := by
  rw [measured]
  split
  · rw [State.withDiscipline_setReg, statusWritten_frame]
  · exact statusWritten_frame s err

/-! ### The commands that bring a measurement -/

/-- A message of the Ethernet port that is the discipline's source, on a licensed part. -/
theorem exec_ptpMessageReceive {s : State} {n : Nat} (wf : spWf regInit s.regs = true) (on : s.rb 0x30 63 = true)
    (port : s.rf 0x30 60 59 = n) (source : s.rf 0x30 62 61 = 1) (licensed : s.lic 2 = true) (err : Int) :
    exec (.ptpMessageReceive n err) s = .next (measured s err) := by
  have chosen : (bit (s.rn 0x30) 63 && fld (s.rn 0x30) 62 61 == 1 && fld (s.rn 0x30) 60 59 == n && s.lic 2) = true := by
    rw [State.rb] at on
    rw [State.rf] at port source
    simp [on, port, source, licensed]
  refine run'_of_go_ok (u := ()) ?_
  rw [go_bind_ok (go_get s), if_pos chosen, go_discipline wf]

/-- A response of the PCIe port that is the discipline's source. -/
theorem exec_ptmResponseReceive {s : State} {p : Nat} (wf : spWf regInit s.regs = true) (on : s.rb 0x30 63 = true)
    (port : s.rf 0x30 60 59 = p) (source : s.rf 0x30 62 61 = 2) (err : Int) :
    exec (.ptmResponseReceive p err) s = .next (measured s err) := by
  have chosen : (bit (s.rn 0x30) 63 && fld (s.rn 0x30) 62 61 == 2 && fld (s.rn 0x30) 60 59 == p) = true := by
    rw [State.rb] at on
    rw [State.rf] at port source
    simp [on, port, source]
  refine run'_of_go_ok (u := ()) ?_
  rw [go_bind_ok (go_get s), if_pos chosen, go_discipline wf]

/-- Settles O51: both commands leave `measured`, whose registers are those that R578 and R579 say. -/
theorem deviceTime : Obligations.DeviceTime := by
  refine ⟨rfl, rfl, fun s n err wf on port => ?_⟩
  intro good after
  have e_lt := wrap_lt 32 err
  have status := rn_measured_status wf err
  have leaves : ∀ i, exec i s = .next (measured s err) → after i := fun i ran =>
    ⟨measured s err, ran, measured_ptpGood s err,
      (congrArg (fld · 31 0) status).trans (fld_ptpStatus_error _ e_lt),
      (congrArg (fld · 62 32) status).trans (fld_ptpStatus_reserved _ e_lt),
      (congrArg (bit · 63) status).trans (bit_ptpStatus_locked _ e_lt),
      rn_measured_offset wf err, fun _ => reg_measured_other wf err, measured_frame s err⟩
  exact ⟨fun source licensed => leaves _ (exec_ptpMessageReceive wf on port source licensed err),
    fun source => leaves _ (exec_ptmResponseReceive wf on port source err)⟩

end Sys2Proof.Machine
end

section
/-! SUPPORT. What a command can answer (O4): every row's meaning is a change of the state, an instruction row, or one FN of one. -/

namespace Sys2Proof.Machine

/-- What is claimed of a command's answer: it completes when the command is well-formed, and otherwise only an undefined
encoding is refused. -/
def Completes (c : Instr) (r : Res) : Prop :=
  (c.wf = true → ∃ s, r = .next s) ∧ ((∃ s, r = .next s) ∨ r = .refused .undefinedEncoding)

theorem completes_next (c : Instr) (s : State) : Completes c (.next s) := ⟨fun _ => ⟨s, rfl⟩, .inl ⟨s, rfl⟩⟩

theorem Check.ok_of_wf {c : Instr} (h : c.wf = true) {k : Check} (hk : k ∈ c.checks) : k.ok = true :=
  List.all_eq_true.mp h k hk

/-- An instruction row is checked for a defined encoding, and refused only without one. -/
theorem completes_deviceInstr {c i : Instr} {s : State} {t opc : Nat} {w : IWord} {x : W64} (hk : .word opc w x ∈ c.checks)
    (body : State → Tile → Kx → State × Act) : Completes c (deviceInstr s t i opc w x body) := by
  by_cases h : kzDefined opc w x = true
  · rw [deviceInstr, if_pos h]; exact completes_next _ _
  · rw [deviceInstr, if_neg h]; exact ⟨fun wf => absurd (Check.ok_of_wf wf hk) h, .inr rfl⟩

/-- A row of one FN is checked for that FN. -/
theorem completes_fnInstr {c : Instr} {fn : Nat} {w : IWord} {r : Res} (hk : .sub fn w ∈ c.checks) (hr : Completes c r) :
    Completes c (fnInstr fn w r) := by
  by_cases h : w.fn.toNat = fn
  · rw [fnInstr, if_pos h]; exact hr
  · rw [fnInstr, if_neg h]; exact ⟨fun wf => absurd (beq_iff_eq.mp (Check.ok_of_wf wf hk)) h, .inr rfl⟩

theorem exec_completes (c : Instr) (s : State) : Completes c (exec c s) := by
  cases c
  case nop | alu | alui | li | cmp | pop | br | brr | loop | fpu | waitq | fence | kend | rdsr | wrsr | lds | sts | adda | mova |
      tdld | tdst | tdset | tdget | trecv | tsig | mmac | mzero | mdrain | mpad | mlen | vop | vopb | vcmp | vcvt | vld | vst |
      vred | qblk | vwid | vperm | vbcast | vacc | sfn | stab | fcfg | fgo | fwait | fstop | frel | osmn | osmx | osme | osms |
      upd | upds | kvw | kvt | slc | slcw | jrn | hflush =>
    exact completes_deviceInstr (by simp [Instr.checks]) _
  case osmcCorr | osmcFin | osmcMerge | osmcSave | osmcLoad | osmvAccum | osmvDecide | osmbProb | osmbDscore | crbRead | crbWrite |
      crbWriteImmediate | lbkQuery | lbkFlush | spkPost | spkWait | mbxRecv | mbxSend | mbxCount =>
    exact completes_fnInstr (by simp [Instr.checks]) (completes_deviceInstr (by simp [Instr.checks]) _)
  all_goals exact completes_next _ _

/-- Settles O4: a command's answer by the shape of its meaning: an instruction row, one FN of a row, or a change of the state. -/
theorem everyCommandCompletes : Obligations.EveryCommandCompletes := exec_completes

end Sys2Proof.Machine
end

section
/-! SUPPORT. Little-endian bytes (R6): their number, the value they spell, and each byte of it. -/

namespace Sys2Proof

@[simp] theorem leBytes_length (n v : Nat) : (leBytes n v).length = n := by
  induction n generalizing v with
  | zero => rfl
  | succ n ih => exact congrArg (· + 1) (ih (v / 256))

theorem leNat_leBytes (n v : Nat) : leNat (leBytes n v) = v % 256 ^ n := by
  induction n generalizing v with
  | zero => rw [pow_zero, Nat.mod_one]; rfl
  | succ n ih =>
    have byte : (BitVec.ofNat 8 v).toNat = v % 256 := BitVec.toNat_ofNat v 8
    rw [leBytes, leNat, ih, byte, pow_succ', Nat.mod_mul]

/-- Only the low bytes of a value are spelled out. -/
theorem leBytes_eq_of_mod_eq {n v u : Nat} (h : v % 256 ^ n = u % 256 ^ n) : leBytes n v = leBytes n u := by
  induction n generalizing v u with
  | zero => rfl
  | succ n ih =>
    rw [pow_succ', Nat.mod_mul, Nat.mod_mul] at h
    have low : v % 256 = u % 256 := by omega
    have high : v / 256 % 256 ^ n = u / 256 % 256 ^ n := by omega
    have byte : BitVec.ofNat 8 v = BitVec.ofNat 8 u := BitVec.eq_of_toNat_eq (by simpa using low)
    rw [leBytes, leBytes, byte, ih high]

theorem getElem_leBytes {n j : Nat} (v : Nat) (h : j < (leBytes n v).length) : ((leBytes n v)[j]).toNat = v / 256 ^ j % 256 := by
  induction n generalizing v j with
  | zero => exact absurd h (Nat.not_lt_zero j)
  | succ n ih =>
    cases j with
    | zero => rw [pow_zero, Nat.div_one]; exact BitVec.toNat_ofNat v 8
    | succ j => rw [pow_succ', ← Nat.div_div_eq_div_mul]; exact ih (v / 256) (Nat.lt_of_succ_lt_succ h)

end Sys2Proof
end

section
/-! SUPPORT. The layout of a flit (R488): the trailer as a sum of its fields, and the CRC above them. -/

namespace Sys2Proof.Machine

/-! ### The CRC is a word of 32 bits -/

theorem crcBit_lt {c : Nat} (h : c < 2 ^ 32) : crcBit c < 2 ^ 32 := by
  have half : c / 2 < 2 ^ 32 := by omega
  rw [crcBit]
  split
  · exact Nat.xor_lt_two_pow half (by decide)
  · exact half

theorem crcByte_lt {c b : Nat} (hc : c < 2 ^ 32) (hb : b < 2 ^ 8) : crcByte c b < 2 ^ 32 := by
  have start : Nat.xor c b < 2 ^ 32 := Nat.xor_lt_two_pow hc (hb.trans (by decide))
  exact List.foldlRecOn (List.range 8) (fun c _ => crcBit c) (motive := (· < 2 ^ 32)) start fun _ hc _ _ => crcBit_lt hc

theorem crc32c_lt (bs : List Byte) : crc32c bs < 2 ^ 32 := by
  refine Nat.xor_lt_two_pow ?_ (by decide)
  exact List.foldlRecOn bs (fun c (b : Byte) => crcByte c b.toNat) (motive := (· < 2 ^ 32)) (by decide)
    fun _ hc b _ => crcByte_lt hc b.isLt

/-! ### The trailer -/

/-- The fields of a trailer below its CRC (R488). -/
def trailerFields (ftype seq ack cvc cred : Nat) (cont : Option Nat) : Nat :=
  ftype + seq * 2 ^ 2 + ack * 2 ^ 14 + cvc * 2 ^ 26 + cred * 2 ^ 29 +
    match cont with
    | none => 0
    | some v => 2 ^ 44 + v * 2 ^ 45

section
variable {ftype seq ack cvc cred : Nat} {cont : Option Nat}

theorem flitBytes_eq (slots : List Byte) :
    flitBytes ftype seq ack cvc cred cont slots =
      slots ++ leBytes 10 (trailerFields ftype seq ack cvc cred cont +
        crc32c (slots ++ leBytes 6 (trailerFields ftype seq ack cvc cred cont)) * 2 ^ 48) := by
  have shift : ∀ a n : Nat, a <<< n = a * 2 ^ n := fun a n => Nat.shiftLeft_eq a n
  cases cont <;> simp only [flitBytes, trailerFields, shift]

variable (hft : ftype < 3) (hseq : seq < 4096) (hack : ack < 4096) (hcvc : cvc < 8) (hcred : cred < 32768)
  (hcont : ∀ v, cont = some v → v < 8)
include hft hseq hack hcvc hcred hcont

theorem trailerFields_lt : trailerFields ftype seq ack cvc cred cont < 2 ^ 48 := by
  cases cont with
  | none => simp only [trailerFields]; omega
  | some v => have := hcont v rfl; simp only [trailerFields]; omega

/-- The fields of R488 are read back out of a trailer, whatever stands above them. -/
theorem fld_trailerFields (crc : Nat) : let t := trailerFields ftype seq ack cvc cred cont + crc * 2 ^ 48
    fld t 1 0 = ftype ∧ fld t 13 2 = seq ∧ fld t 25 14 = ack ∧ fld t 28 26 = cvc ∧ fld t 43 29 = cred ∧
    bit t 44 = cont.isSome ∧ (∀ v, cont = some v → fld t 47 45 = v) := by
  cases cont with
  | none =>
    simp only [fld, bit, trailerFields, Nat.shiftRight_eq_div_pow, Nat.testBit_eq_decide_div_mod_eq, Option.isSome_none,
      decide_eq_false_iff_not]
    refine ⟨?_, ?_, ?_, ?_, ?_, ?_, nofun⟩ <;> omega
  | some u =>
    have := hcont u rfl
    simp only [fld, bit, trailerFields, Nat.shiftRight_eq_div_pow, Nat.testBit_eq_decide_div_mod_eq, Option.isSome_some,
      decide_eq_true_eq, Option.some.injEq, forall_eq']
    refine ⟨?_, ?_, ?_, ?_, ?_, ?_, ?_⟩ <;> omega

end

theorem fld_crc {f crc : Nat} (hf : f < 2 ^ 48) (hc : crc < 2 ^ 32) : fld (f + crc * 2 ^ 48) 79 48 = crc := by
  rw [fld, Nat.shiftRight_eq_div_pow]; omega

/-- A trailer of 80 bits behind 2,560 bytes of slots is the flit's trailer. -/
theorem flitTrailer_append {slots : List Byte} (hs : slots.length = 2560) {t : Nat} (ht : t < 2 ^ 80) :
    flitTrailer (slots ++ leBytes 10 t) = t := by
  rw [flitTrailer, ← hs, List.drop_left, leNat_leBytes]
  exact Nat.mod_eq_of_lt ht

/-- A flit is accepted when the CRC over its slots and the trailer's fields stands above them, and its FTYPE is one. -/
theorem flitOk_append {slots : List Byte} (hs : slots.length = 2560) {f : Nat} (hf : f < 2 ^ 48) (hft : fld f 1 0 < 3) :
    flitOk (slots ++ leBytes 10 (f + crc32c (slots ++ leBytes 6 f) * 2 ^ 48)) = true := by
  have hc := crc32c_lt (slots ++ leBytes 6 f)
  have low : ∀ crc, leBytes 6 (f + crc * 2 ^ 48) = leBytes 6 f := fun crc => leBytes_eq_of_mod_eq (Nat.add_mul_mod_self_right f crc _)
  have ftype : ∀ crc, fld (f + crc * 2 ^ 48) 1 0 = fld f 1 0 := fun crc => by simp only [fld, Nat.shiftRight_zero]; omega
  have taken : (slots ++ leBytes 10 (f + crc32c (slots ++ leBytes 6 f) * 2 ^ 48)).take 2560 = slots := by
    rw [← hs, List.take_left]
  rw [flitOk, flitTrailer_append hs (by omega), taken, low, fld_crc hf hc, ftype]
  simp [hs, Nat.ne_of_lt hft]

/-- Settles O41: the trailer is its fields below the CRC; each is read back, and the CRC is the one that was put there. -/
theorem flitLayout : Obligations.FlitLayout := by
  intro ftype seq ack cvc cred cont slots hft hseq hack hcvc hcred hcont hs flit t
  have hf := trailerFields_lt hft hseq hack hcvc hcred hcont
  have hc := crc32c_lt (slots ++ leBytes 6 (trailerFields ftype seq ack cvc cred cont))
  have layout : flit = _ := flitBytes_eq slots
  have trailer : t = _ := (congrArg flitTrailer layout).trans (flitTrailer_append hs (by omega))
  have fields := fld_trailerFields hft hseq hack hcvc hcred hcont
  have low : fld (trailerFields ftype seq ack cvc cred cont) 1 0 < 3 := by
    have ftype_low := (fields 0).1
    rw [Nat.zero_mul, Nat.add_zero] at ftype_low
    exact ftype_low.trans_lt hft
  refine ⟨?_, ?_, trailer ▸ fields _⟩
  · rw [layout]; exact flitOk_append hs hf low
  · rw [layout, ← hs, List.take_left]

end Sys2Proof.Machine
end

section
/-! SUPPORT. What every step keeps: what is fused into the part, and the queue of commands. -/

namespace Sys2Proof.Machine

/-- What is fused into the part, and the queue of commands. -/
def State.fused (s : State) : Nat × Nat × List Nat × Nat × List Instr := (s.variant, s.uid, s.fuses, s.revoked, s.pending)

/-- What is fused into a part, with its queue of commands. -/
abbrev Fused := Nat × Nat × List Nat × Nat × List Instr

/-- A part of a command's effect that starts with `z` fused ends with it. -/
def Dev.Keeps {α : Type} (z : Fused) (m : Dev α) : Prop := ∀ s, s.fused = z → (m.go s).2.fused = z

/-- A command's answer leaves what is fused in the state as it is. -/
def Res.Keeps (r : Res) (s : State) : Prop := ∀ s', r = .next s' → s'.fused = s.fused

variable {α β : Type} {z : Fused}

@[simp] theorem keeps_pure (a : α) : (pure a : Dev α).Keeps z := fun _ h => h
@[simp] theorem keeps_throw (e : Stop) : (throw e : Dev α).Keeps z := fun _ h => h
@[simp] theorem keeps_refuse (n d : Nat) : (refuse n d : Dev α).Keeps z := fun _ h => h
@[simp] theorem keeps_stall : (stall : Dev α).Keeps z := fun _ h => h
@[simp] theorem keeps_get : (get : Dev State).Keeps z := fun _ h => h
@[simp] theorem keeps_look (f : State → α) : (look f).Keeps z := fun _ h => h
@[simp] theorem keeps_must (b : Bool) (n d : Nat) : (must b n d).Keeps z := by cases b <;> exact fun _ h => h
@[simp] theorem keeps_liftEx (e : Ex α) : (liftEx e).Keeps z := by cases e <;> exact fun _ h => h
@[simp] theorem keeps_upd {f : State → State} (h : ∀ s, s.fused = z → (f s).fused = z) : (upd f).Keeps z := h
@[simp] theorem keeps_set {s : State} (h : s.fused = z) : (set s : Dev Unit).Keeps z := fun _ _ => h

theorem keeps_bind {m : Dev α} {f : α → Dev β} (hm : m.Keeps z) (hf : ∀ a, (f a).Keeps z) : (m >>= f).Keeps z := by
  intro s hs
  have first := hm s hs
  rw [go_bind]
  revert first
  rcases m.go s with ⟨_ | a, s'⟩
  · exact id
  · exact hf a s'

/-- What is read of the state is read of one with `z` fused. -/
theorem keeps_get_bind {f : State → Dev β} (hf : ∀ s, s.fused = z → (f s).Keeps z) : (get >>= f : Dev β).Keeps z :=
  fun s hs => hf s hs s hs

theorem keeps_map {m : Dev α} (f : α → β) (hm : m.Keeps z) : (f <$> m).Keeps z := by
  rw [← bind_pure_comp]; exact keeps_bind hm fun a => keeps_pure _

theorem keeps_ite {p : Prop} [Decidable p] {m n : Dev α} (hm : m.Keeps z) (hn : n.Keeps z) :
    (if p then m else n).Keeps z := by
  split <;> assumption

theorem keeps_attempt {m : Dev α} (hm : m.Keeps z) : (attempt m).Keeps z := by
  intro s hs
  have first := hm s hs
  rw [go_attempt]
  revert first
  rcases m.go s with ⟨⟨_ | _⟩ | a, s'⟩
  · exact id
  · exact fun _ => hs
  · exact id

theorem keeps_forAll {l : List α} {f : α → Dev Unit} (h : ∀ a, (f a).Keeps z) : (forAll l f).Keeps z := by
  induction l with
  | nil => exact keeps_pure ()
  | cons a l ih => exact keeps_bind (h a) fun _ => ih

theorem keeps_mapM {l : List α} {f : α → Dev β} (h : ∀ a, (f a).Keeps z) : (l.mapM f).Keeps z := by
  induction l with
  | nil => exact keeps_pure _
  | cons a l ih => rw [List.mapM_cons]; exact keeps_bind (h a) fun _ => keeps_bind ih fun _ => keeps_pure _

theorem keeps_filterMapM {l : List α} {f : α → Dev (Option β)} (h : ∀ a, (f a).Keeps z) : (l.filterMapM f).Keeps z := by
  have loop : ∀ bs, (List.filterMapM.loop f l bs).Keeps z := by
    induction l with
    | nil => exact fun _ => keeps_pure _
    | cons a l ih =>
      intro bs
      refine keeps_bind (h a) fun b => ?_
      cases b with
      | none => exact ih bs
      | some b => exact ih (b :: bs)
  exact loop []

theorem keeps_foldlM {l : List α} {f : β → α → Dev β} {b : β} (h : ∀ b a, (f b a).Keeps z) :
    (l.foldlM f b).Keeps z := by
  induction l generalizing b with
  | nil => exact keeps_pure _
  | cons a l ih => rw [List.foldlM_cons]; exact keeps_bind (h b a) fun _ => ih

@[simp] theorem foldl_fused {l : List α} {f : State → α → State} {s : State} (h : ∀ s a, (f s a).fused = s.fused) :
    (l.foldl f s).fused = s.fused := by
  induction l generalizing s with
  | nil => rfl
  | cons a l ih => exact ih.trans (h s a)

@[simp] theorem ite_fused {p : Prop} [Decidable p] (s s' : State) :
    (if p then s else s').fused = if p then s.fused else s'.fused := apply_ite State.fused p s s'

@[simp] theorem next_fused {m : Dev Unit} (s : State) (h : m.Keeps s.fused) : (m.next s).fused = s.fused := by
  have all := h s rfl
  rw [Dev.next]
  revert all
  rcases m.go s with ⟨⟨_ | _⟩ | u, s'⟩
  · exact id
  · exact fun _ => rfl
  · exact id

@[simp] theorem keeps_next {s' s : State} (h : s'.fused = s.fused) : Res.Keeps (.next s') s := by
  intro t ht; cases ht; exact h

@[simp] theorem keeps_run' {m : Dev Unit} (s : State) (h : m.Keeps s.fused) : Res.Keeps (m.run' s) s := keeps_next (next_fused s h)

/-- An update of the state that names none of what is fused. -/
@[simp] theorem update_fused (s : State) {regs shadow tiles time launches switches nextId mem units msc mclk busDir frames
    waits moves remaps defects pools queues log wraps telem outs free licences excluded boards boardGib defDropped active
    snaps jseq hostReqs peerReqs leaQ holders offline boardMts comms lateTab ops lates spkOps spkEpoch qps udAgain lateFmt
    pubs snapEnd snapWaits mrs pcieDown ptpGood lports flash defPrev defSeq events boot fw power pins sb grants sessions jobs
    medDead} :
    (State.mk s.pending regs shadow tiles time launches switches nextId mem units msc mclk busDir frames waits moves remaps
    defects pools queues log wraps telem outs free s.variant s.uid s.fuses licences excluded boards boardGib defDropped active
    snaps jseq hostReqs peerReqs leaQ holders offline boardMts comms lateTab ops lates spkOps spkEpoch qps udAgain lateFmt
    pubs snapEnd snapWaits mrs pcieDown ptpGood lports flash defPrev defSeq events boot s.revoked fw power pins sb grants
    sessions jobs medDead).fused = s.fused := by simp only [State.fused]

/-- A part is taken apart along its binds, branches and loops; `simp` knows the parts that are named. -/
theorem Dev.Keeps.parts {m : Dev α} (h : m.Keeps z := by
    repeat' first
      | with_reducible refine keeps_get_bind fun s hs => ?_
      | with_reducible refine keeps_bind ?_ fun a => ?_
      | with_reducible refine keeps_map _ ?_
      | with_reducible refine keeps_ite ?_ ?_
      | with_reducible refine keeps_forAll fun a => ?_
      | with_reducible refine keeps_mapM fun a => ?_
      | with_reducible refine keeps_filterMapM fun a => ?_
      | with_reducible refine keeps_foldlM fun b a => ?_
      | with_reducible refine keeps_attempt ?_
      | with_reducible refine keeps_upd fun s hs => ?_
      | dsimp only
      | simp [*]; done
      | split) : m.Keeps z := h

/-! ### Instructions -/

@[simp] theorem State.setTile_fused (s : State) (t : Nat) (tl : Tile) : (s.setTile t tl).fused = s.fused := update_fused ..
@[simp] theorem abortGroup_fused (s : State) (l t : Nat) : (abortGroup s l t).fused = s.fused := by unfold abortGroup; dsimp only; simp
@[simp] theorem abortTile_fused (s : State) (t : Nat) (tl : Tile) (code detail : Nat) :
    (abortTile s t tl code detail).fused = s.fused := by
  unfold abortTile; dsimp only; split <;> simp

section
variable {body : State → Tile → Kx → State × Act} (h : ∀ s tl kx, (body s tl kx).1.fused = s.fused)
  (s : State) (t : Nat) (tl : Tile) (r : Run) (k : LKernel)
include h

theorem retryHead_fused (q : Nat) (e : QEntry) : (retryHead s t tl r k q e body).fused = s.fused := by
  unfold retryHead
  dsimp only
  split <;> simp [h]

theorem issueNew_fused (i : Instr) (opc : Nat) (w : IWord) (x : W64) :
    (issueNew s t tl r k i opc w x body).fused = s.fused := by
  unfold issueNew
  dsimp only
  repeat' split
  all_goals simp [h]

omit r k tl in
theorem runInstr_fused (i : Instr) (opc : Nat) (w : IWord) (x : W64) : (runInstr s t i opc w x body).fused = s.fused := by
  unfold runInstr
  dsimp only
  split
  · rfl
  · split <;> simp [retryHead_fused h, issueNew_fused h]

omit r k tl s t in
theorem keeps_deviceInstr {s : State} {t : Nat} {i : Instr} {opc : Nat} {w : IWord} {x : W64} :
    (deviceInstr s t i opc w x body).Keeps s := by
  unfold deviceInstr
  split
  · exact keeps_next (runInstr_fused h s t i opc w x)
  · exact nofun

end

theorem keeps_tileInstr {s : State} {t : Nat} {i : Instr} {opc : Nat} {w : IWord} {x : W64} {body : Tile → Kx → Act} :
    (tileInstr s t i opc w x body).Keeps s := keeps_deviceInstr fun _ _ _ => rfl

theorem keeps_fnInstr {fn : Nat} {w : IWord} {r : Res} {s : State} (h : r.Keeps s) : (fnInstr fn w r).Keeps s := by
  unfold fnInstr
  split
  · exact h
  · exact nofun

/-- A part inside an instruction's body. -/
@[simp] theorem inDev_fused {t : Nat} {m : Dev Act} {s : State} {tl : Tile} (h : m.Keeps s.fused) :
    (inDev t m s tl).1.fused = s.fused := by
  have start : (s.setTile t tl).fused = s.fused := State.setTile_fused ..
  have all := h (s.setTile t tl) start
  unfold inDev
  dsimp only
  revert all
  rcases m.go (s.setTile t tl) with ⟨⟨_ | _⟩ | a, s'⟩
  · exact id
  · exact fun _ => start
  · exact id

theorem fst_ite_fused {α : Type} {p : Prop} [Decidable p] {a b : State × α} {z : Fused}
    (ha : p → a.1.fused = z) (hb : ¬ p → b.1.fused = z) : (if p then a else b).1.fused = z := by
  split
  · exact ha ‹_›
  · exact hb ‹_›

theorem rows_ite {p : Prop} [Decidable p] {a b : Option (State → Res)}
    (ha : ∀ {f}, a = some f → ∀ s, (f s).Keeps s) (hb : ∀ {f}, b = some f → ∀ s, (f s).Keeps s) {f : State → Res}
    (h : (if p then a else b) = some f) : ∀ s, (f s).Keeps s := by
  split at h
  · exact ha h
  · exact hb h

section
/-! `parts` reads its script from this text, so its uses are elaborated in order. -/

set_option Elab.async false
variable {z : Fused}

@[simp] theorem State.setReg_fused (s : State) (off : Nat) (v : W64) : (State.setReg s off v).fused = s.fused := update_fused ..
@[simp] theorem keeps_execNop (t : Nat) (w : IWord) (s : State) : (execNop t w s).Keeps s := keeps_tileInstr
@[simp] theorem keeps_execAlu (t : Nat) (w : IWord) (s : State) : (execAlu t w s).Keeps s := keeps_tileInstr
@[simp] theorem keeps_execAlui (t : Nat) (w : IWord) (s : State) : (execAlui t w s).Keeps s := keeps_tileInstr
@[simp] theorem keeps_execLi (t : Nat) (w : IWord) (x : W64) (s : State) : (execLi t w x s).Keeps s := keeps_tileInstr
@[simp] theorem keeps_execCmp (t : Nat) (w : IWord) (s : State) : (execCmp t w s).Keeps s := keeps_tileInstr
@[simp] theorem keeps_execPop (t : Nat) (w : IWord) (s : State) : (execPop t w s).Keeps s := keeps_tileInstr
@[simp] theorem keeps_execBr (t : Nat) (w : IWord) (s : State) : (execBr t w s).Keeps s := keeps_tileInstr
@[simp] theorem keeps_execBrr (t : Nat) (w : IWord) (s : State) : (execBrr t w s).Keeps s := keeps_tileInstr
@[simp] theorem keeps_execLoop (t : Nat) (w : IWord) (s : State) : (execLoop t w s).Keeps s := keeps_tileInstr
@[simp] theorem keeps_execLoopEnd (t : Nat) (s : State) : (execLoopEnd t s).Keeps s := by
  refine keeps_next ?_
  split
  · rfl
  · split <;> simp
@[simp] theorem keeps_execFpu (t : Nat) (w : IWord) (s : State) : (execFpu t w s).Keeps s := keeps_tileInstr
@[simp] theorem keeps_execWaitq (t : Nat) (w : IWord) (s : State) : (execWaitq t w s).Keeps s := keeps_tileInstr
@[simp] theorem keeps_execFence (t : Nat) (w : IWord) (s : State) : (execFence t w s).Keeps s := keeps_tileInstr
@[simp] theorem keeps_execKend (t : Nat) (w : IWord) (s : State) : (execKend t w s).Keeps s := keeps_tileInstr
@[simp] theorem keeps_execRdsr (t : Nat) (w : IWord) (s : State) : (execRdsr t w s).Keeps s := keeps_tileInstr
@[simp] theorem keeps_execWrsr (t : Nat) (w : IWord) (s : State) : (execWrsr t w s).Keeps s := keeps_tileInstr
@[simp] theorem keeps_execLds (t : Nat) (w : IWord) (s : State) : (execLds t w s).Keeps s := keeps_tileInstr
@[simp] theorem keeps_execSts (t : Nat) (w : IWord) (s : State) : (execSts t w s).Keeps s := keeps_tileInstr
@[simp] theorem keeps_execAdda (t : Nat) (w : IWord) (s : State) : (execAdda t w s).Keeps s := keeps_tileInstr
@[simp] theorem keeps_execMova (t : Nat) (w : IWord) (s : State) : (execMova t w s).Keeps s := keeps_tileInstr
@[simp] theorem keeps_execTdld (t : Nat) (w : IWord) (s : State) : (execTdld t w s).Keeps s := keeps_tileInstr
@[simp] theorem keeps_execTdst (t : Nat) (w : IWord) (s : State) : (execTdst t w s).Keeps s := keeps_tileInstr
@[simp] theorem keeps_execTdset (t : Nat) (w : IWord) (s : State) : (execTdset t w s).Keeps s := keeps_tileInstr
@[simp] theorem keeps_execTdget (t : Nat) (w : IWord) (s : State) : (execTdget t w s).Keeps s := keeps_tileInstr
@[simp] theorem State.emit_fused (s : State) (o : Out) : (State.emit s o).fused = s.fused := update_fused ..
@[simp] theorem State.fresh_fused (s : State) : s.fresh.2.fused = s.fused := update_fused ..
@[simp] theorem keeps_freshBelow (n : Nat) : (freshBelow n).Keeps z := by unfold freshBelow; exact .parts
@[simp] theorem State.setF_fused (s : State) (off hi lo v : Nat) : (State.setF s off hi lo v).fused = s.fused := update_fused ..
@[simp] theorem State.count_fused (s : State) (off n : Nat) : (State.count s off n).fused = s.fused := update_fused ..
@[simp] theorem State.perf_fused (s : State) (off n : Nat) : (State.perf s off n).fused = s.fused := by unfold State.perf; simp
@[simp] theorem State.logPut_fused (s : State) (r : LogRec) : (State.logPut s r).fused = s.fused := by unfold State.logPut; simp
@[simp] theorem State.event_fused (s : State) (r : LogRec) : (State.event s r).fused = s.fused := update_fused ..
@[simp] theorem State.logRec_fused (s : State) (type : Nat) (o : Origin) (info target value : Nat) : (State.logRec s type o
    info target value).fused = s.fused := by unfold State.logRec; simp
@[simp] theorem State.setFrame_fused (s : State) (f : Nat) (e : Frame) : (State.setFrame s f e).fused = s.fused :=
    update_fused ..
@[simp] theorem State.rasBit_fused (s : State) (p i : Nat) : (State.rasBit s p i).fused = s.fused :=
    by unfold State.rasBit; simp
@[simp] theorem State.freezePart_fused (s : State) (p cause va : Nat) : (State.freezePart s p cause va).fused = s.fused :=
    by unfold State.freezePart; simp
@[simp] theorem State.freeze_fused (s : State) (m : Master) (p cause a va : Nat) : (State.freeze s m p cause a va).fused =
    s.fused := by unfold State.freeze; dsimp only; (repeat' split) <;> simp
@[simp] theorem State.deny_fused (s : State) (m : Master) (p cause a va : Nat) : (State.deny s m p cause a va).fused = s.fused
    := by unfold State.deny; simp
@[simp] theorem State.toHost_fused (s : State) (port fn addr : Nat) (data : List Byte) : (State.toHost s port fn addr
    data).fused = s.fused := by unfold State.toHost; simp
@[simp] theorem keeps_sendHostRead (who : Master) (port fn addr len : Nat) : (sendHostRead who port fn addr len).Keeps z :=
    by unfold sendHostRead; exact .parts
@[simp] theorem State.setLport_fused (s : State) (n : Nat) (p : LPort) : (State.setLport s n p).fused = s.fused :=
    update_fused ..
@[simp] theorem State.leaSend_fused (s : State) (port vc : Nat) (msg : List Byte) : (State.leaSend s port vc msg).fused =
    s.fused := by unfold State.leaSend; simp
@[simp] theorem State.leaPop_fused (s : State) (port v : Nat) : (State.leaPop s port v).fused = s.fused :=
    by unfold State.leaPop; dsimp only; split <;> simp
@[simp] theorem State.leaTake_fused (s : State) (v : Nat) (msg : List Byte) : (State.leaTake s v msg).fused = s.fused :=
    by unfold State.leaTake; split <;> simp
@[simp] theorem keeps_sendPeer (who : Master) (part ports dest va hint : Nat) (write : Bool) (len : Nat) (data : List Byte) :
    (sendPeer who part ports dest va hint write len data).Keeps z := by unfold sendPeer; exact .parts
@[simp] theorem State.setQp_fused (s : State) (n : Nat) (q : Qp) : (State.setQp s n q).fused = s.fused := update_fused ..
@[simp] theorem State.sendPackets_fused (s : State) (n : Nat) (m : QpMsg) : (State.sendPackets s n m).fused = s.fused :=
    by unfold State.sendPackets; simp
@[simp] theorem State.qpPost_fused (s : State) (n : Nat) (m : QpMsg) : (State.qpPost s n m).fused = s.fused :=
    by unfold State.qpPost; simp
@[simp] theorem State.qpSluice_fused (s : State) (n : Nat) (data : List Byte) : (State.qpSluice s n data).fused = s.fused :=
    by unfold State.qpSluice; simp
@[simp] theorem State.udSend_fused (s : State) (port n : Nat) (msg : List Byte) : (State.udSend s port n msg).fused = s.fused
    := update_fused ..
@[simp] theorem State.defect_fused (s : State) (kind unit loc threshold : Nat) : (State.defect s kind unit loc threshold).fused
    = s.fused := by unfold State.defect; simp
@[simp] theorem State.poisonFrame_fused (s : State) (f : Nat) : (State.poisonFrame s f).fused = s.fused :=
    by unfold State.poisonFrame; simp
@[simp] theorem keeps_retireRow (a : Nat) : (retireRow a).Keeps z := by unfold retireRow; exact .parts
@[simp] theorem State.moved_fused (s : State) (a : Nat) (write : Bool) : (State.moved s a write).fused = s.fused :=
    by unfold State.moved; simp
@[simp] theorem State.setUnit_fused (s : State) (a v : Nat) : (State.setUnit s a v).fused = s.fused := update_fused ..
@[simp] theorem keeps_mirrorRead (a : Nat) : (mirrorRead a).Keeps z := by unfold mirrorRead; exact .parts
@[simp] theorem keeps_unitRead (a : Nat) : (unitRead a).Keeps z := by unfold unitRead; exact .parts
@[simp] theorem State.unitWrite_fused (s : State) (a : Nat) (bs : List Byte) (poison : Bool) : (State.unitWrite s a bs
    poison).fused = s.fused := by unfold State.unitWrite; simp
@[simp] theorem keeps_weirTake (p a units : Nat) : (weirTake p a units).Keeps z := by unfold weirTake; exact .parts
@[simp] theorem State.setLine_fused (s : State) (a : Nat) (l : MscLine) : (State.setLine s a l).fused = s.fused :=
    update_fused ..
@[simp] theorem keeps_writeBack (a : Nat) : (writeBack a).Keeps z := by unfold writeBack; exact .parts
@[simp] theorem keeps_takeWay (p a : Nat) (keep : Bool) : (takeWay p a keep).Keeps z := by unfold takeWay; exact .parts
@[simp] theorem keeps_touch (a h : Nat) : (touch a h).Keeps z := by unfold touch; exact .parts
@[simp] theorem keeps_mscErrors (a : Nat) (secs : List Nat) : (mscErrors a secs).Keeps z := by unfold mscErrors; exact .parts
@[simp] theorem keeps_forward (x0 x1 : Nat) : (forward x0 x1).Keeps z := by
  induction x0 generalizing x1 with
  | zero => exact keeps_pure _
  | succ n ih => unfold forward; exact .parts
@[simp] theorem keeps_hubRead (p own page a n : Nat) : (hubRead p own page a n).Keeps z := by unfold hubRead; exact .parts
@[simp] theorem keeps_hubWrite (p own page a : Nat) (bs : List Byte) : (hubWrite p own page a bs).Keeps z := by
  unfold hubWrite
  have setLine : ∀ a l, (upd fun s => s.setLine a l).Keeps z := fun a l => keeps_upd fun s hs => (State.setLine_fused s a
      l).trans hs
  refine keeps_bind (keeps_forward 16 a) fun a => keeps_get_bind fun s hs => keeps_ite .parts (keeps_ite .parts ?_)
  refine keeps_bind .parts fun _ => keeps_bind .parts fun _ => keeps_bind (keeps_weirTake _ _ _) fun _ =>
    keeps_bind (keeps_mapM fun i => .parts) fun got => keeps_ite (keeps_ite ?_ ?_) ?_
  · exact keeps_bind (keeps_takeWay _ _ _) fun w => keeps_bind (setLine _ _) fun _ => keeps_touch _ _
  · exact keeps_bind (setLine _ _) fun _ => keeps_touch _ _
  · exact keeps_upd fun s hs => (foldl_fused fun s i => State.unitWrite_fused _ _ _ _).trans hs
@[simp] theorem keeps_dpaRead (p own a n : Nat) : (dpaRead p own a n).Keeps z := by unfold dpaRead; exact .parts
@[simp] theorem keeps_dpaWrite (p own a : Nat) (bs : List Byte) : (dpaWrite p own a bs).Keeps z :=
    by unfold dpaWrite; exact .parts
@[simp] theorem keeps_walkFrom (p sel va x3 x4 x5 : Nat) : (walkFrom p sel va x3 x4 x5).Keeps z := by
  induction x3 generalizing x4 x5 with
  | zero => exact keeps_pure _
  | succ n ih => unfold walkFrom; exact .parts
@[simp] theorem keeps_walk (as : Option Nat) (p sel va : Nat) : (walk as p sel va).Keeps z := by unfold walk; exact .parts
@[simp] theorem keeps_xlateFault (as : Option Nat) (cause lvl src va : Nat) : (xlateFault as cause lvl src va).Keeps z :=
    by unfold xlateFault; exact .parts
@[simp] theorem keeps_translate (as : Option Nat) (p sel src va : Nat) (write inbound : Bool) : (translate as p sel src va
    write inbound).Keeps z := by unfold translate; exact .parts
@[simp] theorem keeps_pieceRead (v : View) (hint va n : Nat) (ext : Option (List Byte)) : (pieceRead v hint va n ext).Keeps z
    := by unfold pieceRead; exact .parts
@[simp] theorem keeps_readAll (v : View) (hint va0 : Nat) (ext : Option (List Byte)) (x4 : List (Nat × Nat)) : (readAll v hint
    va0 ext x4).Keeps z := by
  induction x4 with
  | nil => exact keeps_pure _
  | cons p rest ih => unfold readAll; exact .parts
@[simp] theorem keeps_vaRead (v : View) (hint va n : Nat) (ext : Option (List Byte)) : (vaRead v hint va n ext).Keeps z :=
    by unfold vaRead; exact .parts
@[simp] theorem keeps_pieceWrite (v : View) (hint va : Nat) (bs : List Byte) : (pieceWrite v hint va bs).Keeps z :=
    by unfold pieceWrite; exact .parts
@[simp] theorem keeps_writeAll (v : View) (hint va0 : Nat) (bs : List Byte) (x4 : List (Nat × Nat)) : (writeAll v hint va0 bs
    x4).Keeps z := by
  induction x4 with
  | nil => exact keeps_pure _
  | cons p rest ih => unfold writeAll; exact .parts
@[simp] theorem keeps_vaWrite (v : View) (hint va : Nat) (bs : List Byte) : (vaWrite v hint va bs).Keeps z :=
    by unfold vaWrite; exact .parts
@[simp] theorem State.setCq_fused (s : State) (q : Nat) (c : CmdQ) : (State.setCq s q c).fused = s.fused := update_fused ..
@[simp] theorem State.queueIrq_fused (s : State) (q : Nat) : (State.queueIrq s q).fused = s.fused := update_fused ..
@[simp] theorem keeps_ringRecord (q : Nat) (bytes : List Byte) : (ringRecord q bytes).Keeps z :=
    by unfold ringRecord; exact .parts
@[simp] theorem keeps_complete (q seqno : Nat) (bytes : List Byte) : (complete q seqno bytes).Keeps z :=
    by unfold complete; exact .parts
@[simp] theorem keeps_completeWith (q seqno type status detail : Nat) : (completeWith q seqno type status detail).Keeps z :=
    by unfold completeWith; exact .parts
@[simp] theorem keeps_takeCmd (q type : Nat) : (takeCmd q type).Keeps z := by unfold takeCmd; exact .parts
@[simp] theorem keeps_nextJseq (p type src unit : Nat) : (nextJseq p type src unit).Keeps z := by unfold nextJseq; exact .parts
@[simp] theorem keeps_jrnRecord (who : Master) (p step type src unit key : Nat) (payload : List Byte) : (jrnRecord who p step
    type src unit key payload).Keeps z := by unfold jrnRecord; exact .parts
@[simp] theorem keeps_jrnFind (v : View) (base type src unit seq used x7 x8 : Nat) : (jrnFind v base type src unit seq used x7
    x8).Keeps z := by
  induction x7 generalizing x8 with
  | zero => exact keeps_pure _
  | succ n ih => unfold jrnFind; exact .parts
@[simp] theorem keeps_jrnLookup (who : Master) (p step type src unit : Nat) : (jrnLookup who p step type src unit).Keeps z :=
    by unfold jrnLookup; exact .parts
@[simp] theorem keeps_jrnPass (who : Master) (p mode step type src unit key : Nat) (live : List Byte) : (jrnPass who p mode
    step type src unit key live).Keeps z := by unfold jrnPass; exact .parts
@[simp] theorem keeps_tileJournal (t type key : Nat) (live : List Byte) : (tileJournal t type key live).Keeps z :=
    by unfold tileJournal; exact .parts

@[simp] theorem keeps_execMmac (t : Nat) (w : IWord) (x : W64) (s : State) : (execMmac t w x s).Keeps s := keeps_tileInstr
@[simp] theorem keeps_execMzero (t : Nat) (w : IWord) (s : State) : (execMzero t w s).Keeps s := keeps_tileInstr
@[simp] theorem keeps_execMdrain (t : Nat) (w : IWord) (x : W64) (s : State) : (execMdrain t w x s).Keeps s := keeps_tileInstr
@[simp] theorem keeps_execMpad (t : Nat) (w : IWord) (s : State) : (execMpad t w s).Keeps s := keeps_tileInstr
@[simp] theorem keeps_execMlen (t : Nat) (w : IWord) (s : State) : (execMlen t w s).Keeps s := keeps_tileInstr
@[simp] theorem keeps_execVop (t : Nat) (w : IWord) (s : State) : (execVop t w s).Keeps s := keeps_tileInstr
@[simp] theorem keeps_execVopb (t : Nat) (w : IWord) (s : State) : (execVopb t w s).Keeps s := keeps_tileInstr
@[simp] theorem keeps_execVcmp (t : Nat) (w : IWord) (s : State) : (execVcmp t w s).Keeps s := keeps_tileInstr
@[simp] theorem keeps_execVcvt (t : Nat) (w : IWord) (s : State) : (execVcvt t w s).Keeps s := keeps_tileInstr
@[simp] theorem keeps_execVld (t : Nat) (w : IWord) (s : State) : (execVld t w s).Keeps s := keeps_tileInstr
@[simp] theorem keeps_execVst (t : Nat) (w : IWord) (s : State) : (execVst t w s).Keeps s := keeps_tileInstr
@[simp] theorem keeps_execVred (t : Nat) (w : IWord) (s : State) : (execVred t w s).Keeps s := keeps_tileInstr
@[simp] theorem keeps_execQblk (t : Nat) (w : IWord) (x : W64) (s : State) : (execQblk t w x s).Keeps s := keeps_tileInstr
@[simp] theorem keeps_execVwid (t : Nat) (w : IWord) (x : W64) (s : State) : (execVwid t w x s).Keeps s := keeps_tileInstr
@[simp] theorem keeps_execVperm (t : Nat) (w : IWord) (s : State) : (execVperm t w s).Keeps s := keeps_tileInstr
@[simp] theorem keeps_execVbcast (t : Nat) (w : IWord) (s : State) : (execVbcast t w s).Keeps s := keeps_tileInstr
@[simp] theorem keeps_execVacc (t : Nat) (w : IWord) (s : State) : (execVacc t w s).Keeps s := keeps_tileInstr
@[simp] theorem keeps_execSfn (t : Nat) (w : IWord) (s : State) : (execSfn t w s).Keeps s := keeps_tileInstr
@[simp] theorem keeps_execStab (t : Nat) (w : IWord) (s : State) : (execStab t w s).Keeps s := keeps_tileInstr
@[simp] theorem keeps_execOsmn (t : Nat) (w : IWord) (s : State) : (execOsmn t w s).Keeps s := keeps_tileInstr
@[simp] theorem keeps_execOsmx (t : Nat) (w : IWord) (s : State) : (execOsmx t w s).Keeps s := keeps_tileInstr
@[simp] theorem keeps_execOsme (t : Nat) (w : IWord) (x : W64) (s : State) : (execOsme t w x s).Keeps s := keeps_tileInstr
@[simp] theorem keeps_execOsms (t : Nat) (w : IWord) (x : W64) (s : State) : (execOsms t w x s).Keeps s :=
    keeps_deviceInstr fun _ _ _ => inDev_fused .parts
@[simp] theorem keeps_execOsmcCorr (t : Nat) (w : IWord) (s : State) : (execOsmcCorr t w s).Keeps s :=
    keeps_fnInstr keeps_tileInstr
@[simp] theorem keeps_execOsmcFin (t : Nat) (w : IWord) (s : State) : (execOsmcFin t w s).Keeps s :=
    keeps_fnInstr keeps_tileInstr
@[simp] theorem keeps_execOsmcMerge (t : Nat) (w : IWord) (s : State) : (execOsmcMerge t w s).Keeps s :=
    keeps_fnInstr keeps_tileInstr
@[simp] theorem keeps_execOsmcSave (t : Nat) (w : IWord) (s : State) : (execOsmcSave t w s).Keeps s :=
    keeps_fnInstr keeps_tileInstr
@[simp] theorem keeps_execOsmcLoad (t : Nat) (w : IWord) (s : State) : (execOsmcLoad t w s).Keeps s :=
    keeps_fnInstr keeps_tileInstr
@[simp] theorem keeps_execOsmvAccum (t : Nat) (w : IWord) (x : W64) (s : State) : (execOsmvAccum t w x s).Keeps s :=
    keeps_fnInstr keeps_tileInstr
@[simp] theorem keeps_execOsmvDecide (t : Nat) (w : IWord) (x : W64) (s : State) : (execOsmvDecide t w x s).Keeps s :=
    keeps_fnInstr (keeps_deviceInstr fun _ _ _ => inDev_fused .parts)
@[simp] theorem keeps_execOsmbProb (t : Nat) (w : IWord) (x : W64) (s : State) : (execOsmbProb t w x s).Keeps s :=
    keeps_fnInstr keeps_tileInstr
@[simp] theorem keeps_execOsmbDscore (t : Nat) (w : IWord) (x : W64) (s : State) : (execOsmbDscore t w x s).Keeps s :=
    keeps_fnInstr keeps_tileInstr
@[simp] theorem chanFault_fused (s : State) (t n st code listPos addr : Nat) : (chanFault s t n st code listPos addr).fused =
    s.fused := by unfold chanFault; dsimp only; split <;> simp
@[simp] theorem crumbFault_fused (s : State) (t e : Nat) (write : Bool) (code addr : Nat) : (crumbFault s t e write code
    addr).fused = s.fused := by unfold crumbFault; simp
@[simp] theorem keeps_reqFault (t : Nat) (f : Flight) (st code : Nat) : (reqFault t f st code).Keeps z :=
    by unfold reqFault; exact .parts
@[simp] theorem keeps_setLeaf (t : Nat) (f : Flight) (lf : Leaf) (lvl : Nat) : (setLeaf t f lf lvl).Keeps z :=
    by unfold setLeaf; exact .parts
@[simp] theorem keeps_lookupLeaf (t tag : Nat) : (lookupLeaf t tag).Keeps z := by unfold lookupLeaf; exact .parts
@[simp] theorem keeps_execAddressWalk (t tag : Nat) (s : State) : (execAddressWalk t tag s).Keeps s := keeps_run' s .parts
@[simp] theorem keeps_grantChan (t : Nat) : (grantChan t).Keeps z := by unfold grantChan; exact .parts
@[simp] theorem keeps_grantCrumb (t e : Nat) : (grantCrumb t e).Keeps z := by unfold grantCrumb; exact .parts
@[simp] theorem keeps_execFlumeRequestGrant (t : Nat) (s : State) : (execFlumeRequestGrant t s).Keeps s := keeps_run' s .parts
@[simp] theorem keeps_flumeAnswer (t tag code : Nat) (data : List Byte) : (flumeAnswer t tag code data).Keeps z :=
    by unfold flumeAnswer; exact .parts
@[simp] theorem keeps_answerFault (t : Nat) (f : Flight) (code : Nat) : (answerFault t f code).Keeps z :=
    by unfold answerFault; exact .parts
@[simp] theorem keeps_execFlumeReadResponse (t tag : Nat) (s : State) : (execFlumeReadResponse t tag s).Keeps s :=
    keeps_run' s .parts
@[simp] theorem keeps_execFlumeWriteAck (t tag : Nat) (s : State) : (execFlumeWriteAck t tag s).Keeps s := keeps_run' s .parts
@[simp] theorem keeps_execFlumeSlotReclaim (t n slot : Nat) (s : State) : (execFlumeSlotReclaim t n slot s).Keeps s := by
  unfold execFlumeSlotReclaim
  refine keeps_next ?_
  split
  · rfl
  · rw [ite_fused, State.setTile_fused, ite_self]
@[simp] theorem keeps_execFcfg (t : Nat) (w : IWord) (s : State) : (execFcfg t w s).Keeps s := keeps_tileInstr
@[simp] theorem keeps_execFgo (t : Nat) (w : IWord) (s : State) : (execFgo t w s).Keeps s := keeps_tileInstr
@[simp] theorem keeps_execFwait (t : Nat) (w : IWord) (s : State) : (execFwait t w s).Keeps s := keeps_tileInstr
@[simp] theorem keeps_execFstop (t : Nat) (w : IWord) (s : State) : (execFstop t w s).Keeps s := keeps_tileInstr
@[simp] theorem keeps_execFrel (t : Nat) (w : IWord) (s : State) : (execFrel t w s).Keeps s := keeps_tileInstr
@[simp] theorem keeps_execCrbRead (t : Nat) (w : IWord) (x : W64) (s : State) : (execCrbRead t w x s).Keeps s :=
    keeps_fnInstr keeps_tileInstr
@[simp] theorem keeps_execCrbWrite (t : Nat) (w : IWord) (x : W64) (s : State) : (execCrbWrite t w x s).Keeps s :=
    keeps_fnInstr keeps_tileInstr
@[simp] theorem keeps_execCrbWriteImmediate (t : Nat) (w : IWord) (x : W64) (s : State) : (execCrbWriteImmediate t w x s).Keeps
    s := keeps_fnInstr keeps_tileInstr
@[simp] theorem keeps_execOsmRerun (t : Nat) (s : State) : (execOsmRerun t s).Keeps s := by
  unfold execOsmRerun
  refine keeps_next ?_
  split
  · rfl
  · simp only [ite_fused, State.setTile_fused, ite_self]
@[simp] theorem keeps_logWrite (o : Origin) (type off v : Nat) : (logWrite o type off v).Keeps z :=
    by unfold logWrite; exact .parts
@[simp] theorem keeps_regWrite {o : Origin} {off : Nat} {v : Nat} {ok : Bool} {eff : Dev Unit} (heff : eff.Keeps z) : (regWrite
    o off v ok eff).Keeps z := by unfold regWrite; exact .parts
@[simp] theorem keeps_plainWrite {o : Origin} {off : Nat} {v : Nat} {ok : Bool} {eff : Dev Unit} (heff : eff.Keeps z) :
    (plainWrite o off v ok eff).Keeps z := by unfold plainWrite; exact .parts
@[simp] theorem keeps_lockWrite {o : Origin} {off : Nat} {v : Nat} {lockBit : Nat} {viol : Nat} {ok : Bool} {eff : Bool → Dev
    Unit} (h : ∀ b, (eff b).Keeps z) : (lockWrite o off v lockBit viol ok eff).Keeps z := by unfold lockWrite; exact .parts
@[simp] theorem keeps_putReg (off v : Nat) : (putReg off v).Keeps z := by unfold putReg; exact .parts
@[simp] theorem keeps_shadowed (off v : Nat) : (shadowed off v).Keeps z := by unfold shadowed; exact .parts
@[simp] theorem State.lineError_fused (s : State) (t word : Nat) : (State.lineError s t word).fused = s.fused :=
    by unfold State.lineError; dsimp only; (repeat' split) <;> simp
@[simp] theorem State.mendWord_fused (s : State) (t word : Nat) : (State.mendWord s t word).fused = s.fused :=
    by unfold State.mendWord; simp
@[simp] theorem keeps_execCisEccWriteback (t word : Nat) (s : State) : (execCisEccWriteback t word s).Keeps s :=
    by simp [execCisEccWriteback]
@[simp] theorem keeps_execCisScrub (t bank : Nat) (s : State) : (execCisScrub t bank s).Keeps s := by simp [execCisScrub]
@[simp] theorem keeps_hubAnswer (r : HubReq) (status : Nat) (data : List Byte) : (hubAnswer r status data).Keeps z :=
    by unfold hubAnswer; exact .parts
@[simp] theorem keeps_hubServe (r : HubReq) : (hubServe r).Keeps z := by unfold hubServe; exact .parts
@[simp] theorem keeps_tryServe (r : HubReq) : (tryServe r).Keeps z := by
  intro s h
  have served := keeps_hubServe r s h
  show (tryServe r s).2.fused = z
  unfold tryServe
  revert served
  rcases (hubServe r).go s with ⟨⟨_ | _⟩ | a, s'⟩
  · exact id
  · exact fun _ => h
  · exact id
@[simp] theorem keeps_hubArrive (r : HubReq) : (hubArrive r).Keeps z := by unfold hubArrive; exact .parts
@[simp] theorem keeps_execHubReadRequest (r : HubReq) (s : State) : (execHubReadRequest r s).Keeps s := keeps_run' s .parts
@[simp] theorem keeps_execHubWriteRequest (r : HubReq) (s : State) : (execHubWriteRequest r s).Keeps s := keeps_run' s .parts
@[simp] theorem State.unwait_fused (s : State) (w : Waiter) : (State.unwait s w).fused = s.fused := by unfold State.unwait; simp
@[simp] theorem keeps_releaseWaits : (releaseWaits ).Keeps z := by unfold releaseWaits; exact .parts
@[simp] theorem State.refill_fused (s : State) (h set p : Nat) : (State.refill s h set p).fused = s.fused :=
    by unfold State.refill; simp
@[simp] theorem keeps_execWeirRefill (h : Nat) (s : State) : (execWeirRefill h s).Keeps s := keeps_run' s .parts
@[simp] theorem keeps_execWeirCfgWrite (h set p v : Nat) (o : Origin) (s : State) : (execWeirCfgWrite h set p v o s).Keeps s :=
    keeps_run' s .parts
@[simp] theorem keeps_engineCharge (p a units : Nat) : (engineCharge p a units).Keeps z := by unfold engineCharge; exact .parts
@[simp] theorem keeps_engineRead (a : Nat) : (engineRead a).Keeps z := by unfold engineRead; exact .parts
@[simp] theorem State.engineWrite_fused (s : State) (a : Nat) (bs : List Byte) (poison : Bool) : (State.engineWrite s a bs
    poison).fused = s.fused := by unfold State.engineWrite; simp
@[simp] theorem keeps_engineCopy (p src dst n : Nat) : (engineCopy p src dst n).Keeps z := by unfold engineCopy; exact .parts
@[simp] theorem keeps_flushLine (a : Nat) : (flushLine a).Keeps z := by unfold flushLine; exact .parts
@[simp] theorem keeps_purgeLine (a : Nat) : (purgeLine a).Keeps z := by unfold purgeLine; exact .parts
@[simp] theorem keeps_maintWrite (h op : Nat) (done : Bool) (o : Origin) : (maintWrite h op done o).Keeps z :=
    by unfold maintWrite; exact .parts
@[simp] theorem keeps_execMscMaintWriteback (h : Nat) (done : Bool) (o : Origin) (s : State) : (execMscMaintWriteback h done o
    s).Keeps s := keeps_run' s .parts
@[simp] theorem keeps_execMscMaintInvalidate (h : Nat) (done : Bool) (o : Origin) (s : State) : (execMscMaintInvalidate h done
    o s).Keeps s := keeps_run' s .parts
@[simp] theorem keeps_execMscMaintDone (h : Nat) (s : State) : (execMscMaintDone h s).Keeps s := by simp [execMscMaintDone]
@[simp] theorem keeps_execHbmRefresh (_site _pch _bank : Nat) (s : State) : (execHbmRefresh _site _pch _bank s).Keeps s :=
    by simp [execHbmRefresh]
@[simp] theorem keeps_execHbmRefreshManagement (_site _pch _bank : Nat) (s : State) : (execHbmRefreshManagement _site _pch
    _bank s).Keeps s := by simp [execHbmRefreshManagement]
@[simp] theorem keeps_execHgtAsCfgWrite (n v : Nat) (o : Origin) (s : State) : (execHgtAsCfgWrite n v o s).Keeps s :=
    keeps_run' s .parts
@[simp] theorem keeps_execHgtVselWrite (n v : Nat) (o : Origin) (s : State) : (execHgtVselWrite n v o s).Keeps s :=
    keeps_run' s (keeps_get_bind fun _ _ => keeps_ite (keeps_regWrite .parts) .parts)
@[simp] theorem keeps_execVselFlipDone (n : Nat) (s : State) : (execVselFlipDone n s).Keeps s := by simp [execVselFlipDone]
@[simp] theorem State.dropTlb_fused (s : State) (p : TlbE → Bool) : (State.dropTlb s p).fused = s.fused :=
    by unfold State.dropTlb; simp
@[simp] theorem keeps_execHgtInvalWrite (n v : Nat) (o : Origin) (s : State) : (execHgtInvalWrite n v o s).Keeps s :=
    keeps_run' s (keeps_get_bind fun _ _ => keeps_ite (keeps_regWrite .parts) .parts)
@[simp] theorem keeps_execInvalidationDone (n : Nat) (s : State) : (execInvalidationDone n s).Keeps s :=
    by simp [execInvalidationDone]
@[simp] theorem keeps_migCommand {q : Nat} {type : Nat} {reserved : QCmd → Bool} {body : QCmd → Nat → Dev MigEnd} (h : ∀ c p,
    (body c p).Keeps z) : (migCommand q type reserved body).Keeps z := by unfold migCommand; exact .parts
@[simp] theorem keeps_execMigMove (q : Nat) (s : State) : (execMigMove q s).Keeps s :=
    keeps_run' s (keeps_migCommand fun _ _ => .parts)
@[simp] theorem State.dropFrame_fused (s : State) (f : Nat) : (State.dropFrame s f).fused = s.fused :=
    by unfold State.dropFrame; simp
@[simp] theorem keeps_movePte (m : Move) (pte : Nat) : (movePte m pte).Keeps z := by unfold movePte; exact .parts
@[simp] theorem keeps_execMigMoveDone (src : Nat) (s : State) : (execMigMoveDone src s).Keeps s :=
    by unfold execMigMoveDone; exact keeps_run' s .parts
@[simp] theorem keeps_execMigFree (q : Nat) (s : State) : (execMigFree q s).Keeps s :=
    keeps_run' s (keeps_migCommand fun _ _ => .parts)
@[simp] theorem keeps_syncMirror (p a : Nat) : (syncMirror p a).Keeps z := by unfold syncMirror; exact .parts
@[simp] theorem keeps_execMigMirror (q : Nat) (s : State) : (execMigMirror q s).Keeps s :=
    keeps_run' s (keeps_migCommand fun _ _ => .parts)
@[simp] theorem keeps_execMigUnmirror (q : Nat) (s : State) : (execMigUnmirror q s).Keeps s :=
    keeps_run' s (keeps_migCommand fun _ _ => .parts)
@[simp] theorem keeps_execMigAttr (q : Nat) (s : State) : (execMigAttr q s).Keeps s :=
    keeps_run' s (keeps_migCommand fun _ _ => .parts)
@[simp] theorem keeps_execMigScan (q : Nat) (s : State) : (execMigScan q s).Keeps s :=
    keeps_run' s (keeps_migCommand fun _ _ => .parts)
@[simp] theorem keeps_inLeaf (v : View) (va : Nat) (write : Bool) : (inLeaf v va write).Keeps z :=
    by unfold inLeaf; exact .parts
@[simp] theorem keeps_inReadAll (v : View) (hint : Nat) (x2 : List (Nat × Nat)) : (inReadAll v hint x2).Keeps z := by
  induction x2 with
  | nil => exact keeps_pure _
  | cons p rest ih => unfold inReadAll; exact .parts
@[simp] theorem keeps_inRead (v : View) (hint va n : Nat) : (inRead v hint va n).Keeps z := by unfold inRead; exact .parts
@[simp] theorem keeps_inWriteAll (v : View) (hint va0 : Nat) (bs : List Byte) (x4 : List (Nat × Nat)) : (inWriteAll v hint va0
    bs x4).Keeps z := by
  induction x4 with
  | nil => exact keeps_pure _
  | cons p rest ih => unfold inWriteAll; exact .parts
@[simp] theorem keeps_inWrite (v : View) (hint va : Nat) (bs : List Byte) : (inWrite v hint va bs).Keeps z :=
    by unfold inWrite; exact .parts
@[simp] theorem keeps_execTrecv (t : Nat) (w : IWord) (s : State) : (execTrecv t w s).Keeps s := by
  refine keeps_deviceInstr fun s tl kx => ?_
  split
  · rfl
  · exact inDev_fused .parts
@[simp] theorem keeps_execTsig (t : Nat) (w : IWord) (s : State) : (execTsig t w s).Keeps s := keeps_tileInstr
@[simp] theorem keeps_execTidyPost (t core k : Nat) (v : W64) (s : State) : (execTidyPost t core k v s).Keeps s :=
    by simp [execTidyPost]
@[simp] theorem keeps_execTidyInboxRead (t core : Nat) (count : Bool) (s : State) : (execTidyInboxRead t core count s).Keeps s
    := by simp [execTidyInboxRead]
@[simp] theorem keeps_execTidyCisternAccess (t core addr len : Nat) (data : Option (List Byte)) (s : State) :
    (execTidyCisternAccess t core addr len data s).Keeps s := by
  unfold execTidyCisternAccess
  refine keeps_next ?_
  dsimp only
  repeat' split
  all_goals simp

@[simp] theorem State.modOp_fused (s : State) (k : OpKey) (f : SlcOp → SlcOp) : (State.modOp s k f).fused = s.fused :=
    by unfold State.modOp; simp
@[simp] theorem State.modPost_fused (s : State) (k : OpKey) (i : Nat) (f : SlcPost → SlcPost) : (State.modPost s k i f).fused =
    s.fused := by unfold State.modPost; simp
@[simp] theorem State.addTerm_fused (s : State) (k : OpKey) (t : SlcTerm) : (State.addTerm s k t).fused = s.fused :=
    by unfold State.addTerm; simp
@[simp] theorem State.toMember_fused (s : State) (c : SlcComm) (st dest u vc : Nat) (at' : Nat) (msg : List Byte) :
    (State.toMember s c st dest u vc at' msg).fused = s.fused := by unfold State.toMember; dsimp only; (repeat' split) <;> simp
@[simp] theorem keeps_slcSend (k : OpKey) (c : SlcComm) (e : SlcSent) (flags src contrib hdr digest : Nat) (data : List Byte) :
    (slcSend k c e flags src contrib hdr digest data).Keeps z := by unfold slcSend; exact .parts
@[simp] theorem State.spkTo_fused (s : State) (c : SlcComm) (st dest : Nat) (msg : List Byte) : (State.spkTo s c st dest
    msg).fused = s.fused := by unfold State.spkTo; simp
@[simp] theorem keeps_slcRead (p : SlcPost) (cis : Bool) (hint : Nat) (at' : Nat) (n : Nat) : (slcRead p cis hint at' n).Keeps
    z := by unfold slcRead; exact .parts
@[simp] theorem keeps_slcWrite (p : SlcPost) (cis : Bool) (hint : Nat) (at' : Nat) (bs : List Byte) : (slcWrite p cis hint at'
    bs).Keeps z := by unfold slcWrite; exact .parts
@[simp] theorem State.modLate_fused (s : State) (k : OpKey) (f : SlcLate → SlcLate) : (State.modLate s k f).fused = s.fused :=
    by unfold State.modLate; simp
@[simp] theorem keeps_slcFinish (k : OpKey) (i status detail : Nat) : (slcFinish k i status detail).Keeps z :=
    by unfold slcFinish; exact .parts
@[simp] theorem keeps_slcFault (k : OpKey) (i c : Nat) : (slcFault k i c).Keeps z := by unfold slcFault; exact .parts
@[simp] theorem keeps_lateRead (n : Nat) (at' : Nat) : (lateRead n at').Keeps z := by unfold lateRead; exact .parts
@[simp] theorem keeps_lateWrite (n : Nat) (at' : Nat) (bs : List Byte) : (lateWrite n at' bs).Keeps z :=
    by unfold lateWrite; exact .parts
@[simp] theorem keeps_lateDecided (k : OpKey) (flags : List Nat) : (lateDecided k flags).Keeps z :=
    by unfold lateDecided; exact .parts
@[simp] theorem keeps_lateSpread (k : OpKey) (c : SlcComm) (stages top present : Nat) (flags : List Nat) : (lateSpread k c
    stages top present flags).Keeps z := by unfold lateSpread; exact .parts
@[simp] theorem keeps_lateClose (k : OpKey) (due : Bool) : (lateClose k due).Keeps z := by unfold lateClose; exact .parts
@[simp] theorem keeps_lateJoin (k : OpKey) (pkg limit jmode jstep : Nat) : (lateJoin k pkg limit jmode jstep).Keeps z :=
    by unfold lateJoin; exact .parts
@[simp] theorem keeps_lateSendJoin (k : OpKey) (c : SlcComm) (d : SlcD) (jmode jstep : Nat) : (lateSendJoin k c d jmode
    jstep).Keeps z := by unfold lateSendJoin; exact .parts
@[simp] theorem keeps_slcJournal (k : OpKey) (type unit : Nat) (live : List Byte) : (slcJournal k type unit live).Keeps z :=
    by unfold slcJournal; exact .parts
@[simp] theorem keeps_slcOrder (k : OpKey) (d : SlcD) (u : Nat) (l : List (Nat × SlcVal)) : (slcOrder k d u l).Keeps z :=
    by unfold slcOrder; exact .parts
@[simp] theorem keeps_slcSum (k : OpKey) (d : SlcD) (u : Nat) (l : List (Nat × SlcVal)) : (slcSum k d u l).Keeps z :=
    by unfold slcSum; exact .parts
@[simp] theorem keeps_slcEncode (d : SlcD) (fmt u stream hop : Nat) (v : SlcVal) : (slcEncode d fmt u stream hop v).Keeps z :=
    by unfold slcEncode; exact .parts
@[simp] theorem keeps_slcValue (p : SlcPost) (u : Nat) : (slcValue p u).Keeps z := by unfold slcValue; exact .parts
@[simp] theorem keeps_slcValues (k : OpKey) (c : SlcComm) (d : SlcD) (u : Nat) (x4 : List (Nat × SlcPost)) : (slcValues k c d u
    x4).Keeps z := by
  induction x4 with
  | nil => exact keeps_pure _
  | cons p rest ih => unfold slcValues; exact .parts
@[simp] theorem keeps_lateTake (k : OpKey) (d : SlcD) : (lateTake k d).Keeps z := by unfold lateTake; exact .parts
@[simp] theorem keeps_lateUnit (k : OpKey) (d : SlcD) (a contrib u : Nat) : (lateUnit k d a contrib u).Keeps z :=
    by unfold lateUnit; exact .parts
@[simp] theorem keeps_latePut (k : OpKey) (d : SlcD) (fmt a u hdr : Nat) (data : List Byte) : (latePut k d fmt a u hdr
    data).Keeps z := by unfold latePut; exact .parts
@[simp] theorem keeps_slcForm (k : OpKey) (c : SlcComm) (d : SlcD) (pres : Nat → Bool) : (slcForm k c d pres).Keeps z :=
    by unfold slcForm; exact .parts
@[simp] theorem keeps_slcUsed (k : OpKey) (u s b : Nat) : (slcUsed k u s b).Keeps z := by unfold slcUsed; exact .parts
@[simp] theorem keeps_slcSendTerm (k : OpKey) (c : SlcComm) (d : SlcD) (u s : Nat) (h : SlcHop) (digest last : Nat) (x : SlcVal
    ⊕ SlcTerm) : (slcSendTerm k c d u s h digest last x).Keeps z := by unfold slcSendTerm; exact .parts
@[simp] theorem keeps_slcStage (k : OpKey) (c : SlcComm) (d : SlcD) (pres : Nat → Bool) (digest last u s : Nat) : (slcStage k c
    d pres digest last u s).Keeps z := by unfold slcStage; exact .parts
@[simp] theorem keeps_slcFinal (k : OpKey) (c : SlcComm) (d : SlcD) (digest u : Nat) : (slcFinal k c d digest u).Keeps z :=
    by unfold slcFinal; exact .parts
@[simp] theorem keeps_slcSpread (k : OpKey) (c : SlcComm) (d : SlcD) (digest last u : Nat) : (slcSpread k c d digest last
    u).Keeps z := by unfold slcSpread; exact .parts
@[simp] theorem keeps_slcReadPlanes (p : SlcPost) (d : SlcD) (e n : Nat) : (slcReadPlanes p d e n).Keeps z :=
    by unfold slcReadPlanes; exact .parts
@[simp] theorem keeps_slcGather (k : OpKey) (c : SlcComm) (digest i : Nat) : (slcGather k c digest i).Keeps z :=
    by unfold slcGather; exact .parts
@[simp] theorem keeps_slcRow (p : SlcPost) (d : SlcD) (n g i valid : Nat) : (slcRow p d n g i valid).Keeps z :=
    by unfold slcRow; exact .parts
@[simp] theorem keeps_slcRows (p : SlcPost) (d : SlcD) (n g valid : Nat) (x5 : List Nat) : (slcRows p d n g valid x5).Keeps z
    := by
  induction x5 with
  | nil => exact keeps_pure _
  | cons p rest ih => unfold slcRows; exact .parts
@[simp] theorem keeps_slcScatter (k : OpKey) (c : SlcComm) (digest i : Nat) : (slcScatter k c digest i).Keeps z :=
    by unfold slcScatter; exact .parts
@[simp] theorem keeps_slcRelay (k : OpKey) (c : SlcComm) (d : SlcD) (digest : Nat) : (slcRelay k c d digest).Keeps z :=
    by unfold slcRelay; exact .parts
@[simp] theorem keeps_countEsc (k : OpKey) (i u n : Nat) : (countEsc k i u n).Keeps z := by unfold countEsc; exact .parts
@[simp] theorem keeps_slcPuts (p : SlcPost) (d : SlcD) (x2 : List (Nat × List Byte)) : (slcPuts p d x2).Keeps z := by
  induction x2 with
  | nil => exact keeps_pure _
  | cons p rest ih => unfold slcPuts; exact .parts
@[simp] theorem keeps_slcEvents (p : SlcPost) (ev : Exc) : (slcEvents p ev).Keeps z := by unfold slcEvents; exact .parts
@[simp] theorem keeps_slcPutUnit (k : OpKey) (c : SlcComm) (i : Nat) (p : SlcPost) (u : Nat) (t : SlcTerm) : (slcPutUnit k c i
    p u t).Keeps z := by unfold slcPutUnit; exact .parts
@[simp] theorem keeps_slcFill (k : OpKey) (i total x3 : Nat) : (slcFill k i total x3).Keeps z := by
  induction x3 with
  | zero => exact keeps_pure _
  | succ n ih => unfold slcFill; exact .parts
@[simp] theorem keeps_slcPutRows (p : SlcPost) (d : SlcD) (n : Nat) (t : SlcTerm) : (slcPutRows p d n t).Keeps z :=
    by unfold slcPutRows; exact .parts
@[simp] theorem keeps_slcDeliver (k : OpKey) (c : SlcComm) (i : Nat) : (slcDeliver k c i).Keeps z :=
    by unfold slcDeliver; exact .parts
@[simp] theorem keeps_slcHold (k : OpKey) (c : SlcComm) (d : SlcD) : (slcHold k c d).Keeps z := by unfold slcHold; exact .parts
@[simp] theorem keeps_slcServed (k : OpKey) : (slcServed k).Keeps z := by unfold slcServed; exact .parts
@[simp] theorem keeps_slcStep (k : OpKey) : (slcStep k).Keeps z := by unfold slcStep; exact .parts
@[simp] theorem keeps_slcMismatch (k : OpKey) (rank : Nat) (tell : Bool) : (slcMismatch k rank tell).Keeps z :=
    by unfold slcMismatch; exact .parts
@[simp] theorem keeps_slcCancel (f : SlcPost → Bool) : (slcCancel f).Keeps z := by unfold slcCancel; exact .parts
@[simp] theorem keeps_slcOpen (p : SlcPost) : (slcOpen p).Keeps z := by unfold slcOpen; exact .parts
@[simp] theorem keeps_execSlc (t : Nat) (w : IWord) (x : W64) (s : State) : (execSlc t w x s).Keeps s :=
    keeps_deviceInstr fun _ _ _ => inDev_fused .parts
@[simp] theorem keeps_execSlcw (t : Nat) (w : IWord) (x : W64) (s : State) : (execSlcw t w x s).Keeps s := keeps_tileInstr
@[simp] theorem keeps_execSlcPost (q : Nat) (s : State) : (execSlcPost q s).Keeps s := keeps_run' s .parts
@[simp] theorem keeps_commRead (n : Nat) (rec' : Nat) : (commRead n rec').Keeps z := by unfold commRead; exact .parts
@[simp] theorem keeps_execSlcCommWrite (n v : Nat) (o : Origin) (s : State) : (execSlcCommWrite n v o s).Keeps s :=
    keeps_run' s .parts
@[simp] theorem keeps_execSluicePacketReceive (msg : List Byte) (s : State) : (execSluicePacketReceive msg s).Keeps s :=
    keeps_run' s .parts
@[simp] theorem keeps_execSlcOpComplete (comm tag step post : Nat) (s : State) : (execSlcOpComplete comm tag step post s).Keeps
    s := keeps_run' s .parts
@[simp] theorem keeps_execSlcDeadlineExpiry (comm tag step post : Nat) (s : State) : (execSlcDeadlineExpiry comm tag step post
    s).Keeps s := keeps_run' s .parts
@[simp] theorem keeps_execSluiceSlotReclaim (t slot i : Nat) (s : State) : (execSluiceSlotReclaim t slot i s).Keeps s :=
    keeps_run' s .parts
@[simp] theorem keeps_execLateJoinReceive (msg : List Byte) (s : State) : (execLateJoinReceive msg s).Keeps s :=
    keeps_run' s .parts
@[simp] theorem keeps_execLateDecisionDeadline (comm tag step : Nat) (s : State) : (execLateDecisionDeadline comm tag step
    s).Keeps s := keeps_run' s .parts
@[simp] theorem keeps_execLateDecisionReceive (msg : List Byte) (s : State) : (execLateDecisionReceive msg s).Keeps s :=
    keeps_run' s .parts
@[simp] theorem keeps_execSlcLateCfgWrite (n v : Nat) (o : Origin) (s : State) : (execSlcLateCfgWrite n v o s).Keeps s := by
  refine keeps_run' s (keeps_get_bind fun _ _ => keeps_ite (keeps_ite (keeps_bind .parts fun b => ?_) .parts) .parts)
  split
  · exact keeps_regWrite .parts
  · exact keeps_regWrite .parts
@[simp] theorem keeps_lateMask (k : OpKey) (x1 : Nat) (from' : Nat) (L : Nat) : (lateMask k x1 from' L).Keeps z :=
    by unfold lateMask; exact .parts
@[simp] theorem keeps_execLbkQuery (t : Nat) (w : IWord) (x : W64) (s : State) : (execLbkQuery t w x s).Keeps s :=
    keeps_fnInstr (keeps_deviceInstr fun _ _ _ => inDev_fused .parts)
@[simp] theorem keeps_execLbkFlush (t : Nat) (w : IWord) (x : W64) (s : State) : (execLbkFlush t w x s).Keeps s :=
    keeps_fnInstr (keeps_deviceInstr fun _ _ _ => inDev_fused .parts)
@[simp] theorem keeps_execJrn (t : Nat) (w : IWord) (x : W64) (s : State) : (execJrn t w x s).Keeps s :=
    keeps_deviceInstr fun _ _ _ => inDev_fused .parts
@[simp] theorem keeps_queueTable (q a n : Nat) : (queueTable q a n).Keeps z := by unfold queueTable; exact .parts
@[simp] theorem State.setPubBit_fused (s : State) (off n b : Nat) (on : Bool) : (State.setPubBit s off n b on).fused = s.fused
    := update_fused ..
@[simp] theorem keeps_pubFlip (u : Pub) : (pubFlip u).Keeps z := by unfold pubFlip; exact .parts
@[simp] theorem keeps_pubStart (u : Pub) : (pubStart u).Keeps z := by unfold pubStart; exact .parts
@[simp] theorem keeps_pubExtents (q : Nat) (c : QCmd) : (pubExtents q c).Keeps z := by unfold pubExtents; exact .parts
@[simp] theorem keeps_execPublish (q : Nat) (s : State) : (execPublish q s).Keeps s := keeps_run' s .parts
@[simp] theorem keeps_execPublishComplete (n b : Nat) (s : State) : (execPublishComplete n b s).Keeps s := keeps_run' s .parts
@[simp] theorem State.setSnap_fused (s : State) (n : Snap) : (State.setSnap s n).fused = s.fused := update_fused ..
@[simp] theorem State.snapState_fused (s : State) (p v : Nat) : (State.snapState s p v).fused = s.fused :=
    by unfold State.snapState; simp
@[simp] theorem State.snapBegin_fused (s : State) (n : Snap) : (State.snapBegin s n).fused = s.fused :=
    by unfold State.snapBegin; simp
@[simp] theorem keeps_snapSend (n : Snap) (va : Nat) (write : Bool) (len : Nat) (data : List Byte) : (snapSend n va write len
    data).Keeps z := by unfold snapSend; exact .parts
@[simp] theorem keeps_snapSet (q : Nat) (c : QCmd) (restore : Bool) : (snapSet q c restore).Keeps z :=
    by unfold snapSet; exact .parts
@[simp] theorem keeps_snapMapIn (q : Nat) (c : QCmd) (n : Nat) : (snapMapIn q c n).Keeps z := by unfold snapMapIn; exact .parts
@[simp] theorem keeps_snapBuild (q type : Nat) (restore : Bool) (pick : QCmd → Frame → Option Nat → Nat) : (snapBuild q type
    restore pick).Keeps z := by unfold snapBuild; exact .parts
@[simp] theorem keeps_execSnapStart (q : Nat) (s : State) : (execSnapStart q s).Keeps s :=
    by unfold execSnapStart; exact keeps_run' s .parts
@[simp] theorem keeps_execSnapRestore (q : Nat) (s : State) : (execSnapRestore q s).Keeps s :=
    by unfold execSnapRestore; exact keeps_run' s .parts
@[simp] theorem keeps_freeBytes (n : Nat) : (freeBytes n).Keeps z := by unfold freeBytes; exact .parts
@[simp] theorem keeps_execSnapSectorSend (p f k : Nat) (s : State) : (execSnapSectorSend p f k s).Keeps s := keeps_run' s .parts
@[simp] theorem keeps_snapFinish (n : Snap) (code : Nat) : (snapFinish n code).Keeps z :=
    by unfold snapFinish; dsimp only; exact .parts
@[simp] theorem keeps_snapMapOut (n : Snap) : (snapMapOut n).Keeps z := by unfold snapMapOut; exact .parts
@[simp] theorem keeps_execSnapComplete (p : Nat) (s : State) : (execSnapComplete p s).Keeps s := keeps_run' s .parts
@[simp] theorem keeps_snapAnswer (p num va : Nat) (ok : Bool) (data : List Byte) : (snapAnswer p num va ok data).Keeps z :=
    by unfold snapAnswer; dsimp only; exact .parts
@[simp] theorem keeps_execSnapWait (q : Nat) (s : State) : (execSnapWait q s).Keeps s := keeps_run' s .parts
@[simp] theorem keeps_execSnapAbort (q : Nat) (s : State) : (execSnapAbort q s).Keeps s := keeps_run' s .parts
@[simp] theorem keeps_execLogJrnCfgWrite (n : Nat) (base : Bool) (v : Nat) (o : Origin) (s : State) : (execLogJrnCfgWrite n
    base v o s).Keeps s := keeps_run' s .parts
@[simp] theorem keeps_execLogJrnStepWrite (n v : Nat) (o : Origin) (s : State) : (execLogJrnStepWrite n v o s).Keeps s :=
    keeps_run' s (keeps_get_bind fun _ _ => keeps_ite (keeps_plainWrite .parts) .parts)

@[simp] theorem State.leaGo_fused (s : State) (n st : Nat) : (State.leaGo s n st).fused = s.fused := update_fused ..
@[simp] theorem State.leaWake_fused (s : State) (n : Nat) : (State.leaWake s n).fused = s.fused := by unfold State.leaWake; simp
@[simp] theorem State.leaEmit_fused (s : State) (n ftype seq : Nat) (cont : Option Nat) (slots : List Byte) : (State.leaEmit s
    n ftype seq cont slots).fused = s.fused := update_fused ..
@[simp] theorem State.leaCtrl_fused (s : State) (n ctype : Nat) (fields : List Byte) : (State.leaCtrl s n ctype fields).fused =
    s.fused := update_fused ..
@[simp] theorem State.leaRetrain_fused (s : State) (n reason width : Nat) : (State.leaRetrain s n reason width).fused = s.fused
    := by unfold State.leaRetrain; simp
@[simp] theorem State.leaResend_fused (s : State) (n : Nat) : (State.leaResend s n).fused = s.fused :=
    by unfold State.leaResend; simp
@[simp] theorem State.leaAsk_fused (s : State) (n : Nat) : (State.leaAsk s n).fused = s.fused := by unfold State.leaAsk; simp
@[simp] theorem State.leaDiscard_fused (s : State) (n : Nat) : (State.leaDiscard s n).fused = s.fused :=
    by unfold State.leaDiscard; simp
@[simp] theorem State.markSent_fused (s : State) (n : Nat) (m : List Byte) : (State.markSent s n m).fused = s.fused :=
    update_fused ..
@[simp] theorem fillFlit_fused (n fuel room : Nat) (f : Fill) (s : State) : (fillFlit n fuel room f s).2.fused = s.fused := by
  induction fuel generalizing room f s with
  | zero => rfl
  | succ fuel ih =>
    unfold fillFlit
    dsimp only
    split
    · rfl
    · split
      · rw [ih]; simp
      · simp
@[simp] theorem State.leaSlot_fused (s : State) (n : Nat) : (State.leaSlot s n).fused = s.fused := by
  unfold State.leaSlot
  simp only [ite_fused, State.perf_fused, State.setLport_fused, State.leaEmit_fused, apply_ite Prod.snd, fillFlit_fused,
      ite_self]
@[simp] theorem State.leaTick_fused (s : State) : (State.leaTick s).fused = s.fused := by unfold State.leaTick; simp
@[simp] theorem State.leaPlace_fused (s : State) (n : Nat) (e : Nat × List Byte) : (State.leaPlace s n e).fused = s.fused :=
    by unfold State.leaPlace; simp
@[simp] theorem keeps_leaRx {n : Nat} {bad : Nat} {corr : List Nat} {flit : List Byte} {body : Nat → Dev Unit} (h : ∀ t, (body
    t).Keeps z) : (leaRx n bad corr flit body).Keeps z := by unfold leaRx; exact .parts
@[simp] theorem keeps_leaTrailer (n t : Nat) : (leaTrailer n t).Keeps z := by unfold leaTrailer; exact .parts
@[simp] theorem keeps_leaData (n t : Nat) (flit : List Byte) : (leaData n t flit).Keeps z := by unfold leaData; exact .parts
@[simp] theorem keeps_execLeatDataFlit (n bad : Nat) (corr : List Nat) (flit : List Byte) (s : State) : (execLeatDataFlit n bad
    corr flit s).Keeps s := keeps_run' s (keeps_leaRx fun _ => .parts)
@[simp] theorem keeps_execLeatNullFlit (n bad : Nat) (corr : List Nat) (flit : List Byte) (s : State) : (execLeatNullFlit n bad
    corr flit s).Keeps s := keeps_run' s (keeps_leaRx fun _ => .parts)
@[simp] theorem keeps_leaRecord {n : Nat} {bad : Nat} {corr : List Nat} {flit : List Byte} {ctype : Nat} {states : List Nat}
    {body : Dev Unit} (hbody : body.Keeps z) : (leaRecord n bad corr flit ctype states body).Keeps z := by
  refine keeps_leaRx fun t => keeps_get_bind fun s hs => keeps_ite (keeps_ite (keeps_bind ?_ fun _ => hbody) ?_) .parts
  · exact .parts
  · exact hbody
@[simp] theorem keeps_execLeatReplayReq (n bad : Nat) (corr : List Nat) (flit : List Byte) (s : State) : (execLeatReplayReq n
    bad corr flit s).Keeps s := keeps_run' s (keeps_leaRecord .parts)
@[simp] theorem keeps_execLeatReplayReqRepeat (n : Nat) (s : State) : (execLeatReplayReqRepeat n s).Keeps s :=
    by unfold execLeatReplayReqRepeat; split <;> simp
@[simp] theorem keeps_execLeatAckTimeout (n : Nat) (s : State) : (execLeatAckTimeout n s).Keeps s :=
    by simp [execLeatAckTimeout]
@[simp] theorem keeps_peerDone (r : PeerReq) (status : Nat) (data : List Byte) : (peerDone r status data).Keeps z :=
    by unfold peerDone; exact .parts
@[simp] theorem keeps_leaFail (n st : Nat) : (leaFail n st).Keeps z := by unfold leaFail; exact .parts
@[simp] theorem keeps_leaResponse (n kind : Nat) : (leaResponse n kind).Keeps z := by unfold leaResponse; exact .parts
@[simp] theorem keeps_execLeatRdRsp (n : Nat) (s : State) : (execLeatRdRsp n s).Keeps s := keeps_run' s .parts
@[simp] theorem keeps_execLeatWrRsp (n : Nat) (s : State) : (execLeatWrRsp n s).Keeps s := keeps_run' s .parts
@[simp] theorem keeps_execLeatRspTimeout (n tag : Nat) (s : State) : (execLeatRspTimeout n tag s).Keeps s := keeps_run' s .parts
@[simp] theorem keeps_leaServe (n kind : Nat) : (leaServe n kind).Keeps z := by unfold leaServe; exact .parts
@[simp] theorem keeps_execLeatRdReq (n : Nat) (s : State) : (execLeatRdReq n s).Keeps s := keeps_run' s .parts
@[simp] theorem keeps_execLeatWrReq (n : Nat) (s : State) : (execLeatWrReq n s).Keeps s := keeps_run' s .parts
@[simp] theorem keeps_execLeatMgtMsg (n : Nat) (s : State) : (execLeatMgtMsg n s).Keeps s :=
    by unfold execLeatMgtMsg; split <;> simp
@[simp] theorem keeps_execLeaNodeWrite (v : Nat) (o : Origin) (s : State) : (execLeaNodeWrite v o s).Keeps s :=
    keeps_run' s (keeps_lockWrite fun _ => .parts)
@[simp] theorem keeps_execLeaPortCfgWrite (n v : Nat) (o : Origin) (s : State) : (execLeaPortCfgWrite n v o s).Keeps s :=
    keeps_run' s (keeps_get_bind fun _ _ => keeps_ite (keeps_plainWrite .parts) .parts)
@[simp] theorem keeps_execLeaRetrainRequest (n v : Nat) (o : Origin) (s : State) : (execLeaRetrainRequest n v o s).Keeps s :=
    keeps_run' s (keeps_get_bind fun _ _ => keeps_ite (keeps_plainWrite .parts) .parts)
@[simp] theorem keeps_execLeatPartnerDetect (n devid : Nat) (s : State) : (execLeatPartnerDetect n devid s).Keeps s :=
    by simp [execLeatPartnerDetect]
@[simp] theorem State.laneFailed_fused (s : State) (n k : Nat) : (State.laneFailed s n k).fused = s.fused :=
    by unfold State.laneFailed; simp
@[simp] theorem State.leaActivate_fused (s : State) (n : Nat) : (State.leaActivate s n).fused = s.fused :=
    by unfold State.leaActivate; dsimp only; split <;> simp
@[simp] theorem keeps_execLeatTrainingDone (n good pgood : Nat) (s : State) : (execLeatTrainingDone n good pgood s).Keeps s :=
    keeps_run' s .parts
@[simp] theorem keeps_execLeatIdent (n bad : Nat) (corr : List Nat) (flit : List Byte) (s : State) : (execLeatIdent n bad corr
    flit s).Keeps s := keeps_run' s .parts
@[simp] theorem keeps_execLeatFailedRetry (n : Nat) (s : State) : (execLeatFailedRetry n s).Keeps s :=
    by simp [execLeatFailedRetry]
@[simp] theorem keeps_execLeatDisableDrainEnd (n : Nat) (s : State) : (execLeatDisableDrainEnd n s).Keeps s :=
    keeps_run' s .parts
@[simp] theorem State.leaAnswer_fused (s : State) (n width : Nat) : (State.leaAnswer s n width).fused = s.fused :=
    update_fused ..
@[simp] theorem keeps_execLeatTrainReq (n devid width _reason _good : Nat) (s : State) : (execLeatTrainReq n devid width
    _reason _good s).Keeps s := by
  refine keeps_next ?_
  dsimp only
  repeat' split
  all_goals simp
@[simp] theorem keeps_execLeatTrainAck (n devid width _reason _good : Nat) (s : State) : (execLeatTrainAck n devid width
    _reason _good s).Keeps s := by
  refine keeps_next ?_
  split
  · rfl
  · split <;> simp
@[simp] theorem State.leaResume_fused (s : State) (n : Nat) : (State.leaResume s n).fused = s.fused :=
    by unfold State.leaResume; simp
@[simp] theorem keeps_execLeatRetrainDone (n failed pgood : Nat) (s : State) : (execLeatRetrainDone n failed pgood s).Keeps s
    := keeps_run' s .parts
@[simp] theorem keeps_execLeatCreditSync (n bad : Nat) (corr : List Nat) (flit : List Byte) (s : State) : (execLeatCreditSync n
    bad corr flit s).Keeps s := keeps_run' s .parts
@[simp] theorem keeps_execLeatLinkLost (n : Nat) (s : State) : (execLeatLinkLost n s).Keeps s := by simp [execLeatLinkLost]
@[simp] theorem keeps_execLeatLaneLockLoss (n k : Nat) (s : State) : (execLeatLaneLockLoss n k s).Keeps s :=
    by simp [execLeatLaneLockLoss]
@[simp] theorem keeps_execLeatErrorWindow (n : Nat) (spares : List Nat) (s : State) : (execLeatErrorWindow n spares s).Keeps s
    := keeps_run' s .parts
@[simp] theorem keeps_execLeatLaneSwap (n bad : Nat) (corr : List Nat) (flit : List Byte) (s : State) : (execLeatLaneSwap n bad
    corr flit s).Keeps s := keeps_run' s (keeps_leaRecord .parts)
@[simp] theorem keeps_execLeatLaneSwapAck (n bad : Nat) (corr : List Nat) (flit : List Byte) (s : State) : (execLeatLaneSwapAck
    n bad corr flit s).Keeps s := keeps_run' s .parts
@[simp] theorem keeps_execLeatLaneSwapApply (n : Nat) (s : State) : (execLeatLaneSwapApply n s).Keeps s := by
  refine keeps_next ?_
  split
  · rfl
  · split <;> simp
@[simp] theorem State.flWrite_fused (s : State) (off : Nat) (bs : List Byte) : (State.flWrite s off bs).fused = s.fused :=
    update_fused ..
@[simp] theorem State.putHdr_fused (s : State) (active next bootno : Nat) : (State.putHdr s active next bootno).fused = s.fused
    := update_fused ..
@[simp] theorem State.noteEvent_fused (s : State) (type origin target value : Nat) : (State.noteEvent s type origin target
    value).fused = s.fused := update_fused ..
@[simp] theorem State.stage_fused (s : State) (n : Nat) : (State.stage s n).fused = s.fused := update_fused ..
@[simp] theorem State.pfIrq_fused (s : State) (vector : Nat) : (State.pfIrq s vector).fused = s.fused :=
    by unfold State.pfIrq; simp
@[simp] theorem State.setFault_fused (s : State) (b : Bool) : (State.setFault s b).fused = s.fused :=
    by unfold State.setFault; simp
@[simp] theorem State.recover_fused (s : State) (c : Nat × Nat × Nat × Nat × Nat) : (State.recover s c).fused = s.fused :=
    by unfold State.recover; simp
@[simp] theorem State.selectBank_fused (s : State) : s.selectBank.1.fused = s.fused :=
    by unfold State.selectBank; dsimp only; (repeat' split) <;> simp
@[simp] theorem State.checkLicences_fused (s : State) : (State.checkLicences s).fused = s.fused :=
    by unfold State.checkLicences; simp
@[simp] theorem State.takeNode_fused (s : State) : (State.takeNode s).fused = s.fused :=
    by unfold State.takeNode; split <;> simp
@[simp] theorem State.assignSites_fused (s : State) (fails dead : Nat) : (State.assignSites s fails dead).fused = s.fused :=
    by unfold State.assignSites; simp
@[simp] theorem State.capChange_fused (s : State) : (State.capChange s).fused = s.fused := update_fused ..
@[simp] theorem State.reservice_fused (s : State) : (State.reservice s).fused = s.fused := by unfold State.reservice; simp
@[simp] theorem keeps_loadRemaps : (loadRemaps ).Keeps z := by unfold loadRemaps; exact .parts
@[simp] theorem keeps_qualifyStacks (b : Findings) : (qualifyStacks b).Keeps z := by unfold qualifyStacks; exact .parts
@[simp] theorem State.qualifyBoards_fused (s : State) (b : Findings) : (State.qualifyBoards s b).fused = s.fused :=
    by unfold State.qualifyBoards; simp
@[simp] theorem keeps_checkImages (bank : Nat) : (checkImages bank).Keeps z := by unfold checkImages; exact .parts
@[simp] theorem State.exposeTiles_fused (s : State) : (State.exposeTiles s).fused = s.fused := update_fused ..
@[simp] theorem keeps_finishStart (b : Findings) : (finishStart b).Keeps z := by unfold finishStart; exact .parts
@[simp] theorem keeps_commonStart (b : Findings) : (commonStart b).Keeps z := by unfold commonStart; exact .parts
@[simp] theorem keeps_coldStart (b : Findings) : (coldStart b).Keeps z := by unfold coldStart; dsimp only; exact .parts
@[simp] theorem State.cleared_fused (s : State) : (State.cleared s).fused = s.fused :=
    by unfold State.cleared; simp only [State.fused]
@[simp] theorem keeps_execColdResetRelease (b : Findings) (s : State) : (execColdResetRelease b s).Keeps s :=
    keeps_run' s .parts
@[simp] theorem State.coldReset_fused (s : State) : (State.coldReset s).fused = s.fused := by
  unfold State.coldReset
  simp only [State.setFault_fused, update_fused, ite_fused, State.emit_fused, State.cleared_fused, ite_self]
@[simp] theorem keeps_execColdResetAssert (us : Nat) (s : State) : (execColdResetAssert us s).Keeps s :=
    by simp [execColdResetAssert]
@[simp] theorem keeps_execStandbyPowerUp (strap : Nat) (s : State) : (execStandbyPowerUp strap s).Keeps s := by
  refine keeps_next ?_
  split
  · rfl
  · exact (update_fused ..).trans (State.cleared_fused s)
@[simp] theorem keeps_execPwrgdAssert (s : State) : (execPwrgdAssert s).Keeps s := by simp [execPwrgdAssert]
@[simp] theorem keeps_execPwrgdLoss (us : Nat) (s : State) : (execPwrgdLoss us s).Keeps s := by simp [execPwrgdLoss]
@[simp] theorem State.warmCleared_fused (s : State) : (State.warmCleared s).fused = s.fused :=
    (update_fused ..).trans (State.cleared_fused s)
@[simp] theorem keeps_warmStart (b : Findings) : (warmStart b).Keeps z := by unfold warmStart; exact .parts
@[simp] theorem keeps_execWarmRestart (v : Option Nat) (us : Nat) (o : Origin) (b : Findings) (s : State) : (execWarmRestart v
    us o b s).Keeps s := keeps_run' s .parts
@[simp] theorem keeps_fwStart (op len : Nat) (o : Origin) : (fwStart op len o).Keeps z :=
    keeps_get_bind fun _ _ => keeps_regWrite .parts
@[simp] theorem keeps_execFwBegin (len : Nat) (o : Origin) (s : State) : (execFwBegin len o s).Keeps s := keeps_run' s .parts
@[simp] theorem keeps_execFwChunk (len : Nat) (o : Origin) (s : State) : (execFwChunk len o s).Keeps s := keeps_run' s .parts
@[simp] theorem keeps_execFwCommit (len : Nat) (o : Origin) (s : State) : (execFwCommit len o s).Keeps s := keeps_run' s .parts
@[simp] theorem keeps_execFwAbort (len : Nat) (o : Origin) (s : State) : (execFwAbort len o s).Keeps s := keeps_run' s .parts
@[simp] theorem keeps_execLicAdd (len : Nat) (o : Origin) (s : State) : (execLicAdd len o s).Keeps s := keeps_run' s .parts
@[simp] theorem keeps_execDefectClear (len : Nat) (o : Origin) (s : State) : (execDefectClear len o s).Keeps s :=
    keeps_run' s .parts
@[simp] theorem keeps_execFwRead (len : Nat) (o : Origin) (s : State) : (execFwRead len o s).Keeps s := keeps_run' s .parts
@[simp] theorem State.putWin_fused (s : State) (bs : List Byte) : (State.putWin s bs).fused = s.fused :=
    by unfold State.putWin; simp
@[simp] theorem State.addLicence_fused {s s1 : State} {r : List Byte} (h : s.addLicence r = some s1) : s1.fused = s.fused := by
  unfold State.addLicence at h
  dsimp only at h
  split at h
  · cases h
  · cases h; exact State.flWrite_fused _ _ _
@[simp] theorem State.fwOp_fused (s : State) (op len : Nat) (flashOk : Bool) : (s.fwOp op len flashOk).1.fused = s.fused := by
  unfold State.fwOp
  extract_lets ended
  have kept : ∀ s, (ended s).fused = s.fused := fun s => update_fused ..
  clear_value ended
  refine fst_ite_fused (fun _ => fst_ite_fused (fun _ => rfl) fun _ => fst_ite_fused (fun _ => rfl) fun _ => fst_ite_fused (fun
      _ => rfl) fun _ => ?_) fun _ => ?_
  · exact (update_fused ..).trans ((ite_fused _ _).trans (by simp))
  refine fst_ite_fused (fun _ => ?_) fun _ => ?_
  · split
    · rfl
    · exact fst_ite_fused (fun _ => rfl) fun _ => fst_ite_fused (fun _ => rfl) fun _ => (update_fused ..).trans
        (State.flWrite_fused _ _ _)
  refine fst_ite_fused (fun _ => fst_ite_fused (fun _ => kept s) fun _ => ?_) fun _ => ?_
  · split
    · exact kept s
    · exact fst_ite_fused (fun _ => kept s) fun _ => (update_fused ..).trans ((kept _).trans (State.putHdr_fused _ _ _ _))
  refine fst_ite_fused (fun _ => kept s) fun _ => fst_ite_fused (fun _ => fst_ite_fused (fun _ => rfl) fun _ => fst_ite_fused
      (fun _ => rfl) fun _ => ?_) fun _ => ?_
  · split
    · rfl
    · split
      · exact State.addLicence_fused ‹_›
      · exact Eq.refl s.fused
  refine fst_ite_fused (fun _ => fst_ite_fused (fun _ => rfl) fun _ => ?_) fun _ => fst_ite_fused (fun _ => ?_) fun _ => rfl
  · split
    · rfl
    · exact fst_ite_fused (fun _ => rfl) fun _ => fst_ite_fused (fun _ => rfl) fun _ => update_fused ..
  · cases flashOk
    · exact Eq.refl s.fused
    · simp only [if_true, State.putWin_fused]
@[simp] theorem keeps_execFwOpComplete (flashOk : Bool) (s : State) : (execFwOpComplete flashOk s).Keeps s :=
    by unfold execFwOpComplete; split <;> simp
@[simp] theorem State.modSpk_fused (s : State) (k : SpkKey) (f : SpkOp → SpkOp) : (State.modSpk s k f).fused = s.fused :=
    by unfold State.modSpk; simp
@[simp] theorem keeps_spkWrite (k : SpkKey) (i status present : Nat) (vals : List Nat) : (spkWrite k i status present
    vals).Keeps z := by unfold spkWrite; exact .parts
@[simp] theorem keeps_spkDown (k : SpkKey) (c : SlcComm) (o : SpkOp) (top present : Nat) (vals : List Nat) : (spkDown k c o top
    present vals).Keeps z := by unfold spkDown; exact .parts
@[simp] theorem keeps_spkResult (k : SpkKey) (c : SlcComm) (top present : Nat) (vals : List Nat) : (spkResult k c top present
    vals).Keeps z := by unfold spkResult; exact .parts
@[simp] theorem keeps_spkStep (k : SpkKey) (force : Bool) : (spkStep k force).Keeps z := by unfold spkStep; exact .parts
@[simp] theorem keeps_execSpkPost (t : Nat) (w : IWord) (x : W64) (s : State) : (execSpkPost t w x s).Keeps s :=
    keeps_fnInstr (keeps_deviceInstr fun _ _ _ => inDev_fused .parts)
@[simp] theorem keeps_execSpkWait (t : Nat) (w : IWord) (x : W64) (s : State) : (execSpkWait t w x s).Keeps s := by
  refine keeps_fnInstr (keeps_deviceInstr fun s tl kx => ?_)
  dsimp only
  split
  · rfl
  · split <;> simp
@[simp] theorem keeps_execSprinkleMessageReceive (msg : List Byte) (s : State) : (execSprinkleMessageReceive msg s).Keeps s :=
    keeps_run' s .parts
@[simp] theorem keeps_execSpkLeaderTimeout (comm slot epoch : Nat) (s : State) : (execSpkLeaderTimeout comm slot epoch s).Keeps
    s := keeps_run' s .parts
@[simp] theorem keeps_execSpkMemberTimeout (t comm slot epoch : Nat) (s : State) : (execSpkMemberTimeout t comm slot epoch
    s).Keeps s := keeps_run' s .parts
@[simp] theorem State.spkCancel_fused (s : State) (t : Nat) : (State.spkCancel s t).fused = s.fused := update_fused ..
@[simp] theorem keeps_execSeqCtxCfgWrite (t c v : Nat) (o : Origin) (s : State) : (execSeqCtxCfgWrite t c v o s).Keeps s :=
    keeps_run' s .parts
@[simp] theorem keeps_execTilCtxAsWrite (t v : Nat) (o : Origin) (s : State) : (execTilCtxAsWrite t v o s).Keeps s :=
    keeps_run' s .parts
@[simp] theorem reserveAll_fused {s s1 : State} {c mask handle : Nat} {d code : List Byte} {ts : List Nat} (h : reserveAll s c
    mask handle d code ts = .ok s1) : s1.fused = s.fused := by
  induction ts generalizing s with
  | nil => cases h; rfl
  | cons t ts ih =>
    unfold reserveAll at h
    split at h
    · cases h
    · exact (ih h).trans (State.setTile_fused ..)
@[simp] theorem keeps_loadKernel (q c mask image : Nat) (ext : Option (List Byte)) : (loadKernel q c mask image ext).Keeps z :=
    by
  unfold loadKernel
  refine keeps_get_bind fun s hs => keeps_bind (keeps_vaRead _ _ _ _ _) fun image => ?_
  split
  · exact keeps_pure _
  refine keeps_ite (keeps_pure _) (keeps_ite (keeps_pure _) ?_)
  split
  · exact keeps_pure _
  refine keeps_ite (keeps_pure _) ?_
  split
  · exact keeps_pure _
  refine keeps_bind (keeps_vaRead _ _ _ _ _) fun code => ?_
  split
  · exact keeps_pure _
  dsimp only
  split
  · exact keeps_pure _
  refine keeps_ite (keeps_pure _) (keeps_ite (keeps_pure _) (keeps_get_bind fun s hs => ?_))
  split
  · exact keeps_pure _
  next reserved =>
    exact keeps_bind (keeps_upd fun _ _ => (update_fused ..).trans ((reserveAll_fused reserved).trans hs)) fun _ => keeps_pure _
@[simp] theorem keeps_execLoad (q : Nat) (ext : Option (List Byte)) (s : State) : (execLoad q ext s).Keeps s :=
    keeps_run' s .parts
@[simp] theorem keeps_execUnload (q : Nat) (s : State) : (execUnload q s).Keeps s := keeps_run' s .parts
@[simp] theorem keeps_execLaunch (q : Nat) (s : State) : (execLaunch q s).Keeps s := keeps_run' s .parts
@[simp] theorem State.setLaunch_fused (s : State) (l : Launch) : (State.setLaunch s l).fused = s.fused := update_fused ..
@[simp] theorem keeps_readArgs (l : Launch) (t : Nat) (ext : Option (List Byte)) : (readArgs l t ext).Keeps z :=
    by unfold readArgs; exact .parts
@[simp] theorem keeps_endUnstarted (l : Launch) (code failTile : Nat) : (endUnstarted l code failTile).Keeps z :=
    by unfold endUnstarted; exact .parts
@[simp] theorem keeps_execLaunchStart (id : Nat) (ext : Option (List Byte)) (s : State) : (execLaunchStart id ext s).Keeps s :=
    keeps_run' s .parts
@[simp] theorem keeps_launchEnd (l : Launch) : (launchEnd l).Keeps z := by
  unfold launchEnd
  refine keeps_get_bind fun s hs => ?_
  dsimp only
  refine keeps_ite (keeps_bind .parts fun _ => keeps_bind (keeps_upd fun s hs => ?_) fun _ => .parts)
    (keeps_bind (keeps_upd fun s hs => ?_) fun _ => .parts)
  all_goals
  refine (foldl_fused fun s t => ?_).trans hs
  simp only [ite_fused, State.spkCancel_fused, State.setTile_fused, ite_self]
  split <;> simp
@[simp] theorem keeps_execLaunchComplete (id : Nat) (s : State) : (execLaunchComplete id s).Keeps s := keeps_run' s .parts
@[simp] theorem keeps_execWatchdogExpiry (id : Nat) (s : State) : (execWatchdogExpiry id s).Keeps s := by
  refine keeps_next ?_
  split
  · rfl
  · rw [ite_fused, foldl_fused fun s t => ?_, ite_self]
    dsimp only
    split <;> simp
@[simp] theorem keeps_execCtxSwitch (q : Nat) (s : State) : (execCtxSwitch q s).Keeps s := keeps_run' s .parts
@[simp] theorem keeps_switchDone (c : CtxCmd) (t : Nat) : (switchDone c t).Keeps z := by unfold switchDone; exact .parts
@[simp] theorem keeps_execCtxSwitchEffect (t : Nat) (s : State) : (execCtxSwitchEffect t s).Keeps s := keeps_run' s .parts
@[simp] theorem keeps_execCtxSwitchFinish (t : Nat) (s : State) : (execCtxSwitchFinish t s).Keeps s := keeps_run' s .parts
@[simp] theorem keeps_execHookTimeout (t : Nat) (s : State) : (execHookTimeout t s).Keeps s := by
  refine keeps_next ?_
  split
  · rfl
  · rw [ite_fused, State.setTile_fused, ite_self]

@[simp] theorem keeps_dbErr (p : Nat) : (dbErr p).Keeps z := by unfold dbErr; exact .parts
@[simp] theorem keeps_execPcieBar0Read (p f va len : Nat) (s : State) : (execPcieBar0Read p f va len s).Keeps s :=
    keeps_run' s .parts
@[simp] theorem keeps_execPcieBar0Write (p f va : Nat) (data : List Byte) (s : State) : (execPcieBar0Write p f va data s).Keeps
    s := keeps_run' s .parts
@[simp] theorem keeps_execPcieFlr (p f : Nat) (s : State) : (execPcieFlr p f s).Keeps s := by simp [execPcieFlr]
@[simp] theorem keeps_execPcieLinkDown (p : Nat) (lost : Bool) (s : State) : (execPcieLinkDown p lost s).Keeps s :=
    by simp [execPcieLinkDown]
@[simp] theorem keeps_hflushDone (t : Nat) : (hflushDone t).Keeps z := by unfold hflushDone; exact .parts
@[simp] theorem keeps_hostReadEnd (tag : Nat) (ok : Bool) (data : List Byte) : (hostReadEnd tag ok data).Keeps z :=
    by unfold hostReadEnd; exact .parts
@[simp] theorem keeps_execHostReadCompletion (tag : Nat) (ok : Bool) (data : List Byte) (s : State) : (execHostReadCompletion
    tag ok data s).Keeps s := keeps_run' s .parts
@[simp] theorem keeps_execHostReadTimeout (tag : Nat) (s : State) : (execHostReadTimeout tag s).Keeps s := keeps_run' s .parts
@[simp] theorem keeps_execHflush (t : Nat) (w : IWord) (s : State) : (execHflush t w s).Keeps s :=
    keeps_deviceInstr fun s tl kx => by
  refine fst_ite_fused (fun _ => rfl) fun _ => fst_ite_fused (fun _ => rfl) fun _ => fst_ite_fused (fun _ => rfl) fun _ =>
      inDev_fused ?_
  exact keeps_get_bind fun s hs => keeps_bind (keeps_forAll fun p => .parts) fun _ => .parts
@[simp] theorem keeps_execHflushReadReturn (tag : Nat) (s : State) : (execHflushReadReturn tag s).Keeps s := keeps_run' s .parts
@[simp] theorem keeps_execQueueDoorbell (q v p f : Nat) (s : State) : (execQueueDoorbell q v p f s).Keeps s :=
    keeps_run' s .parts
@[simp] theorem keeps_execQueueCommandFetch (q : Nat) (ext : Option (List Byte)) (s : State) : (execQueueCommandFetch q ext
    s).Keeps s := keeps_run' s .parts
@[simp] theorem keeps_execQueueIrqTimer (q : Nat) (s : State) : (execQueueIrqTimer q s).Keeps s := by simp [execQueueIrqTimer]
@[simp] theorem keeps_execHifQCfgWrite (q k v : Nat) (o : Origin) (s : State) : (execHifQCfgWrite q k v o s).Keeps s :=
    keeps_run' s <| keeps_get_bind fun s hs => keeps_ite (keeps_regWrite .parts) (keeps_pure _)
@[simp] theorem keeps_execHifCconsWrite (q v : Nat) (o : Origin) (s : State) : (execHifCconsWrite q v o s).Keeps s :=
    keeps_run' s <| keeps_get_bind fun s hs => keeps_ite (keeps_plainWrite .parts) (keeps_pure _)
@[simp] theorem keeps_execHifFnCfgWrite (p f v : Nat) (o : Origin) (s : State) : (execHifFnCfgWrite p f v o s).Keeps s :=
    keeps_run' s .parts
@[simp] theorem keeps_execMbxInboundWrite (p f m off : Nat) (data : List Byte) (s : State) : (execMbxInboundWrite p f m off
    data s).Keeps s := keeps_run' s .parts
@[simp] theorem keeps_execMbxRecv (t : Nat) (w : IWord) (s : State) : (execMbxRecv t w s).Keeps s :=
    keeps_fnInstr <| keeps_deviceInstr fun s tl kx => by
  refine fst_ite_fused (fun _ => rfl) fun _ => fst_ite_fused (fun _ => rfl) fun _ => ?_
  split
  · rfl
  · exact inDev_fused (keeps_bind (keeps_upd fun _ _ => by simp [*]) fun _ => .parts)
@[simp] theorem keeps_execMbxSend (t : Nat) (w : IWord) (s : State) : (execMbxSend t w s).Keeps s :=
    keeps_fnInstr keeps_tileInstr
@[simp] theorem keeps_execMbxCount (t : Nat) (w : IWord) (s : State) : (execMbxCount t w s).Keeps s :=
    keeps_fnInstr keeps_tileInstr
@[simp] theorem keeps_execMbxOutboundDeliver (t k : Nat) (s : State) : (execMbxOutboundDeliver t k s).Keeps s :=
    keeps_run' s .parts
@[simp] theorem keeps_execMbxConsumedWrite (p f m v : Nat) (s : State) : (execMbxConsumedWrite p f m v s).Keeps s :=
    keeps_run' s .parts
@[simp] theorem keeps_execMbxCfgWrite (t k : Nat) (out : Bool) (v : Nat) (o : Origin) (s : State) : (execMbxCfgWrite t k out v
    o s).Keeps s := keeps_run' s .parts
@[simp] theorem keeps_kvAcc {α : Type} {m : Dev (Acc α)} (hm : m.Keeps z) : (kvAcc m).Keeps z := by unfold kvAcc; exact .parts
@[simp] theorem keeps_kvGet (v : View) (va n : Nat) : (kvGet v va n).Keeps z := by unfold kvGet; exact .parts
@[simp] theorem keeps_kvPut (v : View) (va : Nat) (bs : List Byte) : (kvPut v va bs).Keeps z := by unfold kvPut; exact .parts
@[simp] theorem keeps_kvSetSeq (v : View) (n q : Nat) (e : KvSeq) : (kvSetSeq v n q e).Keeps z :=
    by unfold kvSetSeq; exact .parts
@[simp] theorem keeps_kvCounts (n inUse reserved : Nat) : (kvCounts n inUse reserved).Keeps z :=
    by unfold kvCounts; exact .parts
@[simp] theorem keeps_kvCheck (part n q : Nat) (wantOpen : Bool) : (kvCheck part n q wantOpen).Keeps z :=
    by unfold kvCheck; exact .parts
@[simp] theorem keeps_kvCommand {q : Nat} {type : Nat} {body : QCmd → View → Nat → Nat → Dev Nat} (h : ∀ c v n m, (body c v n
    m).Keeps z) : (kvCommand q type body).Keeps z := by unfold kvCommand; exact .parts
@[simp] theorem keeps_execKvOpen (q : Nat) (s : State) : (execKvOpen q s).Keeps s :=
    keeps_run' s <| keeps_kvCommand fun c v n sq => .parts
@[simp] theorem keeps_execKvReserve (q : Nat) (s : State) : (execKvReserve q s).Keeps s :=
    keeps_run' s <| keeps_kvCommand fun c v n sq => .parts
@[simp] theorem keeps_execKvUnreserve (q : Nat) (s : State) : (execKvUnreserve q s).Keeps s :=
    keeps_run' s <| keeps_kvCommand fun c v n sq => .parts
@[simp] theorem keeps_execKvClose (q : Nat) (s : State) : (execKvClose q s).Keeps s :=
    keeps_run' s <| keeps_kvCommand fun c v n sq => .parts
@[simp] theorem keeps_kvBound (kx : Kx) (w : IWord) (q : Nat) : (kvBound kx w q).Keeps z := by unfold kvBound; exact .parts
@[simp] theorem keeps_kvEstimate (v : View) (n page valid flags : Nat) : (kvEstimate v n page valid flags).Keeps z :=
    by unfold kvEstimate; exact .parts
@[simp] theorem keeps_kvPageFor (v : View) (n sq layer lp slot : Nat) : (kvPageFor v n sq layer lp slot).Keeps z :=
    by unfold kvPageFor; exact .parts
@[simp] theorem keeps_kvRows (v : View) (body side slot base sbase : Nat) (rows : List (List Ext)) : (kvRows v body side slot
    base sbase rows).Keeps z := by unfold kvRows; exact .parts
@[simp] theorem keeps_kvToken (v : View) (n sq layer nsk pos : Nat) (bytes : List Byte) : (kvToken v n sq layer nsk pos
    bytes).Keeps z := by unfold kvToken; exact .parts
@[simp] theorem keeps_kvwToken (t c : Nat) (v : View) (n sq layer nsk pos0 per : Nat) (bytes : List Byte) (i : Nat) : (kvwToken
    t c v n sq layer nsk pos0 per bytes i).Keeps z := by unfold kvwToken; exact .parts
@[simp] theorem keeps_execKvw (t : Nat) (w : IWord) (x : W64) (s : State) : (execKvw t w x s).Keeps s :=
    keeps_deviceInstr fun _ _ _ => inDev_fused .parts
@[simp] theorem keeps_kvtEntry (v : View) (n sq layer lp : Nat) : (kvtEntry v n sq layer lp).Keeps z :=
    by unfold kvtEntry; exact .parts
@[simp] theorem keeps_execKvt (t : Nat) (w : IWord) (x : W64) (s : State) : (execKvt t w x s).Keeps s :=
    keeps_deviceInstr fun _ _ _ => inDev_fused .parts
@[simp] theorem keeps_execKvpPoolCfgWrite (n i v : Nat) (o : Origin) (s : State) : (execKvpPoolCfgWrite n i v o s).Keeps s :=
    keeps_run' s <| keeps_regWrite .parts
@[simp] theorem State.reclock_fused (s : State) : (State.reclock s).fused = s.fused := by unfold State.reclock; simp
@[simp] theorem State.setPower_fused (s : State) (f : Power → Power) : (State.setPower s f).fused = s.fused :=
    by unfold State.setPower; simp
@[simp] theorem keeps_execPowerPeriodUpdate (now : Nat) (s : State) : (execPowerPeriodUpdate now s).Keeps s :=
    by simp [execPowerPeriodUpdate]
@[simp] theorem keeps_execClampTrigger (samples : List Nat) (s : State) : (execClampTrigger samples s).Keeps s :=
    by simp [execClampTrigger]
@[simp] theorem keeps_execPowerBrakeAssert (us : Nat) (s : State) : (execPowerBrakeAssert us s).Keeps s :=
    by simp [execPowerBrakeAssert]
@[simp] theorem keeps_execPowerBrakeRelease (us : Nat) (s : State) : (execPowerBrakeRelease us s).Keeps s :=
    by simp [execPowerBrakeRelease]
@[simp] theorem keeps_execMonitorCalibration (s : State) : (execMonitorCalibration s).Keeps s :=
    by simp [execMonitorCalibration]
@[simp] theorem keeps_thmPwrWrite (v : Nat) (o : Origin) : (thmPwrWrite v o).Keeps z := by unfold thmPwrWrite; exact .parts
@[simp] theorem keeps_execThmPwrCfgWrite (v : Nat) (o : Origin) (s : State) : (execThmPwrCfgWrite v o s).Keeps s :=
    keeps_run' s .parts
@[simp] theorem State.watchCool_fused (s : State) : (State.watchCool s).fused = s.fused := update_fused ..
@[simp] theorem State.protect_fused (s : State) : (State.protect s).fused = s.fused := by unfold State.protect; simp
@[simp] theorem State.thermTrip_fused (s : State) (where_ : Nat) : (State.thermTrip s where_).fused = s.fused :=
    by unfold State.thermTrip; simp
@[simp] theorem keeps_execDieTempRead (i tj : Nat) (s : State) : (execDieTempRead i tj s).Keeps s := by simp [execDieTempRead]
@[simp] theorem keeps_execDieTempCeilingUpdate (d : Nat) (s : State) : (execDieTempCeilingUpdate d s).Keeps s :=
    by simp [execDieTempCeilingUpdate]
@[simp] theorem keeps_execStackTempRead (site temp : Nat) (s : State) : (execStackTempRead site temp s).Keeps s :=
    by simp [execStackTempRead]
@[simp] theorem keeps_execProtectionEnd (s : State) : (execProtectionEnd s).Keeps s :=
    by unfold execProtectionEnd; split <;> simp
@[simp] theorem keeps_execSmbusAlertResponse (s : State) : (execSmbusAlertResponse s).Keeps s :=
    by simp [execSmbusAlertResponse]
@[simp] theorem keeps_execPpsPulse (s : State) : (execPpsPulse s).Keeps s := by simp [execPpsPulse]
@[simp] theorem keeps_execHgtPartCfgWrite (n v : Nat) (o : Origin) (s : State) : (execHgtPartCfgWrite n v o s).Keeps s :=
    keeps_run' s .parts
@[simp] theorem keeps_execHgtPartTilesWrite (n v : Nat) (o : Origin) (s : State) : (execHgtPartTilesWrite n v o s).Keeps s :=
    keeps_run' s .parts
@[simp] theorem keeps_execHgtGranuleWrite (board : Bool) (g v : Nat) (o : Origin) (s : State) : (execHgtGranuleWrite board g v
    o s).Keeps s := keeps_run' s .parts
@[simp] theorem keeps_execGranuleChangeDone (s : State) : (execGranuleChangeDone s).Keeps s := by simp [execGranuleChangeDone]
@[simp] theorem keeps_execHgtFrzRel (v : Nat) (o : Origin) (s : State) : (execHgtFrzRel v o s).Keeps s :=
    keeps_run' s <| keeps_get_bind fun s hs => keeps_regWrite .parts
@[simp] theorem State.shareEnd_fused (s : State) (code done : Nat) : (State.shareEnd s code done).fused = s.fused :=
    update_fused ..
@[simp] theorem keeps_execShare (v : Nat) (o : Origin) (s : State) : (execShare v o s).Keeps s :=
    keeps_run' s <| keeps_regWrite <| keeps_bind .parts fun _ => keeps_upd fun s hs => by
  simp only [ite_fused]
  simp [*]
@[simp] theorem keeps_execUnshare (v : Nat) (o : Origin) (s : State) : (execUnshare v o s).Keeps s :=
    keeps_run' s <| keeps_regWrite <| keeps_bind .parts fun _ => keeps_upd fun s hs => by
  dsimp only
  simp [*]
@[simp] theorem State.rehome_fused (s : State) (f : Nat) : (State.rehome s f).fused = s.fused := by unfold State.rehome; simp
@[simp] theorem keeps_execMemoryChannelLoss (board : Bool) (k : Nat) (s : State) : (execMemoryChannelLoss board k s).Keeps s :=
    keeps_run' s .parts
@[simp] theorem keeps_jrnSpoil (who : Master) (p step : Nat) : (jrnSpoil who p step).Keeps z := by unfold jrnSpoil; exact .parts
@[simp] theorem State.faultTile_fused (s : State) (t : Nat) : (State.faultTile s t).fused = s.fused :=
    by unfold State.faultTile; split <;> simp
@[simp] theorem keeps_stopGroup (l : Launch) : (stopGroup l).Keeps z := by unfold stopGroup; exact .parts
@[simp] theorem keeps_execTileFault (t : Nat) (spareOk : Bool) (lost : List Nat) (s : State) : (execTileFault t spareOk lost
    s).Keeps s := keeps_run' s .parts
@[simp] theorem keeps_execDitchriderTakeover (failed : Option Nat) (s : State) : (execDitchriderTakeover failed s).Keeps s :=
    by simp [execDitchriderTakeover]
@[simp] theorem keeps_execLogAckWrite (v : Nat) (o : Origin) (s : State) : (execLogAckWrite v o s).Keeps s :=
    keeps_run' s .parts
@[simp] theorem keeps_execLogCfgWrite (v : Nat) (o : Origin) (s : State) : (execLogCfgWrite v o s).Keeps s :=
    keeps_run' s .parts
@[simp] theorem keeps_execPerfWrapService (off : Nat) (s : State) : (execPerfWrapService off s).Keeps s :=
    by simp [execPerfWrapService]
@[simp] theorem keeps_execHifMrDoorbell (r v : Nat) (o : Origin) (s : State) : (execHifMrDoorbell r v o s).Keeps s :=
    keeps_run' s <| keeps_get_bind fun s hs => keeps_ite (keeps_regWrite .parts) (keeps_pure _)
@[simp] theorem State.closeRing_fused (s : State) (r : Nat) : (State.closeRing s r).fused = s.fused :=
    by unfold State.closeRing; simp
@[simp] theorem keeps_execHifMrCfgWrite (r k v : Nat) (o : Origin) (s : State) : (execHifMrCfgWrite r k v o s).Keeps s :=
    keeps_run' s <| keeps_get_bind fun s hs => keeps_ite (keeps_regWrite .parts) (keeps_pure _)
@[simp] theorem keeps_execMediaJobFetch (r : Nat) (ext : Option (List Byte)) (s : State) : (execMediaJobFetch r ext s).Keeps s
    := keeps_run' s .parts
@[simp] theorem State.setSession_fused (s : State) (x : Sess) : (State.setSession s x).fused = s.fused := update_fused ..
@[simp] theorem State.failSession_fused (s : State) (num : Nat) : (State.failSession s num).fused = s.fused := update_fused ..
@[simp] theorem keeps_medRead (x : Sess) (va n : Nat) (ext : Option (List Byte)) : (medRead x va n ext).Keeps z :=
    by unfold medRead; exact .parts
@[simp] theorem keeps_medWrite (x : Sess) (va : Nat) (bs : List Byte) : (medWrite x va bs).Keeps z :=
    by unfold medWrite; exact .parts
@[simp] theorem keeps_medJob {r : Nat} {i : Nat} {type : Nat} {body : MedJob → Dev MedRes} (h : ∀ j, (body j).Keeps z) :
    (medJob r i type body).Keeps z := by unfold medJob; exact .parts
@[simp] theorem keeps_medSession (j : MedJob) (dir : Option Nat) : (medSession j dir).Keeps z :=
    by unfold medSession; exact .parts
@[simp] theorem keeps_execMedOpen (r i : Nat) (s : State) : (execMedOpen r i s).Keeps s :=
    keeps_run' s <| keeps_medJob fun j => .parts
@[simp] theorem keeps_execMedClose (r i : Nat) (s : State) : (execMedClose r i s).Keeps s :=
    keeps_run' s <| keeps_medJob fun j => .parts
@[simp] theorem keeps_medPlanes (x : Sess) (j : MedJob) (pr : List Byte) (g : MedFrame) (k : Nat) : (medPlanes x j pr g
    k).Keeps z := by unfold medPlanes; exact .parts
@[simp] theorem keeps_medChannel (x : Sess) (j : MedJob) (d : TD) (g : MedFrame) (c m : Nat) : (medChannel x j d g c m).Keeps z
    := by unfold medChannel; exact .parts
@[simp] theorem keeps_execMedDecode (r i : Nat) (us : List MedUnit) (tail : List MedFrame) (bs : Option (List Byte)) (rec_ :
    Option (List Byte)) (s : State) : (execMedDecode r i us tail bs rec_ s).Keeps s :=
    keeps_run' s <| keeps_medJob fun j => .parts
@[simp] theorem keeps_putSlice (x : Sess) (j : MedJob) (cons : Nat) (e : Slice) : (putSlice x j cons e).Keeps z :=
    by unfold putSlice; exact .parts
@[simp] theorem keeps_putSlices (j : MedJob) (cons base total : Nat) (rap : Bool) (x : Sess) (x6 : List Nat) (x7 : Nat) (x8 :
    Bool) : (putSlices j cons base total rap x x6 x7 x8).Keeps z := by
  induction x6 generalizing x x7 x8 with
  | nil => exact keeps_pure _
  | cons n ns ih =>
    unfold putSlices
    refine keeps_bind .parts fun a => ?_
    obtain ⟨y, _ | _⟩ := a
    · exact keeps_pure _
    · exact ih _ _ _
@[simp] theorem keeps_medFrameOut (j : MedJob) (cons : Nat) (st : MedEnc) (c : MedCode) : (medFrameOut j cons st c).Keeps z :=
    by unfold medFrameOut; exact .parts
@[simp] theorem keeps_medFrames (j : MedJob) (cons : Nat) (st : MedEnc) (x3 : List MedCode) : (medFrames j cons st x3).Keeps z
    := by
  induction x3 generalizing st with
  | nil => exact keeps_pure _
  | cons c cs ih => exact keeps_bind .parts fun st => ih st
@[simp] theorem keeps_medInput (x : Sess) (j : MedJob) (rec_ : Option (List Byte)) (pix : Option (List Byte)) : (medInput x j
    rec_ pix).Keeps z := by unfold medInput; exact .parts
@[simp] theorem keeps_execMedEncode (r i : Nat) (cs : List MedCode) (rec_ : Option (List Byte)) (pix : Option (List Byte))
    (cons : Option (List Byte)) (s : State) : (execMedEncode r i cs rec_ pix cons s).Keeps s :=
    keeps_run' s <| keeps_medJob fun j => .parts
@[simp] theorem keeps_execSliceFallbackEntry (num : Nat) (cons : Option (List Byte)) (s : State) : (execSliceFallbackEntry num
    cons s).Keeps s := keeps_run' s .parts
@[simp] theorem keeps_execMedJobComplete (r i : Nat) (s : State) : (execMedJobComplete r i s).Keeps s := keeps_run' s .parts
@[simp] theorem keeps_execMedEngineFault (d eng : Nat) (die : Bool) (s : State) : (execMedEngineFault d eng die s).Keeps s :=
    by simp [execMedEngineFault]
@[simp] theorem keeps_execEthPortCfgWrite (n v : Nat) (o : Origin) (s : State) : (execEthPortCfgWrite n v o s).Keeps s :=
    keeps_run' s .parts
@[simp] theorem keeps_recvInto (q : Nat) (who : Master) (data : List Byte) (imm : Option Nat) : (recvInto q who data imm).Keeps
    z := by unfold recvInto; exact .parts
@[simp] theorem keeps_execEthFrameReceive (n : Nat) (frame : List Byte) (s : State) : (execEthFrameReceive n frame s).Keeps s
    := keeps_run' s .parts
@[simp] theorem keeps_sendEnd (m : QpMsg) (code detail : Nat) : (sendEnd m code detail).Keeps z :=
    by unfold sendEnd; exact .parts
@[simp] theorem keeps_qpFlush (n : Nat) : (qpFlush n).Keeps z := by unfold qpFlush; exact .parts
@[simp] theorem keeps_qpError (n : Nat) : (qpError n).Keeps z := by unfold qpError; exact .parts
@[simp] theorem keeps_execRdmaQpSet (q : Nat) (s : State) : (execRdmaQpSet q s).Keeps s := keeps_run' s .parts
@[simp] theorem keeps_execRdmaQpDestroy (q : Nat) (s : State) : (execRdmaQpDestroy q s).Keeps s := keeps_run' s .parts
@[simp] theorem keeps_execRdmaMrReg (q : Nat) (s : State) : (execRdmaMrReg q s).Keeps s := keeps_run' s .parts
@[simp] theorem keeps_execRdmaMrDereg (q : Nat) (s : State) : (execRdmaMrDereg q s).Keeps s := keeps_run' s .parts
@[simp] theorem keeps_sendEntry (q type : Nat) (ext : Option (List Byte)) : (sendEntry q type ext).Keeps z :=
    by unfold sendEntry; exact .parts
@[simp] theorem keeps_execRdmaSend (q : Nat) (ext : Option (List Byte)) (s : State) : (execRdmaSend q ext s).Keeps s :=
    keeps_run' s .parts
@[simp] theorem keeps_execRdmaSendImm (q : Nat) (ext : Option (List Byte)) (s : State) : (execRdmaSendImm q ext s).Keeps s :=
    keeps_run' s .parts
@[simp] theorem keeps_execRdmaWrite (q : Nat) (ext : Option (List Byte)) (s : State) : (execRdmaWrite q ext s).Keeps s :=
    keeps_run' s .parts
@[simp] theorem keeps_execRdmaWriteImm (q : Nat) (ext : Option (List Byte)) (s : State) : (execRdmaWriteImm q ext s).Keeps s :=
    keeps_run' s .parts
@[simp] theorem keeps_execRdmaRead (q : Nat) (s : State) : (execRdmaRead q s).Keeps s := keeps_run' s .parts
@[simp] theorem keeps_execRawSend (q : Nat) (ext : Option (List Byte)) (s : State) : (execRawSend q ext s).Keeps s :=
    keeps_run' s .parts
@[simp] theorem keeps_execRdmaRecvPost (q : Nat) (s : State) : (execRdmaRecvPost q s).Keeps s := keeps_run' s .parts
@[simp] theorem keeps_qpAck (n syndrome psn : Nat) : (qpAck n syndrome psn).Keeps z := by unfold qpAck; exact .parts
@[simp] theorem keeps_qpServed (n pkts : Nat) : (qpServed n pkts).Keeps z := by unfold qpServed; exact .parts
@[simp] theorem keeps_inTurn {n : Nat} {psn : Nat} {dup : Dev Unit} {serve : Dev Unit} (hdup : dup.Keeps z) (hserve :
    serve.Keeps z) : (inTurn n psn dup serve).Keeps z := by unfold inTurn; exact .parts
@[simp] theorem State.readResponse_fused (s : State) (n psn : Nat) (bs : List Byte) : (State.readResponse s n psn bs).fused =
    s.fused := by unfold State.readResponse; simp
@[simp] theorem keeps_qpDenied (n c : Nat) : (qpDenied n c).Keeps z := by unfold qpDenied; exact .parts
@[simp] theorem keeps_execRdmaInboundRead (n psn key va len : Nat) (s : State) : (execRdmaInboundRead n psn key va len s).Keeps
    s := keeps_run' s <| keeps_get_bind fun s hs => by
  refine keeps_ite (keeps_pure _) ?_
  dsimp only
  refine keeps_inTurn ?_ ?_ <;> exact .parts
@[simp] theorem keeps_execRdmaInboundWrite (n psn key va : Nat) (data : List Byte) (imm : Option Nat) (s : State) :
    (execRdmaInboundWrite n psn key va data imm s).Keeps s := keeps_run' s <| keeps_get_bind fun s hs => keeps_ite (keeps_pure
    _) (keeps_inTurn .parts .parts)
@[simp] theorem keeps_execRdmaInboundSend (n psn : Nat) (data : List Byte) (imm : Option Nat) (s : State) :
    (execRdmaInboundSend n psn data imm s).Keeps s := keeps_run' s <| keeps_get_bind fun s hs => keeps_ite (keeps_pure _) <|
    keeps_inTurn .parts <|
  keeps_ite (keeps_bind (keeps_upd fun s hs => by
    split
    · exact (keeps_execSluicePacketReceive _ _ _ ‹_›).trans hs
    · exact hs) fun _ => .parts) .parts
@[simp] theorem keeps_qpProgress (n : Nat) (out : List QpMsg) : (qpProgress n out).Keeps z := by unfold qpProgress; exact .parts
@[simp] theorem keeps_qpResend (n : Nat) : (qpResend n).Keeps z := by unfold qpResend; exact .parts
@[simp] theorem keeps_qpAcked (n psn : Nat) : (qpAcked n psn).Keeps z := by unfold qpAcked; exact .parts
@[simp] theorem keeps_qpFail (n code : Nat) : (qpFail n code).Keeps z := by unfold qpFail; exact .parts
@[simp] theorem keeps_execRdmaResponseReceive (n kind psn : Nat) (data : List Byte) (s : State) : (execRdmaResponseReceive n
    kind psn data s).Keeps s := keeps_run' s <| keeps_get_bind fun s hs => keeps_ite (keeps_pure _) <| by
  split
  · exact keeps_qpAcked _ _
  · refine keeps_bind (keeps_qpAcked _ _) fun _ => keeps_get_bind fun s hs => ?_
    split
    · exact keeps_pure _
    · refine keeps_ite ?_ (keeps_pure _)
      split
      · exact keeps_pure _
      · exact keeps_bind (keeps_vaWrite _ _ _ _) fun _ => .parts
  · exact keeps_bind (keeps_qpAcked _ _) fun _ => keeps_qpFail _ _
  · exact keeps_bind (keeps_qpAcked _ _) fun _ => .parts
  · exact keeps_bind (keeps_qpAcked _ _) fun _ => keeps_upd fun s hs => (State.setQp_fused _ _ _).trans hs
  · exact keeps_bind (keeps_qpAcked _ _) fun _ => keeps_qpResend _
@[simp] theorem keeps_qpRetry (n : Nat) : (qpRetry n).Keeps z := by unfold qpRetry; exact .parts
@[simp] theorem keeps_execRdmaRnrRetry (n : Nat) (s : State) : (execRdmaRnrRetry n s).Keeps s := keeps_run' s .parts
@[simp] theorem keeps_execRdmaRetransmitTimeout (n : Nat) (s : State) : (execRdmaRetransmitTimeout n s).Keeps s :=
    keeps_run' s .parts
@[simp] theorem keeps_execSpkUdResend (s : State) : (execSpkUdResend s).Keeps s := by unfold execSpkUdResend; split <;> simp
@[simp] theorem keeps_execGlbPtpCfgWrite (v : Nat) (o : Origin) (s : State) : (execGlbPtpCfgWrite v o s).Keeps s :=
    keeps_run' s .parts
@[simp] theorem keeps_discipline (err : Int) : (discipline err).Keeps z := by unfold discipline; exact .parts
@[simp] theorem keeps_execPtpMessageReceive (n : Nat) (err : Int) (s : State) : (execPtpMessageReceive n err s).Keeps s :=
    keeps_run' s .parts
@[simp] theorem keeps_execPtmResponseReceive (p : Nat) (err : Int) (s : State) : (execPtmResponseReceive p err s).Keeps s :=
    keeps_run' s .parts
@[simp] theorem State.store_fused (s : State) (h : RegHit) (v : Nat) : (State.store s h v).fused = s.fused :=
    by unfold State.store; split <;> simp
@[simp] theorem keeps_genericWrite (h : RegHit) (v : Nat) (o : Origin) : (genericWrite h v o).Keeps z := by
  unfold genericWrite
  refine keeps_get_bind fun s hs => ?_
  dsimp only
  split
  · exact .parts
  · exact keeps_ite (keeps_regWrite .parts) (keeps_plainWrite .parts)
@[simp] theorem keeps_rowWrite {h : RegHit} {v : Nat} {o : Origin} {f : State → Res} (hf : rowWrite h v o = some f) : ∀ s, (f
    s).Keeps s := by
  revert f
  unfold rowWrite
  dsimp only
  split
  all_goals
    repeat' refine rows_ite ?_ ?_
    all_goals intro f hf; cases hf <;> simp
@[simp] theorem keeps_viewWrite (off size v : Nat) (o : Origin) : (viewWrite off size v o).Keeps z := by
  unfold viewWrite
  refine keeps_get_bind fun s hs => keeps_ite (keeps_pure _) (keeps_ite .parts ?_)
  split
  · exact keeps_pure _
  · refine keeps_ite (keeps_pure _) (keeps_ite .parts (keeps_ite (keeps_pure _) ?_))
    dsimp only
    split
    · refine keeps_upd fun s hs => ?_
      split
      · exact (keeps_rowWrite ‹_› _ _ ‹_›).trans hs
      · exact hs
    · exact keeps_genericWrite _ _ _
@[simp] theorem keeps_execRegisterWrite (off size v : Nat) (o : Origin) (s : State) : (execRegisterWrite off size v o s).Keeps
    s := keeps_run' s .parts
@[simp] theorem keeps_execSbReadRequest (off : Nat) (pec : Bool) (s : State) : (execSbReadRequest off pec s).Keeps s :=
    by simp [execSbReadRequest]
@[simp] theorem keeps_execSbWriteRequest (off v : Nat) (pec : Bool) (s : State) : (execSbWriteRequest off v pec s).Keeps s :=
    by simp [execSbWriteRequest]
@[simp] theorem keeps_execSbResultRead (pec : Bool) (s : State) : (execSbResultRead pec s).Keeps s := by simp [execSbResultRead]
@[simp] theorem keeps_execUpd (t : Nat) (w : IWord) (x : W64) (s : State) : (execUpd t w x s).Keeps s := keeps_tileInstr
@[simp] theorem keeps_execUpds (t : Nat) (w : IWord) (x : W64) (s : State) : (execUpds t w x s).Keeps s := keeps_tileInstr
@[simp] theorem State.idle_fused (s : State) : (State.idle s).fused = s.fused := by unfold State.idle; simp

end

/-- Every instruction and every command of the machine. -/
theorem exec_keeps (c : Instr) (s : State) : Res.Keeps (exec c s) s := by
  cases c <;> simp only [exec] <;> simp

/-- Settles O5: what is fused into the part, with the queue, is kept by the meaning of each command, which is composed of parts
that keep it; a step takes the command off the queue first. -/
theorem fusedPartsStay : Obligations.FusedPartsStay := by
  have parts : ∀ {s s' : State}, s'.fused = s.fused →
      s'.variant = s.variant ∧ s'.uid = s.uid ∧ s'.fuses = s.fuses ∧ s'.revoked = s.revoked ∧ s'.pending = s.pending := by
    intro s s' h
    simpa only [State.fused, Prod.mk.injEq] using h
  refine ⟨fun s s' h => ?_, fun c s s' h => (parts (exec_keeps c s s' h)).2.2.2.2⟩
  unfold step at h
  split at h
  next none =>
    cases h
    simpa [none] using parts s.idle_fused
  next c rest front =>
    rw [front]
    exact parts (exec_keeps c _ s' h)

end Sys2Proof.Machine
end

section
/-! SUPPORT. The step, with and without a command, and what reset leaves. -/

namespace Sys2Proof.Machine

/-- Settles O1: by the definition of a step. -/
theorem stepRunsFront : Obligations.StepRunsFront := by
  intro s c rest front
  simp only [step, front]

/-! ### The links let no time pass -/

theorem ite_time {p : Prop} [Decidable p] (s s' : State) : (if p then s else s').time = if p then s.time else s'.time :=
  apply_ite ..

@[simp] theorem State.perf_time (s : State) (off n : Nat) : (s.perf off n).time = s.time := by
  unfold State.perf
  simp only [State.setReg_time, ite_time, ite_self]

@[simp] theorem State.setLport_time (s : State) (n : Nat) (p : LPort) : (s.setLport n p).time = s.time := by
  simp only [State.setLport]
@[simp] theorem State.leaEmit_time (s : State) (n ftype seq : Nat) (cont : Option Nat) (slots : List Byte) :
    (s.leaEmit n ftype seq cont slots).time = s.time := by
  simp only [State.leaEmit, State.emit, State.setLport_time]
@[simp] theorem State.markSent_time (s : State) (n : Nat) (m : List Byte) : (s.markSent n m).time = s.time := rfl

theorem fillFlit_time (n fuel room : Nat) (f : Fill) (s : State) : (fillFlit n fuel room f s).2.time = s.time := by
  induction fuel generalizing room f s with
  | zero => rfl
  | succ fuel ih =>
    unfold fillFlit
    dsimp only
    split
    · rfl
    · split <;> simp [ih, ite_time]

@[simp] theorem State.leaSlot_time (s : State) (n : Nat) : (s.leaSlot n).time = s.time := by
  unfold State.leaSlot
  simp only [ite_time, State.perf_time, State.setLport_time, State.leaEmit_time, apply_ite Prod.snd, fillFlit_time, ite_self]

@[simp] theorem State.leaTick_time (s : State) : s.leaTick.time = s.time := by
  have ports : ∀ (l : List Nat) (f : State → Nat → State), (∀ s n, (f s n).time = s.time) →
      ∀ s, (l.foldl f s).time = s.time := fun l f h => by
    induction l with
    | nil => exact fun _ => rfl
    | cons n l ih => exact fun s => (ih (f s n)).trans (h s n)
  exact ports _ _ (fun s n => by simp [ite_time]) s

/-- Settles O2: the ports that send are the only part of the step that is not the clock, and they leave the clock alone. -/
theorem emptyQueueLetsTimePass : Obligations.EmptyQueueLetsTimePass := by
  intro s empty
  have idle : step s = .next s.idle := by simp only [step, empty]
  have still : s.idle.fused = s.fused := s.idle_fused
  simp only [State.fused, Prod.mk.injEq, empty] at still
  obtain ⟨-, -, -, -, none⟩ := still
  refine ⟨fun cold => ?_, fun warm => ⟨s.idle, idle, ?_, none⟩⟩
  · rw [idle, State.idle, if_pos cold]
  · rw [State.idle, if_neg (by simp [warm]), State.leaTick_time]

/-! ### Reset -/

theorem State.reset_tile (t : Nat) : State.reset.tile t = Tile.reset := rfl

theorem State.reset_reg (off : Nat) : State.reset.reg off = regInit off := rfl

/-- Only partition 0 is enabled after reset. -/
theorem regInit_partCfg_enable (p : Nat) (h : p < 8) : bit (regInit (partCfg p)).toNat 63 = decide (p = 0) := by
  interval_cases p <;> rfl

/-- Settles O3: what nothing has written reads as its reset value. -/
theorem resetValues : Obligations.ResetValues :=
  ⟨rfl, State.reset_tile, State.reset_reg, fun _ _ _ => State.reset_tile _ ▸ ite_self _,
    fun _ _ => ⟨rfl, rfl, rfl⟩, regInit_partCfg_enable, rfl⟩

end Sys2Proof.Machine
end

section
/-! SUPPORT. The scalar pipe: results, accesses of the cistern and control flow. -/

namespace Sys2Proof.Machine

/-! ### Registers -/

/-- A quadword of a descriptor, as a field of a number and as bits. -/
theorem ofNat_fld_quadword (v : TDesc) (q : Nat) : BitVec.ofNat 64 (fld v.toNat (64 * q + 63) (64 * q)) = v.extractLsb' (64 * q) 64 := by
  apply BitVec.eq_of_toNat_eq
  have width : 64 * q + 63 + 1 - 64 * q = 64 := by omega
  simp only [fld, BitVec.toNat_ofNat, BitVec.extractLsb'_toNat, Nat.shiftRight_eq_div_pow, width, Nat.mod_mod]

/-- MLEN has the functions 0 to 3. -/
theorem mlen_fn {w : IWord} {x : W64} (h : kzDefined 0x24 w x = true) : w.fn = 0 ∨ w.fn = 1 ∨ w.fn = 2 ∨ w.fn = 3 := by
  have fns : ∀ f : BitVec 4, (encOf 0x24 f.toNat).isSome = true → f = 0 ∨ f = 1 ∨ f = 2 ∨ f = 3 := by decide
  exact fns w.fn (encOf_none_kzDefined h)

/-- Settles O9: each body completes at once, with the value that it computes from the registers of the running context. -/
theorem scalarResults : Obligations.ScalarResults := by
  refine ⟨fun s t w x r k hr => ⟨?nop, ?alu, ?alui, ?li, ?adda, ?mova, ?tdget, ?rdsr⟩,
    fun s t w r k hr => ⟨?cmp, ?pop, ?tdset, ?wrsr, ?mpad, ?mlen⟩, fun s t w r k hr => ?fpu⟩
  case li | mova =>
    refine fun h => tileInstr_done h hr (congrArg Act.done ?_)
    split <;> rfl
  case tdget =>
    refine fun h => tileInstr_done h hr (congrArg Act.done ?_)
    rw [ofNat_fld_quadword]
    rfl
  case mlen =>
    refine fun h => tileInstr_done h hr ?_
    obtain f | f | f | f := mlen_fn (canIssue_defined h) <;> simp only [f] <;> rfl
  all_goals exact fun h => tileInstr_done h hr rfl

/-! ### The cistern -/

theorem cisRead_outside {tl : Tile} {k : LKernel} {off n : Nat} (h : k.cisBytes < off + n) :
    cisRead tl k off n = fail 0x321 := by
  simp [cisRead, inAlloc, need, Nat.not_le.2 h]
  rfl

theorem cisWrite_outside {tl : Tile} {k : LKernel} {off : Nat} {bs : List Byte} (h : k.cisBytes < off + bs.length) :
    cisWrite tl k off bs = fail 0x321 := by
  simp [cisWrite, inAlloc, need, Nat.not_le.2 h]
  rfl

/-- An instruction whose computation answers a tile goes on after it. -/
theorem tileInstr_ok {s : State} {t : Nat} {r : Run} {k : LKernel} {i : Instr} {opc : Nat} {w : IWord} {x : W64}
    {f : Tile → Kx → Ex Tile} {tl : Tile} (h : s.canIssue t opc w x = true) (hr : (s.tile t).running = some (r, k))
    (hf : f (s.issuing t r opc) (s.seen t r k opc w) = .ok tl) :
    tileInstr s t i opc w x (fun tl kx => Act.of tl (f tl kx)) = .next (s.went t r opc w tl) :=
  tileInstr_done h hr (by rw [hf]; rfl)

/-- An instruction whose computation stops with a code aborts the task and has no other effect. -/
theorem tileInstr_fail {s : State} {t : Nat} {r : Run} {k : LKernel} {i : Instr} {opc : Nat} {w : IWord} {x : W64}
    {f : Tile → Kx → Ex Tile} {c d : Nat} (h : s.canIssue t opc w x = true) (hr : (s.tile t).running = some (r, k))
    (hf : f (s.issuing t r opc) (s.seen t r k opc w) = fail c d) :
    tileInstr s t i opc w x (fun tl kx => Act.of tl (f tl kx)) = .next (abortTile s t (s.issuing t r opc) c d) :=
  tileInstr_abort h hr (by rw [hf]; rfl)

/-- Settles O11: the read or write of the access decides what the body does. -/
theorem cisternAccesses : Obligations.CisternAccesses := by
  refine ⟨fun s t w r k hr => ⟨?lds, ?sts, ?tdld, ?tdst⟩, fun s t w r k hr i opc n hi hc out => ?_⟩
  case lds | tdld =>
    refine fun hc read => tileInstr_ok hc hr ?_
    exact congrArg (· >>= _) (cisRead_readable read)
  case sts | tdst =>
    refine fun hc fits => tileInstr_ok hc hr ?_
    exact cisWrite_inside (by rwa [leBytes_length])
  simp only [List.mem_cons, Prod.mk.injEq, List.not_mem_nil, or_false] at hi
  obtain ⟨rfl, rfl, rfl⟩ | ⟨rfl, rfl, rfl⟩ | ⟨rfl, rfl, rfl⟩ | ⟨rfl, rfl, rfl⟩ := hi
  case inl | inr.inr.inl =>
    exact tileInstr_fail hc hr (congrArg (· >>= _) (cisRead_outside out))
  all_goals exact tileInstr_fail hc hr (cisWrite_outside (by rwa [leBytes_length]))

theorem State.tile_setTile {s : State} (wf : spWf dTile s.tiles = true) (t u : Nat) (tl : Tile) :
    (s.setTile t tl).tile u = if u = t then tl else s.tile u := spGet_set dTile wf t u tl

/-- The cistern after an instruction that leaves bytes at an offset of the allocation. -/
theorem cis_went_cisPut {s : State} {t : Nat} (wf : spWf dTile s.tiles = true) (cis : spWf dByte (s.tile t).cis = true) (r : Run)
    (opc : Nat) (w : IWord) (off : Nat) (bs : List Byte) :
    let m := ((s.went t r opc w ((s.issuing t r opc).cisPut off bs)).tile t).cis
    (∀ b, b < off ∨ off + bs.length ≤ b → spGet dByte m b = spGet dByte (s.tile t).cis b) ∧
    (∀ j (h : j < bs.length), spGet dByte m (off + j) = bs[j]) := by
  have after : ((s.went t r opc w ((s.issuing t r opc).cisPut off bs)).tile t).cis = spWrite dByte (s.tile t).cis off bs := by
    rw [State.went, State.tile_setTile wf, if_pos rfl]
    rfl
  simp only [after]
  exact ⟨fun b => spGet_write_outside dByte cis off bs, fun j => spGet_write_inside dByte cis off bs⟩

/-- Settles O7: STS and TDST put the bytes into the cistern, as O11 says. -/
theorem storesChangeOnlyTheirBytes : Obligations.StoresChangeOnlyTheirBytes := by
  intro s s' t w r k hr wf cis i opc n v hi hc a fits run
  obtain ⟨-, sts, -, tdst⟩ := cisternAccesses.1 s t w r k hr
  have stored : s' = s.went t r opc w ((s.issuing t r opc).cisPut (k.cisOff + a) (leBytes n v)) := by
    simp only [List.mem_cons, Prod.mk.injEq, List.not_mem_nil, or_false] at hi
    obtain ⟨rfl, rfl, rfl, rfl⟩ | ⟨rfl, rfl, rfl, rfl⟩ := hi
    · exact Host.Outcome.next.inj (run.symm.trans (sts hc fits))
    · exact Host.Outcome.next.inj (run.symm.trans (tdst hc fits))
  obtain ⟨outside, inside⟩ := cis_went_cisPut wf cis r opc w (k.cisOff + a) (leBytes n v)
  rw [leBytes_length] at outside
  subst stored
  refine ⟨outside, fun j hj => ?_⟩
  rw [inside j (by rwa [leBytes_length]), getElem_leBytes]

/-! ### Control flow -/

/-- Settles O13: by the cases of each body. -/
theorem controlFlow : Obligations.ControlFlow := by
  refine ⟨fun s t w r k hr => ⟨?br, ?brr, ?loop, ?loopEnd⟩, fun s t w r k hr => ⟨?waitq, ?fence, ?kend⟩⟩
  case br =>
    intro hc tl y g fwd
    exact tileInstr_stay hc hr (if_neg (Int.not_lt.2 fwd))
  case brr =>
    intro hc tl y g
    split
    · exact tileInstr_stay hc hr (if_pos ‹_›)
    · exact tileInstr_abort hc hr (if_neg ‹_›)
  case loop =>
    intro hc tl y n stop room
    refine tileInstr_stay hc hr ((if_neg (Nat.not_le.2 room)).trans ?_)
    by_cases none : n = 0
    · rw [if_pos none]
      exact if_pos none
    · rw [if_neg none]
      exact if_neg none
  case loopEnd =>
    intro exhausted
    simp only [exec, execLoopEnd, hr]
    exact congrArg _ (if_pos exhausted)
  case waitq =>
    intro hc tl
    split
    · exact tileInstr_done hc hr (if_pos ‹_›)
    · exact tileInstr_stay hc hr (if_neg ‹_›)
  case fence =>
    intro hc tl
    split
    · exact tileInstr_done hc hr (if_pos ‹_›)
    · exact tileInstr_stay hc hr (if_neg ‹_›)
  case kend =>
    intro hc tl u
    refine tileInstr_stay hc hr ?_
    simp only [Bool.and_eq_true, decide_eq_true_eq]
    split <;> rfl

end Sys2Proof.Machine
end

section
/-! SUPPORT. The vector, matrix and block instructions. -/

namespace Sys2Proof.Machine

/-- Settles O14: each body completes with the lanes that it maps; SFN's aborts only on a table that is not loaded. -/
theorem laneOperations : Obligations.LaneOperations := by
  intro s t w r k hr d ty rnd sat
  refine ⟨?vop, ?vopb, ?vcvt, ?vperm, ?vbcast, ?sfn⟩
  case sfn =>
    intro hc tl kx tb el loaded
    exact tileInstr_done hc hr (if_neg (by simp only [Bool.not_eq_true', Bool.not_eq_false]; exact loaded))
  all_goals exact fun hc => tileInstr_done hc hr rfl

/-! ### Moves -/

/-- A number put together bit by bit. -/
theorem testBit_foldl_bits (b : Nat → Bool) (n : Nat) :
    let v := (List.range n).foldl (fun p l => if b l then p + 2 ^ l else p) 0
    v < 2 ^ n ∧ ∀ i, v.testBit i = (decide (i < n) && b i) := by
  induction n with
  | zero => simp
  | succ n ih =>
    obtain ⟨small, bits⟩ := ih
    rw [List.range_succ, List.foldl_append]
    generalize (List.range n).foldl _ 0 = v at small bits
    simp only [List.foldl_cons, List.foldl_nil]
    rw [Nat.pow_succ]
    refine ⟨by split <;> omega, fun i => ?_⟩
    obtain below | rfl | above := Nat.lt_trichotomy i n
    · have inner : (if b n then v + 2 ^ n else v).testBit i = v.testBit i := by
        split
        · rw [Nat.add_comm, Nat.testBit_two_pow_add_gt below]
        · rfl
      simp [inner, bits, below, Nat.lt_succ_of_lt below]
    · have top : v.testBit i = false := Nat.testBit_lt_two_pow small
      split
      · next on => simp [Nat.add_comm v, Nat.testBit_two_pow_add_eq, top, on]
      · next off => simp [top, off]
    · have out : (if b n then v + 2 ^ n else v) < 2 ^ i :=
        lt_of_lt_of_le (by split <;> omega) (Nat.pow_le_pow_right (by decide) above : 2 ^ (n + 1) ≤ 2 ^ i)
      simp [Nat.testBit_lt_two_pow out, Nat.not_lt.2 above]

/-- The bits of a predicate put together lane by lane. -/
theorem getLsbD_foldl_lanes (b : Nat → Bool) {l : Nat} (h : l < 256) :
    (BitVec.ofNat 256 (lanes.foldl (fun p l => if b l then p + 2 ^ l else p) 0)).getLsbD l = b l := by
  rw [BitVec.getLsbD_ofNat, lanes, (testBit_foldl_bits b 256).2 l]
  simp [h]

@[simp] theorem ok_bind {α β : Type} (a : α) (f : α → Ex β) : ((.ok a : Ex α) >>= f) = f a := rfl

@[simp] theorem need_true (code detail : Nat) : need true code detail = .ok () := rfl

theorem need_ok {b : Bool} (h : b = true) (code detail : Nat) : need b code detail = .ok () := by rw [h, need_true]

theorem bind_of_ok {α β : Type} {m : Ex α} {a : α} {f : α → Ex β} {e : Ex β} (h : m = .ok a) (hf : f a = e) : (m >>= f) = e := by
  rw [h]
  exact hf

/-- A reduction over the rows of a descriptor that passes its checks and whose bytes can be read (R184). -/
theorem vredTd_ok {tl : Tile} {kx : Kx} {w : IWord} :
    let d := tdOf ((tl.ctx kx.c).tdGet w.sa.toNat); let n := min ((tl.ctx kx.c).sGet w.sb.toNat).toNat d.cols
    let rows := (onLanes tl kx w).filter (· < d.rows)
    let vals := fun l => (List.range n).map fun i => scalarDec d.fmt (((tl.cisBytes (kx.k.cisOff + (d.elem + l * d.rowPitch))
      (n * scalarBytes d.fmt)).drop (i * scalarBytes d.fmt)).take (scalarBytes d.fmt))
    let out := fun l => exactBits fp32 (redRow w.fn.toNat (d.fmt == 9) (vals l))
    d.check = .ok () → bit d.sp 0 = true → (d.fmt = 8 ∨ d.fmt = 9) → d.elem % 4 = 0 → d.rowPitch % 4 = 0 →
    (∀ l ∈ rows, readable tl kx.k (d.elem + l * d.rowPitch) (n * scalarBytes d.fmt) = true) →
    vredTd tl kx w = .ok (((rows.foldl (fun tl l => tl.vSet w.dst.toNat l (out l)) tl).count kx.c
      (Exc.sum (rows.map fun l => if w.fn.toNat ≤ 7 then redEvents ((vals l).map (exactBits fp32)) (out l) else .zero))).vuBusy
        ((if d.fmt = 9 then ceilDiv n 2 else n) + 1)) := by
  intro d n rows vals out check sp fmt elem pitch read
  have reads : rows.mapM (fun l => (do
      let bs ← cisRead tl kx.k (d.elem + l * d.rowPitch) (n * scalarBytes d.fmt)
      .ok (l, (List.range n).map fun i => scalarDec d.fmt ((bs.drop (i * scalarBytes d.fmt)).take (scalarBytes d.fmt))) :
        Ex (Nat × List Ext))) = .ok (rows.map fun l => (l, vals l)) :=
    mapM_ok fun l hl => by rw [cisRead_readable (read l hl), ok_bind]
  unfold vredTd
  refine bind_of_ok check (bind_of_ok (need_ok sp _ _) (bind_of_ok (need_ok (by simpa using fmt) _ _) (bind_of_ok (need_ok ?_ _ _)
    (bind_of_ok reads ?_))))
  · rw [Bool.and_eq_true, beq_iff_eq, beq_iff_eq]
    exact ⟨elem, pitch⟩
  simp only [List.map_map, List.foldl_map]
  rfl

/-- An access of a VLD or VST whose addresses are aligned passes its check (R179). -/
theorem vMoveCheck_ok {tl : Tile} {kx : Kx} {w : IWord}
    (h : if w.fn = 0 then vAddr tl kx w % 64 = 0 else ∀ l ∈ onLanes tl kx w, laneAddr tl kx w l % 4 = 0) :
    vMoveCheck tl kx w = .ok () := by
  unfold vMoveCheck
  split at h
  · next vec => rw [if_pos vec, need_ok (by rw [h]; rfl)]
  · next lane => rw [if_neg lane, need_ok (by simpa using h)]

/-- Rows that lie in the allocation are all written. -/
theorem ofRows_inside {k : LKernel} {sts : List (Nat × List Byte)} {tl : Tile} (h : inside k sts = true) (f : Tile → Tile) :
    Act.ofRows (writeRows k sts tl) f = .done (f (storeAll k sts tl)) := by
  rw [writeRows_inside h]
  rfl

/-- Settles O15: compares, accumulator moves and reductions of registers always complete; the others when their checks pass. -/
theorem vectorMoves : Obligations.VectorMoves := by
  refine ⟨fun s t w r k hr => ⟨?vcmp, ?vacc, ?vred⟩, fun s t w r k hr => ⟨?vld, ?vst, ?stab⟩⟩
  case vcmp => exact fun hc => ⟨_, fun l hl => getLsbD_foldl_lanes _ hl, tileInstr_done hc hr rfl⟩
  case vacc =>
    refine fun hc => tileInstr_done hc hr ?_
    dsimp only
    split
    · rfl
    · split <;> rfl
  case vred =>
    refine fun hc => ⟨fun le => tileInstr_done hc hr (if_pos le), fun ge le => tileInstr_done hc hr ?_, fun ge => ?_⟩
    · exact (if_neg (by omega)).trans (if_pos le)
    · intro d n rows vals out check sp fmt elem pitch read
      have bank : ¬ w.fn.toNat ≤ 5 := by omega
      have lanes : ¬ w.fn.toNat ≤ 2 := by omega
      refine tileInstr_done hc hr ?_
      refine (if_neg lanes).trans ((if_neg bank).trans ?_)
      have reduced := vredTd_ok (tl := s.issuing t r 0x36) (kx := s.seen t r k 0x36 w) (w := w) check sp fmt elem pitch read
      exact congrArg (Act.of _) reduced
  case vld =>
    intro hc tl kx on aligned read
    have reads : on.mapM (fun l => (do
        let bs ← cisRead tl k (laneAddr tl kx w l) 4
        .ok (l, leNat bs) : Ex (Nat × Nat))) = .ok (on.map fun l => (l, leNat (tl.cisBytes (k.cisOff + laneAddr tl kx w l) 4))) :=
      mapM_ok fun l hl => by rw [cisRead_readable (read l hl), ok_bind]
    refine tileInstr_ok hc hr (bind_of_ok (vMoveCheck_ok aligned) (bind_of_ok reads ?_))
    rw [List.foldl_map]
  case vst =>
    intro hc tl kx on aligned fits
    have rows : inside k (on.map fun l => (laneAddr tl kx w l, leBytes 4 (tl.vGet w.sc.toNat l))) = true := by
      simpa [inside] using fits
    refine tileInstr_done hc hr ?_
    rw [vMoveCheck_ok aligned]
    exact ofRows_inside rows _
  case stab =>
    intro hc tl kx b read ok
    refine tileInstr_ok hc hr ?_
    exact bind_of_ok (cisRead_readable read) (bind_of_ok (need_ok ok _ _) rfl)

/-! ### Matrices and blocks -/

/-- An MMAC that passes its checks, whose slots can be read and whose operands hold no poison (R753). -/
theorem mmacBody_ok {tl u v : Tile} {kx : Kx} {w : IWord} {x : W64} {got : List Image} (first : kx.got = [])
    (checks : mmacChecks tl kx w.fn.toNat (fld w.imm.toNat 7 0 + 1) (specA x) (specB x) = .ok ())
    (slots : takeSlots kx (slotSpecs (fld w.imm.toNat 7 0 + 1) (specA x) (specB x)) tl [] = (u, got, none))
    (compute : mmacCompute u kx w x got = .ok v) : mmacBody tl kx w x = .done v := by
  unfold mmacBody
  simp only [first, if_true, List.length_nil, List.drop_zero, checks, slots, compute]

section
variable (s : State) (t : Nat) (r : Run) (k : LKernel) (opc : Nat) (w : IWord)

@[simp] theorem State.seen_c : (s.seen t r k opc w).c = r.ctx := rfl
@[simp] theorem State.seen_k : (s.seen t r k opc w).k = k := rfl
@[simp] theorem State.seen_got : (s.seen t r k opc w).got = [] := rfl
@[simp] theorem State.seen_now : (s.seen t r k opc w).now = s.time := rfl

/-- QBLK samples its profile at issue. -/
theorem State.seen_prof : (s.seen t r k 0x37 w).samp.prof = (s.tile t).reg (0x2000 + 8 * (w.fn.toNat % 8)) := rfl
end

/-- Settles O16: MMAC's body by its three parts, MDRAIN's by its check and its rows. -/
theorem matrixOperations : Obligations.MatrixOperations := by
  intro s t w x r k hr
  refine ⟨?mmac, ?mzero, ?mdrain⟩
  case mmac => exact fun hc _ _ _ checks slots compute => tileInstr_done hc hr (mmacBody_ok rfl checks slots compute)
  case mzero => exact fun hc => tileInstr_done hc hr rfl
  case mdrain =>
    intro hc
    dsimp only
    intro checks fits
    refine tileInstr_done hc hr ?_
    simp only [State.seen_c, State.seen_k, Tile.s, checks]
    cases scaled : bit w.imm.toNat 20 <;> rw [scaled] at fits
    all_goals exact ofRows_inside fits _

/-- Settles O18: the checks pass and the loop comes to its end. -/
theorem blockOperations : Obligations.BlockOperations := by
  intro s t w x r k hr
  refine ⟨?qblk, ?vwid, ?upd⟩
  case qblk =>
    intro hc
    dsimp only
    intro checks u ev loop
    refine tileInstr_done hc hr ?_
    simp only [State.seen_c, State.seen_prof, Tile.s, checks, loop]
    rfl
  case vwid =>
    intro hc
    dsimp only
    intro checks u ev esc loop
    refine tileInstr_done hc hr ?_
    simp only [State.seen_c, Tile.s, checks, loop]
  case upd =>
    intro i opc fp sq hi hc
    dsimp only
    intro checks u ev loop
    simp only [List.mem_cons, Prod.mk.injEq, List.not_mem_nil, or_false] at hi
    obtain ⟨rfl, rfl, rfl, rfl⟩ | ⟨rfl, rfl, rfl, rfl⟩ := hi
    all_goals
      refine tileInstr_done hc hr ?_
      simp only [updBody, State.seen_c, Tile.s, checks, loop]

end Sys2Proof.Machine
end

section
/-! SUPPORT. The online-softmax instructions. -/

namespace Sys2Proof.Machine

/-! ### Instructions that reach beyond their tile -/

section
variable {s s' : State} {t : Nat} {r : Run} {k : LKernel} {opc : Nat} {w : IWord} {x : W64}

/-- A tile that an instruction has issued on is not as after reset, so it can be read back. -/
theorem tile_setTile_issuing : (s.setTile t (s.issuing t r opc)).tile t = s.issuing t r opc := by
  have issued : s.issuing t r opc ≠ dTile t := fun h => absurd (congrArg Tile.issued h) (Nat.succ_ne_zero _)
  rw [State.tile, State.setTile_tiles, spSet, if_neg issued, spGet_insert_same]

theorem running_run {tl : Tile} (h : tl.running = some (r, k)) : tl.run = some r := by
  unfold Tile.running at h
  split at h
  · cases h
  · next r' run =>
    split at h
    · cases h
    · obtain ⟨k', -, pair⟩ := Option.map_eq_some_iff.1 h
      rw [run, (Prod.mk.inj pair).1]

theorem issuing_run (h : (s.tile t).running = some (r, k)) : (s.issuing t r opc).run = some r :=
  show (s.tile t).run = some r from running_run h

theorem fnInstr_of_fn {fn : Nat} (h : w.fn.toNat = fn) (a : Res) : fnInstr fn w a = a := if_pos h

/-- An instruction whose effect on the device answers that it is done. -/
theorem deviceInstr_done {i : Instr} {body : State → Tile → Kx → State × Act} {tl : Tile} (h : s.canIssue t opc w x = true)
    (hr : (s.tile t).running = some (r, k)) (hb : body s (s.issuing t r opc) (s.seen t r k opc w) = (s', .done tl)) :
    deviceInstr s t i opc w x body = .next (s'.went t r opc w tl) := by
  rw [deviceInstr_issue h hr, hb]
  rfl

/-- An effect on the device that answers. -/
theorem inDev_ok {m : Dev Act} {tl : Tile} {a : Act} (h : m.go (s.setTile t tl) = (.ok a, s')) : inDev t m s tl = (s', a) := by
  unfold inDev
  simp only [h]

/-- Outside record and replay the journal hands a value on (R473). -/
theorem tileJournal_off (run : (s.tile t).run = some r) (off : r.jmode = 0) (type key : Nat) (live : List Byte) :
    (tileJournal t type key live).go s = (.ok live, s) := by
  unfold tileJournal
  rw [go_bind_ok (go_get s)]
  simp only [run, jrnPass, off]
  rfl

theorem go_liftEx_of_ok {α : Type} {e : Ex α} {a : α} (h : e = .ok a) : (liftEx e).go s = (.ok a, s) := by
  rw [h, go_liftEx_ok]

end

/-! ### Query blocks -/

theorem osmeChecks_ok {b : Bool} {d : TD} (offset : b = true) (dest : osmDest d = .ok ()) :
    (do need b 0x604; osmDest d : Ex Unit) = .ok () := bind_of_ok (need_ok offset _ _) dest

/-! ### Ring slots leave the cistern alone -/

theorem ok_of_bind {α β : Type} {m : Ex α} {f : α → Ex β} {b : β} (h : (m >>= f) = .ok b) : ∃ a, m = .ok a ∧ f a = .ok b := by
  cases m with
  | error e => cases h
  | ok a => exact ⟨a, rfl, h⟩

/-- Two tiles with the same bytes and poison in their cisterns. -/
def SameCistern (u tl : Tile) : Prop := u.cis = tl.cis ∧ u.bad = tl.bad

theorem sameCistern_setRing (tl : Tile) (k : LKernel) (r : Nat) (g : Ring) : SameCistern (tl.setRing k r g) tl := by
  unfold Tile.setRing
  split <;> exact ⟨rfl, rfl⟩

theorem sameCistern_ringRelease {tl u : Tile} {kx : Kx} {r i : Nat} {cur : Bool} (h : ringRelease tl kx r i cur = .ok u) :
    SameCistern u tl := by
  obtain ⟨-, -, released⟩ := ok_of_bind h
  cases released
  exact sameCistern_setRing ..

theorem sameCistern_ringTake {tl u : Tile} {kx : Kx} {sp : Nat} {im : Image} (h : ringTake tl kx sp = .ok (u, im)) :
    SameCistern u tl := by
  obtain ⟨-, -, h⟩ := ok_of_bind h
  dsimp only at h
  generalize (if decide (fld sp 23 20 = 15) = true then (tl.ring kx.k (fld sp 29 24)).kslot else fld sp 23 20) = i at h
  split at h
  · cases h
  · split at h
    all_goals
      obtain ⟨v, taken, h⟩ := ok_of_bind h
      cases h
    · exact sameCistern_ringRelease taken
    · cases taken
      exact ⟨rfl, rfl⟩

theorem sameCistern_osmItems {tl u : Tile} {kx : Kx} {sp base : Nat} (h : osmItems tl kx sp = .ok (u, base)) :
    SameCistern u tl := by
  unfold osmItems at h
  split at h
  · obtain ⟨⟨v, im⟩, taken, h⟩ := ok_of_bind h
    cases h
    exact sameCistern_ringTake taken
  · cases h
    exact ⟨rfl, rfl⟩

theorem readItem_congr {tl u : Tile} (h : SameCistern u tl) (kx : Kx) (base j : Nat) : readItem u kx base j = readItem tl kx base j := by
  obtain ⟨cis, bad⟩ := h
  simp only [readItem, cisRead, badWords, Tile.cisBytes, cis, bad]

/-- An OSMB whose destination passes its check and lies in the allocation (R216, R250). -/
theorem osmbBody_ok {tl : Tile} {kx : Kx} {w : IWord} {x : W64} {per : Nat} {f : Nat → Nat → Nat} :
    let (r0, c0, m, n) := osmRegion w
    let rows := osmRows tl kx w r0 m
    let d := specTd (tl.ctx kx.c) (specA x)
    let vals := rows.flatMap fun l => (List.range n).map fun j => (l, j, if osmMasked kx l (c0 + j) then 0 else f l (c0 + j))
    let sts := osmStores w d (vals.map fun v => (v.1 - r0, v.2.1,
      (bf16.enc (rndW w) false (osmDraw kx w d (v.1 - r0) v.2.1) (fp32.dec v.2.2)).bits))
    osmDest d = .ok () → inside kx.k sts = true → osmbBody tl kx w x per f = .done
      ((vals.foldl (fun tl v => tl.accSet w.sa.toNat v.1 (c0 + v.2.1) v.2.2) (storeAll kx.k sts tl)).vuBusy
        (4 + ceilDiv (rows.length * n) per)) := by
  dsimp -zeta only
  intro rows d vals sts dest fits
  unfold osmbBody
  dsimp only
  split
  · next e stop => cases stop.symm.trans dest
  · exact ofRows_inside fits _

/-- OSMN, OSMX, OSME and OSMS (R214 to R216, R219, R222, R223). -/
theorem block_opens_and_runs :
    ∀ (s : State) (t : Nat) (w : IWord) (x : W64) (r : Run) (k : LKernel), (s.tile t).running = some (r, k) →
      let (r0, c0, m, n) := osmRegion w
      (s.canIssue t 0x54 w 0 = true →
        let tl := s.issuing t r 0x54; let kx := s.seen t r k 0x54 w; let rows := osmRows tl kx w r0 m
        let mode := bit w.imm.toNat 1
        (mode = true → (fp32.dec (osmOffset kx)).isFin = true) →
        let u := tl.stInit w.dst.toNat (if mode then osmOffset kx else negInf) rows
        let u := if bit w.imm.toNat 0 then u.stInit w.sa.toNat negInf rows else u
        exec (.osmn t w) s = .next (s.went t r 0x54 w ((u.setCtx r.ctx { u.ctx r.ctx with
          blk := { kx.samp.blk with isOpen := true, mode := mode, stReg := w.dst.toNat, rows := rows } }).vuBusy 2))) ∧
      (s.canIssue t 0x50 w 0 = true →
        let tl := s.issuing t r 0x50; let kx := s.seen t r k 0x50 w; let rows := osmRows tl kx w r0 m
        let busy := 5 + ceilDiv (rows.length * n) 1024 + ceilDiv rows.length 128
        ((tl.ctx r.ctx).blk.noSub = false →
          exec (.osmx t w) s = .next (s.went t r 0x50 w ((rows.foldl (osmxRow kx w c0 n) tl).vuBusy busy))) ∧
        ((tl.ctx r.ctx).blk.noSub = true → (fp32.dec (osmOffset kx)).isFin = true →
          exec (.osmx t w) s = .next (s.went t r 0x50 w ((((rows.foldl (fun tl l => tl.vSet w.dst.toNat l 0x3F800000) tl).markRows kx
            (rows.filter fun l => (fp32.dec fp80).lt
              (fp32.dec (subRne (exactBits fp32 (osmMaxScore tl kx w.sa.toNat l c0 n)) (osmOffset kx))))).vuBusy busy))))) ∧
      (s.canIssue t 0x51 w x = true →
        let tl := s.issuing t r 0x51; let kx := s.seen t r k 0x51 w; let rows := osmRows tl kx w r0 m
        let d := specTd (tl.ctx r.ctx) (specA x)
        let cells := rows.map fun l => (l, osmeRow tl kx w d r0 c0 n l)
        let sts := osmStores w d (cells.flatMap Prod.snd)
        ((tl.ctx r.ctx).blk.noSub = true → (fp32.dec (osmOffset kx)).isFin = true) → osmDest d = .ok () → inside k sts = true →
        exec (.osme t w x) s = .next (s.went t r 0x51 w ((cells.foldl (fun tl c =>
          tl.stSet w.sb.toNat c.1 (addRne (tl.stHi w.sb.toNat c.1)
            (redTree 0 (treeLevels n) (c.2.map fun p => exactBits fp32 (bf16.dec p.2.2)))) (tl.stLo w.sb.toNat c.1))
          (storeAll k sts tl)).vuBusy (4 + ceilDiv (rows.length * n) 128)))) ∧
      (s.canIssue t 0x52 w x = true →
        let tl := s.issuing t r 0x52; let kx := s.seen t r k 0x52 w; let rows := osmRows tl kx w r0 m
        let at' := ((tl.ctx r.ctx).aGet w.dst.toNat).toNat
        r.jmode = 0 → (tl.ctx r.ctx).blk.isOpen = true →
        ∀ u valid skip sts, osmsDecide tl kx w x = .ok (u, valid, skip) →
          let keep := valid.filter fun j => !skip.contains j
          decisionRecord at' ((tl.ctx r.ctx).aGet w.sc.toNat).toNat tl k (maskCols (leNat ((leBytes 16 (maskOf keep)).take 16)))
            (maskCols (leNat (leBytes 16 (maskOf skip)))) = .ok sts → inside k sts = true →
          exec (.osms t w x) s = .next ((s.setTile t tl).went t r 0x52 w
            ((((storeAll k sts u).updBlk kx fun b => { b with
                skipped := sat32 b.skipped (maskCols (leNat (leBytes 16 (maskOf skip)))).length }).perfs
              [(0x2060, valid.length), (0x2068, (maskCols (leNat (leBytes 16 (maskOf skip)))).length)]).vuBusy
                (4 + ceilDiv (rows.length * n) 1024)))) := by
  intro s t w x r k hr
  dsimp -zeta only
  refine ⟨?osmn, ?osmx, ?osme, ?osms⟩
  case osmn =>
    intro hc tl kx rows mode finite
    refine tileInstr_done hc hr (if_neg ?_)
    simp only [Bool.and_eq_true, Bool.not_eq_true']
    rintro ⟨on, off⟩
    exact absurd (finite on) (by rw [off]; decide)
  case osmx =>
    intro hc tl kx rows busy
    refine ⟨fun online => tileInstr_done hc hr (if_neg (Bool.eq_false_iff.1 online)), fun noSub finite => ?_⟩
    refine tileInstr_done hc hr ((if_pos noSub).trans (if_neg ?_))
    rw [finite]
    decide
  case osme =>
    intro hc
    dsimp only
    intro finite dest fits
    refine tileInstr_done hc hr ?_
    have offset : (!((s.issuing t r 0x51).ctx r.ctx).blk.noSub || (fp32.dec (osmOffset (s.seen t r k 0x51 w))).isFin) = true := by
      cases noSub : ((s.issuing t r 0x51).ctx r.ctx).blk.noSub
      · rfl
      · exact finite noSub
    have checks := osmeChecks_ok offset dest
    simp only [State.seen_c, State.seen_k, checks]
    exact ofRows_inside fits _
  case osms =>
    intro hc tl kx rows at' jmode isOpen u valid skip sts decided keep record fits
    have run : ((s.setTile t tl).tile t).run = some r := by rw [tile_setTile_issuing, issuing_run hr]
    have masks : ∀ a b : Nat, (leBytes 16 a ++ leBytes 16 b).take 16 = (leBytes 16 a).take 16 ∧
        (leBytes 16 a ++ leBytes 16 b).drop 16 = leBytes 16 b := fun a b =>
      ⟨List.take_append_of_le_length (leBytes_length 16 a).ge, List.drop_left' (leBytes_length 16 a)⟩
    refine deviceInstr_done hc hr (inDev_ok ?_)
    refine (go_bind_ok (go_liftEx_of_ok decided) _).trans ?_
    refine (go_bind_ok (tileJournal_off run jmode _ _ _) _).trans ?_
    dsimp only
    simp only [(masks _ _).1, (masks _ _).2]
    refine (go_bind_ok (go_liftEx_of_ok record) _).trans ?_
    exact congrArg (fun a => (Except.ok a, _)) (ofRows_inside fits _)

/-- OSMC and the rerun (R217 to R220). -/
theorem block_corrects :
    ∀ (s : State) (t : Nat) (w : IWord) (r : Run) (k : LKernel), (s.tile t).running = some (r, k) →
      let (r0, c0, m, n) := osmRegion w
      (s.canIssue t 0x53 w 0 = true →
        let tl := s.issuing t r 0x53; let kx := s.seen t r k 0x53 w; let rows := osmRows tl kx w r0 m; let sb := w.sb.toNat
        let at' := ((tl.ctx r.ctx).aGet w.sc.toNat).toNat
        (w.fn = 0 → exec (.osmcCorr t w) s = .next (s.went t r 0x53 w ((rows.foldl (fun tl l =>
          tl.accRow w.dst.toNat l c0 n fun _ v => mulRne v (tl.vGet w.sa.toNat l)) tl).vuBusy (osmcBusy rows.length n)))) ∧
        (w.fn = 1 → (tl.ctx r.ctx).blk.isOpen = true →
          let u := if (tl.ctx r.ctx).blk.noSub then tl.markRows kx (rows.filter fun l => finMarks (tl.stHi sb l)) else tl
          ((u.ctx r.ctx).blk.marked = [] → exec (.osmcFin t w) s = .next (s.went t r 0x53 w (((rows.foldl (fun tl l =>
            let f := finFactor (tl.stLo sb l) (tl.stHi sb l)
            tl.accRow w.dst.toNat l c0 n fun _ v => (f.map (mulRne v)).getD 0) u).updBlk kx
              fun b => { b with isOpen := false }).vuBusy (osmcBusy rows.length n)))) ∧
          ((u.ctx r.ctx).blk.marked ≠ [] → (u.ctx r.ctx).blk.dirty = false →
            exec (.osmcFin t w) s = .next (s.went t r 0x53 w ((u.updBlk kx fun b => { b with due := true }).vuBusy
              (osmcBusy rows.length n)))) ∧
          ((u.ctx r.ctx).blk.marked ≠ [] → (u.ctx r.ctx).blk.dirty = true →
            exec (.osmcFin t w) s = .next (abortTile s t u 0x602 0))) ∧
        (w.fn = 2 → at' % 64 = 0 →
          (∀ l ∈ rows, readable tl k (at' + 8 * (l - r0)) 8 = true ∧ readable tl k (at' + up64 (8 * m) + 4 * n * (l - r0)) (4 * n) = true) →
          exec (.osmcMerge t w) s = .next (s.went t r 0x53 w ((rows.foldl (fun u l =>
            mergeRow sb w.dst.toNat c0 n l (tl.cisBytes (k.cisOff + (at' + 8 * (l - r0))) 8)
              (tl.cisBytes (k.cisOff + (at' + up64 (8 * m) + 4 * n * (l - r0))) (4 * n)) u) tl).vuBusy
            (4 + ceilDiv (rows.length * n) 256)))) ∧
        (w.fn = 3 → at' % 64 = 0 →
          let sts := rows.map fun l => (at' + 8 * (l - r0), leBytes 8 (tl.stGet sb l))
          inside k sts = true →
          exec (.osmcSave t w) s = .next (s.went t r 0x53 w ((storeAll k sts tl).vuBusy (2 + ceilDiv rows.length 64)))) ∧
        (w.fn = 4 → at' % 64 = 0 → (∀ l ∈ rows, readable tl k (at' + 8 * (l - r0)) 8 = true) →
          exec (.osmcLoad t w) s = .next (s.went t r 0x53 w ((rows.foldl (fun u l =>
            let b := tl.cisBytes (k.cisOff + (at' + 8 * (l - r0))) 8
            u.stSet sb l (leNat (b.drop 4)) (leNat (b.take 4))) tl).vuBusy (2 + ceilDiv rows.length 64))))) ∧
      (let blk := ((s.tile t).ctx r.ctx).blk
       blk.due = true → (s.tile t).outstanding = [] →
        (∀ f ∈ (s.tile t).flights, ¬ (blk.channels.contains f.chan = true ∧ ((s.tile t).chan f.chan).st = 2)) →
        let u := (blk.channels.foldl (fun tl n => tl.stopped k n s.time) (s.tile t)).stInit blk.stReg negInf blk.rows
        exec (.osmRerun t) s = .next (s.setTile t ((u.setCtx r.ctx { u.ctx r.ctx with
          s := blk.s, a := blk.a, p := blk.p, td := blk.td, pc := blk.pc, loops := blk.loops
          blk := { blk with mode := false, rerun := true, due := false, marked := [], started := 0, dirty := false } }).perf 0x2078 1))) := by
  intro s t w r k hr
  dsimp -zeta only
  refine ⟨?osmc, ?rerun⟩
  case osmc =>
    intro hc tl kx rows sb at'
    refine ⟨?corr, ?fin, ?merge, ?save, ?load⟩
    case corr => exact fun fn => (fnInstr_of_fn (congrArg BitVec.toNat fn) _).trans (tileInstr_done hc hr rfl)
    case fin =>
      intro fn isOpen u
      have fin := fnInstr_of_fn (congrArg BitVec.toNat fn)
      have opened : ¬ (!(tl.ctx r.ctx).blk.isOpen) = true := by simp [isOpen]
      refine ⟨fun none => ?_, fun some clean => ?_, fun some dirty => ?_⟩
      · exact (fin _).trans (tileInstr_done hc hr ((if_neg opened).trans (if_neg (not_not.2 none))))
      · exact (fin _).trans (tileInstr_done hc hr ((if_neg opened).trans ((if_pos some).trans (if_neg (Bool.eq_false_iff.1 clean)))))
      · exact (fin _).trans (tileInstr_abort hc hr ((if_neg opened).trans ((if_pos some).trans (if_pos dirty))))
    case merge =>
      intro fn aligned read
      refine (fnInstr_of_fn (congrArg BitVec.toNat fn) _).trans (tileInstr_done hc hr ?_)
      have records : rows.mapM (fun l => (do
          let st ← cisRead tl k (at' + 8 * (l - (osmRegion w).1)) 8
          let vs ← cisRead tl k (at' + up64 (8 * (osmRegion w).2.2.1) + 4 * (osmRegion w).2.2.2 * (l - (osmRegion w).1))
            (4 * (osmRegion w).2.2.2)
          return (l, st, vs) : Ex (Nat × List Byte × List Byte))) = .ok (rows.map fun l =>
            (l, tl.cisBytes (k.cisOff + (at' + 8 * (l - (osmRegion w).1))) 8, tl.cisBytes (k.cisOff +
              (at' + up64 (8 * (osmRegion w).2.2.1) + 4 * (osmRegion w).2.2.2 * (l - (osmRegion w).1))) (4 * (osmRegion w).2.2.2))) :=
        mapM_ok fun l hl => by rw [cisRead_readable (read l hl).1, cisRead_readable (read l hl).2]; rfl
      have part := (congrArg (· >>= fun _ => rows.mapM _) (need_ok (beq_iff_eq.2 aligned) 0x601 0)).trans records
      dsimp only
      split
      · next e stop => cases stop.symm.trans part
      · next ps ok =>
        cases ok.symm.trans part
        rw [List.foldl_map]
    case save =>
      intro fn aligned sts fits
      refine (fnInstr_of_fn (congrArg BitVec.toNat fn) _).trans (tileInstr_done hc hr ?_)
      exact (if_neg (not_not.2 aligned)).trans (ofRows_inside fits _)
    case load =>
      intro fn aligned read
      refine (fnInstr_of_fn (congrArg BitVec.toNat fn) _).trans (tileInstr_done hc hr ?_)
      have records : rows.mapM (fun l => (do
          let st ← cisRead tl k (at' + 8 * (l - (osmRegion w).1)) 8
          return (l, st) : Ex (Nat × List Byte))) = .ok (rows.map fun l =>
            (l, tl.cisBytes (k.cisOff + (at' + 8 * (l - (osmRegion w).1))) 8)) :=
        mapM_ok fun l hl => by rw [cisRead_readable (read l hl)]; rfl
      have part := (congrArg (· >>= fun _ => rows.mapM _) (need_ok (beq_iff_eq.2 aligned) 0x601 0)).trans records
      dsimp only
      split
      · next e stop => cases stop.symm.trans part
      · next ps ok =>
        cases ok.symm.trans part
        rw [List.foldl_map]
  case rerun =>
    intro blk due empty drained u
    have busy : ((!blk.due) || (s.tile t).outstanding != []) = false := by simp [due, empty]
    have flying : ((s.tile t).flights.any fun f => blk.channels.contains f.chan && ((s.tile t).chan f.chan).st == 2) = false := by
      simpa only [List.any_eq_false, Bool.and_eq_true, beq_iff_eq] using drained
    simp only [exec, execOsmRerun, hr]
    exact congrArg _ ((if_neg (Bool.eq_false_iff.1 busy)).trans (if_neg (Bool.eq_false_iff.1 flying)))

/-- OSMV and OSMB (R224, R226, R250). -/
theorem block_verifies :
    ∀ (s : State) (t : Nat) (w : IWord) (x : W64) (r : Run) (k : LKernel), (s.tile t).running = some (r, k) →
      let (r0, c0, m, n) := osmRegion w
      (s.canIssue t 0x56 w x = true →
        let tl := s.issuing t r 0x56; let kx := s.seen t r k 0x56 w; let rows := osmRows tl kx w r0 m
        (w.fn = 0 →
          let at' := ((tl.ctx r.ctx).aGet w.sc.toNat).toNat
          let js := (maskCols (leNat (tl.cisBytes (k.cisOff + (at' + 16)) 16))).filter fun j => decide (j < n)
          at' % 64 = 0 → readable tl k (at' + 16) 16 = true →
          ∀ u base its, osmItems tl kx (specA x) = .ok (u, base) →
            (js.mapM fun j => do let it ← readItem u kx base j; return (j, it) : Ex (List (Nat × BItem))) = .ok its →
            exec (.osmvAccum t w x) s = .next (s.went t r 0x56 w ((rows.foldl (fun tl l =>
              boundRow tl w.sb.toNat w.sa.toNat w.dst.toNat l c0 its) u).vuBusy (4 + ceilDiv (rows.length * its.length) 128)))) ∧
        (w.fn = 1 → r.jmode = 0 → (tl.ctx r.ctx).blk.isOpen = true → (osmEps kx).isFin = true → (osmEps kx).below0 = false →
          let bad := rows.any fun l => rowFails (osmEps kx) (tl.stHi w.sa.toNat l, tl.stLo w.sa.toNat l)
            (tl.stHi w.sb.toNat l, tl.stLo w.sb.toNat l)
          let u := tl.setCtx r.ctx ((tl.ctx r.ctx).pSet w.dst.toNat (if bad then BitVec.allOnes 256 else 0))
          exec (.osmvDecide t w x) s = .next ((s.setTile t tl).went t r 0x56 w
            ((if bad then u.perf 0x2070 (u.ctx r.ctx).blk.skipped else u).vuBusy (2 + ceilDiv rows.length 128))))) ∧
      (s.canIssue t 0x55 w x = true →
        let tl := s.issuing t r 0x55; let kx := s.seen t r k 0x55 w; let rows := osmRows tl kx w r0 m
        let d := specTd (tl.ctx r.ctx) (specA x)
        ∀ i (per : Nat) (f : Nat → Nat → Nat),
          ((w.fn = 0 ∧ i = Instr.osmbProb t w x ∧ per = 128 ∧ f = fun l n =>
              mulRne (exactBits fp32 (exp2Diff (tl.accGet w.sa.toNat l n) (tl.stLo w.sb.toNat l)))
                (recipRefined (tl.stHi w.sb.toNat l))) ∨
           (w.fn = 1 ∧ i = Instr.osmbDscore t w x ∧ per = 512 ∧ (fp32.dec (osmDscale kx)).isFin = true ∧ f = fun l n =>
              exactBits fp32 (((fp32.dec (osmDscale kx)).mul (tl.accVal w.sb.toNat l n)).mul
                ((tl.accVal w.sa.toNat l n).sub (fp32.dec (tl.vGet w.sc.toNat l)))))) →
          let vals := rows.flatMap fun l => (List.range n).map fun j => (l, j, if osmMasked kx l (c0 + j) then 0 else f l (c0 + j))
          let sts := osmStores w d (vals.map fun v => (v.1 - r0, v.2.1,
            (bf16.enc (rndW w) false (osmDraw kx w d (v.1 - r0) v.2.1) (fp32.dec v.2.2)).bits))
          osmDest d = .ok () → inside k sts = true →
          exec i s = .next (s.went t r 0x55 w ((vals.foldl (fun tl v => tl.accSet w.sa.toNat v.1 (c0 + v.2.1) v.2.2)
            (storeAll k sts tl)).vuBusy (4 + ceilDiv (rows.length * n) per)))) := by
  intro s t w x r k hr
  dsimp -zeta only
  refine ⟨?osmv, ?osmb⟩
  case osmv =>
    intro hc tl kx rows
    refine ⟨?accum, ?decide⟩
    case accum =>
      intro fn at' js aligned read u base its items listed
      simp only [readItem_congr (sameCistern_osmItems items)] at listed
      refine (fnInstr_of_fn (congrArg BitVec.toNat fn) _).trans (tileInstr_done hc hr ?_)
      dsimp only
      split
      all_goals
        rename_i part
        cases part.symm.trans (bind_of_ok (e := .ok (u, its)) (need_ok (beq_iff_eq.2 aligned) 0x601 0)
          (bind_of_ok (cisRead_readable read) (bind_of_ok items (bind_of_ok listed rfl))))
      rfl
    case decide =>
      intro fn jmode isOpen finite positive bad u
      have run : ((s.setTile t tl).tile t).run = some r := by rw [tile_setTile_issuing, issuing_run hr]
      refine (fnInstr_of_fn (congrArg BitVec.toNat fn) _).trans (deviceInstr_done hc hr (inDev_ok ?_))
      refine (go_bind_ok (go_liftEx_of_ok (need_ok isOpen _ _)) _).trans ?_
      refine (go_bind_ok (go_liftEx_of_ok (need_ok ?_ _ _)) _).trans ?_
      · exact Bool.and_eq_true_iff.2 ⟨finite, by rw [positive]; rfl⟩
      refine (go_bind_ok (tileJournal_off run jmode _ _ _) _).trans ?_
      have outcome : ∀ b : Bool, ([if b then (1 : Byte) else 0].headD 0 != 0) = b := by decide
      rw [outcome]
      rfl
  case osmb =>
    intro hc tl kx rows d i per f which vals sts dest fits
    obtain ⟨fn, rfl, rfl, rfl⟩ | ⟨fn, rfl, rfl, finite, rfl⟩ := which
    · exact (fnInstr_of_fn (congrArg BitVec.toNat fn) _).trans (tileInstr_done hc hr (osmbBody_ok dest fits))
    · have scale : ¬ (!(fp32.dec (osmDscale kx)).isFin) = true := by simp [finite]
      refine (fnInstr_of_fn (congrArg BitVec.toNat fn) _).trans (tileInstr_done hc hr ?_)
      exact (if_neg scale).trans (osmbBody_ok dest fits)

/-- Settles O19: each body by its checks, its reads and its stores; what a block's mode or mark decides is a case of its own. -/
theorem queryBlocks : Obligations.QueryBlocks := ⟨block_opens_and_runs, block_corrects, block_verifies⟩

end Sys2Proof.Machine
end

section
/-! SUPPORT. The tidy cores. -/

namespace Sys2Proof.Machine

/-- A word out of the bytes of a list of words. -/
theorem word_of_flatMap (l : List W64) (k : Nat) (h : k < l.length) :
    BitVec.ofNat 64 (leNat (((l.flatMap fun q => leBytes 8 q.toNat).drop (8 * k)).take 8)) = l[k] := by
  induction l generalizing k with
  | nil => exact absurd h (Nat.not_lt_zero k)
  | cons q l ih =>
    rw [List.flatMap_cons]
    cases k with
    | zero =>
      rw [Nat.mul_zero, List.drop_zero, List.take_left' (leBytes_length 8 _), leNat_leBytes]
      exact BitVec.eq_of_toNat_eq (by simp [Nat.mod_eq_of_lt q.isLt])
    | succ k =>
      have next : 8 * (k + 1) = (leBytes 8 q.toNat).length + 8 * k := by rw [leBytes_length]; omega
      rw [next, List.drop_length_add_append, ih k (Nat.lt_of_succ_lt_succ h)]
      rfl

/-- The four registers that a post entry goes to, one by one (R111). -/
theorem foldl_words (tl : Tile) (kx : Kx) (d : Nat) (e0 e1 e2 e3 : W64) :
    (List.range 4).foldl (fun tl k => tl.upd kx fun x => x.sSet (d + k) (BitVec.ofNat 64 (leNat
      ((([e0, e1, e2, e3].flatMap fun q => leBytes 8 q.toNat).drop (8 * k)).take 8)))) tl =
    (((tl.upd kx (·.sSet d e0)).upd kx (·.sSet (d + 1) e1)).upd kx (·.sSet (d + 2) e2)).upd kx (·.sSet (d + 3) e3) := by
  have word := word_of_flatMap [e0, e1, e2, e3]
  have four : List.range 4 = [0, 1, 2, 3] := rfl
  simp only [four, List.foldl_cons, List.foldl_nil]
  rw [word 0 (by simp), word 1 (by simp), word 2 (by simp), word 3 (by simp)]
  rfl

/-- An instruction that leaves the program counter to itself. -/
theorem deviceInstr_stay {s s' : State} {t : Nat} {r : Run} {k : LKernel} {opc : Nat} {w : IWord} {x : W64} {i : Instr}
    {body : State → Tile → Kx → State × Act} {tl : Tile} (h : s.canIssue t opc w x = true)
    (hr : (s.tile t).running = some (r, k)) (hb : body s (s.issuing t r opc) (s.seen t r k opc w) = (s', .stay tl)) :
    deviceInstr s t i opc w x body = .next (s'.setTile t tl) := by
  rw [deviceInstr_issue h hr, hb]
  rfl

/-- TRECV and TSIG on their tile (R111 to R113). -/
theorem tidy_instructions :
    ∀ (s : State) (t : Nat) (w : IWord) (r : Run) (k : LKernel), (s.tile t).running = some (r, k) →
      (s.canIssue t 0x76 w 0 = true →
        let tl := s.issuing t r 0x76
        (tl.post = [] → exec (.trecv t w) s = .next (s.setTile t tl)) ∧
        (∀ e0 e1 e2 e3 rest, tl.post = [e0, e1, e2, e3] :: rest → r.jmode = 0 → spWf dTile s.tiles = true →
          let u := { tl with post := rest, run := some { r with effects := true } }; let y := tl.ctx r.ctx; let d := w.dst.toNat
          exec (.trecv t w) s = .next (((s.setTile t tl).setTile t { tl with post := rest }).went t r 0x76 w
            ((((u.setCtx r.ctx (y.sSet d e0)).upd (s.seen t r k 0x76 w) (·.sSet (d + 1) e1)).upd (s.seen t r k 0x76 w)
              (·.sSet (d + 2) e2)).upd (s.seen t r k 0x76 w) (·.sSet (d + 3) e3))))) ∧
      (s.canIssue t 0x75 w 0 = true →
        let tl := s.issuing t r 0x75; let c := fld w.imm.toNat 1 0; let q := tl.inboxOf c
        (∀ e ∈ tl.outstanding, tl.issued ≤ e.seq + 1) → q.length < 8 →
        exec (.tsig t w) s = .next (s.went t r 0x75 w
          { tl with inbox := spSet dInbox tl.inbox c (q ++ [(tl.ctx r.ctx).sGet w.sa.toNat])
                    run := tl.run.map fun r => { r with effects := true } })) := by
  refine fun s t w r k hr => ⟨?trecv, ?tsig⟩
  case trecv =>
    intro hc tl
    refine ⟨?stall, ?take⟩
    case stall =>
      intro empty
      refine deviceInstr_stay hc hr ?_
      dsimp only
      split
      · rfl
      · next some => cases some.symm.trans empty
    case take =>
      intro e0 e1 e2 e3 rest post jmode wf u y d
      refine deviceInstr_done hc hr ?_
      dsimp only
      split
      · next none => cases none.symm.trans post
      · next entry rest' found =>
        cases found.symm.trans post
        have tile : ((s.setTile t tl).setTile t { tl with post := rest }).tile t = { tl with post := rest } := by
          rw [State.tile_setTile (spWf_set dTile wf t tl), if_pos rfl]
        have run : (((s.setTile t tl).setTile t { tl with post := rest }).tile t).run = some r := by
          rw [tile]
          exact issuing_run (opc := 0x76) hr
        refine inDev_ok ?_
        refine (go_bind_ok (go_upd _ _) _).trans ?_
        refine (go_bind_ok (tileJournal_off run jmode _ _ _) _).trans ?_
        refine (go_bind_ok (go_get _) _).trans ?_
        have effect : Tile.effect (((s.setTile t tl).setTile t { tl with post := rest }).tile t) = u := by
          rw [tile, Tile.effect, show tl.run = some r from issuing_run (opc := 0x76) hr]
          rfl
        simp only [effect, go_pure]
        rw [foldl_words]
        rfl
  case tsig =>
    intro hc tl c q earlier room
    have first : (tl.outstanding.any fun e => decide (e.seq < (s.tile t).issued)) = false := by
      have issued : tl.issued = (s.tile t).issued + 1 := rfl
      refine List.any_eq_false.2 fun e he => ?_
      have := earlier e he
      simp only [decide_eq_true_eq]
      omega
    have queued : tl.toInbox c ((tl.ctx r.ctx).sGet w.sa.toNat) =
        some { tl with inbox := spSet dInbox tl.inbox c (q ++ [(tl.ctx r.ctx).sGet w.sa.toNat]) } :=
      if_neg (Nat.not_le.2 room)
    refine tileInstr_done hc hr ((if_neg (Bool.eq_false_iff.1 first)).trans ?_)
    split
    · next none => cases none.symm.trans queued
    · next v found =>
      cases found.symm.trans queued
      rfl

/-- The accesses of a tidy core (R110, R111, R113). -/
theorem tidy_rows :
    ∀ (s : State) (t core : Nat), core < 4 →
      let tl := s.tile t; let q := tl.inboxOf core
      (∀ n v, n < 3 → exec (.tidyPost t core n v) s =
        .next (s.setTile t { tl with latch := spSet dW64 tl.latch (4 * core + n) v })) ∧
      (∀ v, let l := spSet dW64 tl.latch (4 * core + 3) v
        exec (.tidyPost t core 3 v) s = .next (if 16 ≤ tl.post.length then s else s.setTile t { tl with latch := l, post := tl.post ++
          [[spGet dW64 l (4 * core), spGet dW64 l (4 * core + 1), spGet dW64 l (4 * core + 2), spGet dW64 l (4 * core + 3)]] })) ∧
      exec (.tidyInboxRead t core true) s = .next (s.emit (.tidy t core false (leBytes 8 q.length))) ∧
      exec (.tidyInboxRead t core false) s = .next ((s.setTile t { tl with inbox := spSet dInbox tl.inbox core q.tail }).emit
        (.tidy t core false (leBytes 8 (q.headD 0).toNat))) ∧
      (∀ a n, a + n ≤ 65536 → exec (.tidyCisternAccess t core a n none) s =
        .next (s.emit (.tidy t core false (spRead dByte tl.scratch (65536 * core + a) n)))) ∧
      (∀ a n bs, a + bs.length ≤ 65536 → exec (.tidyCisternAccess t core a n (some bs)) s =
        .next (s.setTile t { tl with scratch := spWrite dByte tl.scratch (65536 * core + a) bs })) ∧
      (∀ o n c, tl.act = some c → 0 < n → o + n ≤ ctxSize tl c → badWords tl (ctxBase tl c + o) n = [] →
        exec (.tidyCisternAccess t core (0x10000000 + o) n none) s =
          .next (s.emit (.tidy t core false (tl.cisBytes (ctxBase tl c + o) n)))) ∧
      (∀ o n c bs, tl.act = some c → o + bs.length ≤ ctxSize tl c →
        exec (.tidyCisternAccess t core (0x10000000 + o) n (some bs)) s = .next (s.setTile t (tl.cisPut (ctxBase tl c + o) bs))) := by
  intro s t core hcore
  intro tl q
  have there : ¬ 4 ≤ core := Nat.not_le.2 hcore
  refine ⟨?post, ?commit, ?count, ?load, ?scratchLoad, ?scratchStore, ?cisternLoad, ?cisternStore⟩
  case post =>
    intro n v hn
    have slot : ¬ 4 ≤ n := by omega
    have latched : n ≠ 3 := by omega
    simp only [exec, execTidyPost, there, slot, latched, or_self, if_false, if_true, ne_eq, not_false_iff]
    rfl
  case commit =>
    intro v l
    simp only [exec, execTidyPost, there, Nat.reduceLeDiff, or_self, if_false, ne_eq, not_true_eq_false]
    rfl
  case count => simp only [exec, execTidyInboxRead, there, if_false, if_true]; rfl
  case load => simp only [exec, execTidyInboxRead, there, if_false, Bool.false_eq_true]; rfl
  case scratchLoad =>
    intro a n fits
    simp only [exec, execTidyCisternAccess, there, fits, if_false, if_true]
    rfl
  case scratchStore =>
    intro a n bs fits
    simp only [exec, execTidyCisternAccess, there, fits, if_false, if_true]
    rfl
  case cisternLoad =>
    intro o n c act pos fits good
    have outside : ¬ 0x10000000 + o + n ≤ 65536 := by omega
    have within : 0x10000000 ≤ 0x10000000 + o ∧ 0x10000000 + o + n ≤ 0x10000000 + ctxSize tl c := by omega
    have off : 0x10000000 + o - 0x10000000 = o := by omega
    simp only [tl] at act within good
    simp only [exec, execTidyCisternAccess, there, outside, act, off, good, if_false, if_true]
    rw [if_pos within]
  case cisternStore =>
    intro o n c bs act fits
    have outside : ¬ 0x10000000 + o + bs.length ≤ 65536 := by omega
    have within : 0x10000000 ≤ 0x10000000 + o ∧ 0x10000000 + o + bs.length ≤ 0x10000000 + ctxSize tl c := by omega
    have off : 0x10000000 + o - 0x10000000 = o := by omega
    simp only [tl] at act within
    simp only [exec, execTidyCisternAccess, there, outside, act, off, if_false]
    rw [if_pos within]

/-- Settles O20: TRECV goes through the device with its entry, the other rows act on their tile. -/
theorem tidyCores : Obligations.TidyCores := ⟨tidy_instructions, tidy_rows⟩

end Sys2Proof.Machine
end

section
/-! SUPPORT. What an instruction on its own tile leaves alone. -/

namespace Sys2Proof.Machine

/-- The launch that a tile's task belongs to. -/
def Tile.task (tl : Tile) : Option Nat := tl.run.map (·.launch)

@[simp] theorem Tile.setCtx_task (tl : Tile) (c : Nat) (x : Ctx) : (tl.setCtx c x).task = tl.task := rfl
@[simp] theorem Tile.setReg_task (tl : Tile) (off : Nat) (v : W64) : (tl.setReg off v).task = tl.task := rfl
@[simp] theorem Tile.upd_task (tl : Tile) (kx : Kx) (f : Ctx → Ctx) : (tl.upd kx f).task = tl.task := rfl
@[simp] theorem Tile.accSet_task (tl : Tile) (b m n v : Nat) : (tl.accSet b m n v).task = tl.task := rfl
@[simp] theorem Tile.cisPut_task (tl : Tile) (off : Nat) (bs : List Byte) : (tl.cisPut off bs).task = tl.task := rfl
@[simp] theorem Tile.setChan_task (tl : Tile) (n : Nat) (c : Chan) : (tl.setChan n c).task = tl.task := rfl
@[simp] theorem Tile.perf_task (tl : Tile) (off n : Nat) : (tl.perf off n).task = tl.task := rfl

@[simp] theorem Tile.count_task (tl : Tile) (c : Nat) (e : Exc) : (tl.count c e).task = tl.task := by
  simp only [Tile.task, Tile.count, Option.map_map]
  rfl

@[simp] theorem Tile.setRing_task (tl : Tile) (k : LKernel) (r : Nat) (g : Ring) : (tl.setRing k r g).task = tl.task := by
  unfold Tile.setRing
  split <;> rfl

theorem foldl_task {α : Type} {f : Tile → α → Tile} (h : ∀ tl a, (f tl a).task = tl.task) (l : List α) (tl : Tile) :
    (l.foldl f tl).task = tl.task := by
  induction l generalizing tl with
  | nil => rfl
  | cons a l ih => exact (ih _).trans (h tl a)

theorem foldl_pair_task {α β : Type} {f : Tile × β → α → Tile × β} (h : ∀ st a, (f st a).1.task = st.1.task) (l : List α)
    (st : Tile × β) : (l.foldl f st).1.task = st.1.task := by
  induction l generalizing st with
  | nil => rfl
  | cons a l ih => exact (ih _).trans (h st a)

@[simp] theorem Tile.lastDetail_task (tl : Tile) (r : List Byte) : (tl.lastDetail r).task = tl.task := by
  apply foldl_task
  exact fun _ _ => rfl

@[simp] theorem mapRegion_task (tl : Tile) (b r0 c0 m n : Nat) (f : Nat → Nat → Nat → Nat × Exc) :
    (mapRegion tl b r0 c0 m n f).1.task = tl.task := by
  apply foldl_pair_task
  intro st i
  apply foldl_pair_task
  exact fun _ _ => rfl

@[simp] theorem freeRegion_task (t : Nat) (tl : Tile) (b r0 c0 m n : Nat) : (freeRegion t tl b r0 c0 m n).task = tl.task :=
  mapRegion_task ..

@[simp] theorem Tile.chanEnd_task (tl : Tile) (k : LKernel) (n st status pos elem addr time : Nat) :
    (tl.chanEnd k n st status pos elem addr time).task = tl.task := by
  unfold Tile.chanEnd
  dsimp only
  split <;> rfl

@[simp] theorem Tile.markRows_task (tl : Tile) (kx : Kx) (rows : List Nat) : (tl.markRows kx rows).task = tl.task := rfl

/-! ### What is read and written on the way to an abort -/

theorem ringRelease_task {tl u : Tile} {kx : Kx} {r i : Nat} {cur : Bool} (h : ringRelease tl kx r i cur = .ok u) :
    u.task = tl.task := by
  obtain ⟨-, -, released⟩ := ok_of_bind h
  cases released
  simp

theorem ringTake_task {tl u : Tile} {kx : Kx} {sp : Nat} {im : Image} (h : ringTake tl kx sp = .ok (u, im)) :
    u.task = tl.task := by
  obtain ⟨-, -, h⟩ := ok_of_bind h
  dsimp only at h
  generalize (if decide (fld sp 23 20 = 15) = true then (tl.ring kx.k (fld sp 29 24)).kslot else fld sp 23 20) = i at h
  split at h
  · cases h
  · split at h
    all_goals
      obtain ⟨v, taken, h⟩ := ok_of_bind h
      cases h
    · exact ringRelease_task taken
    · cases taken
      rfl

theorem takeSlots_task (kx : Kx) (sps : List Nat) (tl : Tile) (got : List Image) : (takeSlots kx sps tl got).1.task = tl.task := by
  induction sps generalizing tl got with
  | nil => rfl
  | cons sp sps ih =>
    unfold takeSlots
    split
    · next taken => exact (ih _ _).trans (ringTake_task taken)
    · rfl

theorem cisWrite_task {tl u : Tile} {k : LKernel} {off : Nat} {bs : List Byte} (h : cisWrite tl k off bs = .ok u) :
    u.task = tl.task := by
  obtain ⟨-, -, written⟩ := ok_of_bind h
  cases written
  rfl

theorem cisWrite_task_of_ite {tl u : Tile} {k : LKernel} {off : Nat} {bs : List Byte} {p : Prop} [Decidable p]
    (h : (if p then cisWrite tl k off bs else .ok tl) = .ok u) : u.task = tl.task := by
  split at h
  · exact cisWrite_task h
  · cases h
    rfl

/-- A choice between two parts, each followed by the same one. -/
theorem ok_of_ite_bind {α β : Type} {p : Prop} [Decidable p] {m n : Ex α} {f : α → Ex β} {b : β}
    (h : (if p then m >>= f else n >>= f) = .ok b) : ∃ a, (if p then m else n) = .ok a ∧ f a = .ok b := by
  by_cases hp : p
  · rw [if_pos hp] at h ⊢
    exact ok_of_bind h
  · rw [if_neg hp] at h ⊢
    exact ok_of_bind h

theorem qblkBlock_task {kx : Kx} {p : QProf} {d : TD} {tl u : Tile} {b used : Nat} {xs : List Ext} {ev : Exc} {n : Nat}
    (h : qblkBlock kx p d tl b used xs = .ok (u, ev, n)) : u.task = tl.task := by
  obtain ⟨t1, codes, h⟩ := ok_of_bind h
  obtain ⟨t2, scale, h⟩ := ok_of_bind h
  dsimp only at h
  obtain ⟨t3, outl, h⟩ := ok_of_ite_bind h
  obtain ⟨t4, esc, h⟩ := ok_of_ite_bind h
  cases h
  rw [cisWrite_task_of_ite esc, cisWrite_task_of_ite outl, cisWrite_task scale, cisWrite_task codes]

theorem qblkLoop_task (kx : Kx) (p : QProf) (d : TD) (isBf : Bool) (src b0 : Nat) (is : List Nat) (tl : Tile) (ev : Exc) (used : Nat) :
    (qblkLoop kx p d isBf src b0 is tl ev used).1.task = tl.task := by
  induction is generalizing tl ev used with
  | nil => rfl
  | cons i is ih =>
    unfold qblkLoop
    dsimp only
    split
    · next block =>
      obtain ⟨xs, -, block⟩ := ok_of_bind block
      exact (ih _ _ _).trans (qblkBlock_task block)
    · rfl

theorem vwidLoop_task (kx : Kx) (d : TD) (f : FFmt) (sz dst b0 : Nat) (is : List Nat) (tl : Tile) (ev : Exc) (esc : Nat) :
    (vwidLoop kx d f sz dst b0 is tl ev esc).1.task = tl.task := by
  induction is generalizing tl ev esc with
  | nil => rfl
  | cons i is ih =>
    unfold vwidLoop
    split
    · next block =>
      obtain ⟨g, -, block⟩ := ok_of_bind block
      obtain ⟨u, written, block⟩ := ok_of_bind block
      cases block
      exact (ih _ _ _).trans (cisWrite_task written)
    · rfl

theorem updLoop_task (kx : Kx) (word : IWord) (sq : Bool) (w d : TD) (al be : Ext) (e0 n : Nat) (is : List Nat) (tl : Tile) (ev : Exc) :
    (updLoop kx word sq w d al be e0 n is tl ev).1.task = tl.task := by
  induction is generalizing tl ev with
  | nil => rfl
  | cons i is ih =>
    unfold updLoop
    split
    · next elem =>
      obtain ⟨o, -, elem⟩ := ok_of_bind elem
      obtain ⟨x, -, elem⟩ := ok_of_bind elem
      dsimp only at elem
      refine (ih _ _).trans ?_
      split at elem
      all_goals
        obtain ⟨u, written, elem⟩ := ok_of_bind elem
        cases elem
        exact (cisWrite_task written).trans rfl
    · rfl

theorem writeRows_task (k : LKernel) (sts : List (Nat × List Byte)) (tl : Tile) : (writeRows k sts tl).1.task = tl.task := by
  induction sts generalizing tl with
  | nil => rfl
  | cons p sts ih =>
    obtain ⟨off, bs⟩ := p
    unfold writeRows
    split
    · next written => exact (ih _).trans (cisWrite_task written)
    · rfl

/-! ### Acts -/

/-- An act that aborts a task aborts that of launch `l`. -/
def Act.AbortsIn (l : Option Nat) : Act → Prop
  | .abort tl _ _ => tl.task = l
  | _ => True

theorem abortsIn_of {tl : Tile} (e : Ex Tile) : (Act.of tl e).AbortsIn tl.task := by
  unfold Act.of
  split <;> trivial

theorem abortsIn_ofStop (tl : Tile) (e : Stop) : (Act.ofStop tl e).AbortsIn tl.task := by
  cases e <;> trivial

theorem abortsIn_ofRows {tl : Tile} {r : Tile × Option Stop} (h : r.1.task = tl.task) (f : Tile → Tile) :
    (Act.ofRows r f).AbortsIn tl.task := by
  unfold Act.ofRows
  split
  · trivial
  · exact h
  · trivial

theorem abortsIn_ite {l : Option Nat} {p : Prop} [Decidable p] {a b : Act} (ha : a.AbortsIn l) (hb : b.AbortsIn l) :
    (if p then a else b).AbortsIn l := by
  split
  · exact ha
  · exact hb

theorem abortsIn_mmacBody (tl : Tile) (kx : Kx) (w : IWord) (x : W64) : (mmacBody tl kx w x).AbortsIn tl.task := by
  unfold mmacBody
  dsimp only
  have taken := takeSlots_task kx ((slotSpecs (fld w.imm.toNat 7 0 + 1) (specA x) (specB x)).drop kx.got.length) tl kx.got
  split
  · exact freeRegion_task ..
  · trivial
  · split
    · next slots => rw [slots] at taken; exact (freeRegion_task ..).trans taken
    · trivial
    · next slots =>
      rw [slots] at taken
      split
      · trivial
      · exact (freeRegion_task ..).trans taken
      · trivial

theorem abortsIn_updBody (w : IWord) (x : W64) (fp sq : Bool) (tl : Tile) (kx : Kx) : (updBody w x fp sq tl kx).AbortsIn tl.task := by
  unfold updBody
  dsimp only
  split
  · rfl
  · trivial
  · split
    · next loop => exact (Tile.count_task ..).trans ((congrArg (fun r => r.1.task) loop).symm.trans (updLoop_task ..))
    · trivial

theorem abortsIn_osmbBody (tl : Tile) (kx : Kx) (w : IWord) (x : W64) (per : Nat) (f : Nat → Nat → Nat) :
    (osmbBody tl kx w x per f).AbortsIn tl.task := by
  unfold osmbBody
  dsimp only
  split
  · exact abortsIn_ofStop ..
  · exact abortsIn_ofRows (writeRows_task ..) _

theorem abortsIn_crbBody (tl : Tile) (kx : Kx) (w : IWord) (write : Bool) (addr cis len : Nat) (imm : Option (List Byte)) :
    (crbBody tl kx w write addr cis len imm).AbortsIn tl.task := by
  unfold crbBody
  dsimp only
  split
  · trivial
  · split
    · exact abortsIn_ofStop (tl.upd kx fun x => x.mark true) _
    · refine abortsIn_ite (Tile.lastDetail_task (tl.upd kx fun x => x.mark true) _) ?_
      split
      · exact abortsIn_ofStop (tl.upd kx fun x => x.mark true) _
      · trivial

theorem abortsIn_fcfgAbort (tl : Tile) (kx : Kx) (n code addr : Nat) : (fcfgAbort tl kx n code addr).AbortsIn tl.task :=
  Tile.lastDetail_task ..

/-! ### The state -/

/-- A state that differs from another only in tile `t` and in the tiles of a launch. -/
structure OnlyLaunch (t : Nat) (l : Option Nat) (s s' : State) : Prop where
  device : { s' with tiles := s.tiles } = s
  wf : spWf dTile s'.tiles = true
  others : ∀ u, u ≠ t → (s.tile u).task ≠ l → s'.tile u = s.tile u

section
variable {s s' : State} {t : Nat} {l : Option Nat}

theorem OnlyLaunch.refl (wf : spWf dTile s.tiles = true) : OnlyLaunch t l s s := ⟨rfl, wf, fun _ _ _ => rfl⟩

/-- A tile of the launch, or tile `t`, replaced. -/
theorem OnlyLaunch.setTile (h : OnlyLaunch t l s s') {v : Nat} (own : v = t ∨ (s'.tile v).task = l) (tl : Tile) :
    OnlyLaunch t l s (s'.setTile v tl) := by
  refine ⟨h.device, spWf_set dTile h.wf v tl, fun u hu other => ?_⟩
  have apart : u ≠ v := by
    rintro rfl
    rcases own with own | own
    · exact hu own
    · exact other (h.others u hu other ▸ own)
  rw [State.tile_setTile h.wf, if_neg apart]
  exact h.others u hu other

theorem onlyLaunch_abortGroup (h : OnlyLaunch t (some l') s s') : OnlyLaunch t (some l') s (abortGroup s' l' t) := by
  unfold abortGroup
  generalize List.range 64 = us
  induction us generalizing s' with
  | nil => exact h
  | cons v us ih =>
    refine ih ?_
    dsimp only
    split
    · next own => exact h.setTile (.inr own.2) _
    · exact h

theorem ueFound_task (tl : Tile) (word : Nat) : (tl.ueFound word).task = tl.task := by
  unfold Tile.ueFound
  dsimp only
  split
  · rfl
  · exact Tile.setReg_task ..

theorem onlyLaunch_abortTile (wf : spWf dTile s.tiles = true) {tl : Tile} (task : tl.task = l) (code detail : Nat) :
    OnlyLaunch t l s (abortTile s t tl code detail) := by
  unfold abortTile
  dsimp only
  have same : (if code = 0x801 then tl.ueFound detail else tl).task = l := by
    split
    · rw [ueFound_task, task]
    · exact task
  generalize (if code = 0x801 then tl.ueFound detail else tl) = u at same
  split
  · exact (OnlyLaunch.refl wf).setTile (.inl rfl) _
  · next r k running =>
    have launch : l = some r.launch := by rw [← same, Tile.task, running_run running]; rfl
    subst launch
    exact onlyLaunch_abortGroup ((OnlyLaunch.refl wf).setTile (.inl rfl) _)

section
variable {body : Tile → Kx → Act} (wf : spWf dTile s.tiles = true) (h : ∀ tl kx, (body tl kx).AbortsIn tl.task)
include wf h

omit wf in
theorem abort_task {tl u : Tile} {kx : Kx} {c d : Nat} (act : body tl kx = .abort u c d) : u.task = tl.task := by
  have aborts := h tl kx
  rwa [act] at aborts

theorem onlyLaunch_retryHead (r : Run) (k : LKernel) (q : Nat) (e : QEntry) :
    OnlyLaunch t (s.tile t).task s (retryHead s t (s.tile t) r k q e fun s tl kx => (s, body tl kx)) := by
  unfold retryHead
  dsimp only
  split
  case h_5 act => exact onlyLaunch_abortTile wf (abort_task h act) _ _
  all_goals exact (OnlyLaunch.refl wf).setTile (.inl rfl) _

theorem onlyLaunch_issueNew (r : Run) (k : LKernel) (i : Instr) (opc : Nat) (w : IWord) (x : W64) :
    OnlyLaunch t (s.tile t).task s (issueNew s t (s.tile t) r k i opc w x fun s tl kx => (s, body tl kx)) := by
  unfold issueNew
  dsimp only
  split
  · exact onlyLaunch_abortTile wf rfl _ _
  split
  · exact .refl wf
  split
  · exact (OnlyLaunch.refl wf).setTile (.inl rfl) _
  split
  · exact .refl wf
  split
  · exact (OnlyLaunch.refl wf).setTile (.inl rfl) _
  split
  case h_5 act => exact onlyLaunch_abortTile wf ((abort_task h act).trans rfl) _ _
  all_goals exact (OnlyLaunch.refl wf).setTile (.inl rfl) _

theorem onlyLaunch_tileInstr {i : Instr} {opc : Nat} {w : IWord} {x : W64} (run : tileInstr s t i opc w x body = .next s') :
    OnlyLaunch t (s.tile t).task s s' := by
  unfold tileInstr deviceInstr at run
  split at run
  · cases run
    unfold runInstr
    dsimp only
    split
    · exact .refl wf
    · split
      · split
        · exact onlyLaunch_retryHead wf h ..
        · split
          · exact .refl wf
          · exact onlyLaunch_issueNew wf h ..
      · split
        · exact .refl wf
        · exact onlyLaunch_issueNew wf h ..
  · cases run

end
end

/-! ### The instructions -/

theorem next_of_fnInstr {fn : Nat} {w : IWord} {a : Res} {s : State} (h : fnInstr fn w a = .next s) : a = .next s := by
  unfold fnInstr at h
  split at h
  · exact h
  · cases h

theorem OnlyLaunch.stays {s s' : State} {t : Nat} (h : OnlyLaunch t (s.tile t).task s s') :
    { s' with tiles := s.tiles } = s ∧
      ∀ u, u ≠ t → (s.tile u).run.map (·.launch) ≠ (s.tile t).run.map (·.launch) → s'.tile u = s.tile u :=
  ⟨h.device, h.others⟩

/-- Settles O6: each body acts on its tile alone, and what it aborts is the task that it runs in. -/
theorem tileInstructionsStayInTheirLaunch : Obligations.TileInstructionsStayInTheirLaunch := by
  intro s s' t w x wf
  simp only [List.forall_mem_cons]
  refine ⟨?nop, ?alu, ?alui, ?li, ?cmp, ?pop, ?br, ?brr, ?loop, ?fpu, ?waitq, ?fence, ?kend, ?rdsr, ?wrsr, ?lds, ?sts, ?adda,
    ?mova, ?tdld, ?tdst, ?tdset, ?tdget, ?mmac, ?mzero, ?mdrain, ?mpad, ?mlen, ?vop, ?vopb, ?vcmp, ?vcvt, ?vld, ?vst, ?vred,
    ?qblk, ?vwid, ?vperm, ?vbcast, ?vacc, ?sfn, ?stab, ?osmn, ?osmx, ?osme, ?osmcCorr, ?osmcFin, ?osmcMerge, ?osmcSave,
    ?osmcLoad, ?osmvAccum, ?osmbProb, ?osmbDscore, ?upd, ?upds, ?slcw, ?mbxSend, ?mbxCount, ?tsig, ?fcfg, ?fgo, ?fwait,
    ?fstop, ?frel, ?crbRead, ?crbWrite, ?crbWriteImmediate, nofun⟩
  all_goals refine fun run => OnlyLaunch.stays ?_
  case osmcCorr =>
    refine onlyLaunch_tileInstr wf (fun tl kx => ?_) (next_of_fnInstr run)
    exact trivial
  case osmcFin =>
    refine onlyLaunch_tileInstr wf (fun tl kx => ?_) (next_of_fnInstr run)
    dsimp only
    refine abortsIn_ite rfl (abortsIn_ite (abortsIn_ite ?_ trivial) trivial)
    show Tile.task _ = _
    split <;> rfl
  case osmcMerge | osmcLoad | osmvAccum =>
    refine onlyLaunch_tileInstr wf (fun tl kx => ?_) (next_of_fnInstr run)
    dsimp only
    split
    · exact abortsIn_ofStop ..
    · trivial
  case osmcSave =>
    refine onlyLaunch_tileInstr wf (fun tl kx => ?_) (next_of_fnInstr run)
    exact abortsIn_ite rfl (abortsIn_ofRows (writeRows_task ..) _)
  case osmbProb =>
    refine onlyLaunch_tileInstr wf (fun tl kx => ?_) (next_of_fnInstr run)
    exact abortsIn_osmbBody ..
  case osmbDscore =>
    refine onlyLaunch_tileInstr wf (fun tl kx => ?_) (next_of_fnInstr run)
    exact abortsIn_ite rfl (abortsIn_osmbBody ..)
  case mbxSend =>
    refine onlyLaunch_tileInstr wf (fun tl kx => ?_) (next_of_fnInstr run)
    refine abortsIn_ite rfl (abortsIn_ite rfl (abortsIn_ite trivial ?_))
    split
    · rfl
    · trivial
    · trivial
  case mbxCount =>
    refine onlyLaunch_tileInstr wf (fun tl kx => ?_) (next_of_fnInstr run)
    exact abortsIn_ite rfl trivial
  case crbRead | crbWrite | crbWriteImmediate =>
    refine onlyLaunch_tileInstr wf (fun tl kx => ?_) (next_of_fnInstr run)
    exact abortsIn_crbBody ..
  all_goals refine onlyLaunch_tileInstr wf (fun tl kx => ?_) run
  case lds | sts | tdld | tdst | vld | stab => exact abortsIn_of _
  case waitq | fence | kend => exact abortsIn_ite trivial trivial
  case nop | alu | alui | li | cmp | pop | fpu | rdsr | wrsr | adda | mova | tdset | tdget | mzero | mpad | mlen | vop | vopb | vcmp | vcvt |
      vperm | vbcast => exact trivial
  case br => exact abortsIn_ite rfl trivial
  case brr => exact abortsIn_ite trivial rfl
  case loop => exact abortsIn_ite rfl (abortsIn_ite trivial trivial)
  case vacc => exact abortsIn_ite trivial (abortsIn_ite trivial trivial)
  case vred => exact abortsIn_ite trivial (abortsIn_ite trivial (abortsIn_of _))
  case sfn => exact abortsIn_ite rfl trivial
  case mmac => exact abortsIn_mmacBody ..
  case upd | upds => exact abortsIn_updBody ..
  case fwait =>
    exact abortsIn_ite rfl (abortsIn_ite (abortsIn_ite trivial trivial) (abortsIn_ite rfl (abortsIn_ite trivial (abortsIn_ite trivial rfl))))
  case fstop => exact abortsIn_ite trivial trivial
  case slcw => exact abortsIn_ite trivial (abortsIn_of _)
  case osmn => exact abortsIn_ite rfl trivial
  case osmx => exact abortsIn_ite (abortsIn_ite rfl trivial) trivial
  case tsig =>
    refine abortsIn_ite trivial ?_
    split <;> trivial
  case frel =>
    refine abortsIn_ite (abortsIn_of _) (abortsIn_ite (abortsIn_ite trivial trivial) (abortsIn_ite rfl (abortsIn_ite trivial ?_)))
    exact abortsIn_ite trivial trivial
  case fcfg =>
    refine abortsIn_ite (abortsIn_fcfgAbort ..) (abortsIn_ite (abortsIn_fcfgAbort ..) (abortsIn_ite (abortsIn_fcfgAbort ..) ?_))
    split
    · exact abortsIn_ofStop ..
    · split
      · exact abortsIn_fcfgAbort ..
      · trivial
  case fgo =>
    refine abortsIn_ite rfl (abortsIn_ite rfl ?_)
    dsimp only
    split
    · exact abortsIn_ofStop ..
    · exact abortsIn_ite ((Tile.lastDetail_task ..).trans (Tile.chanEnd_task ..)) (abortsIn_ite trivial trivial)
  case vst =>
    split
    · rfl
    · trivial
    · exact abortsIn_ofRows (writeRows_task ..) _
  case mdrain | osme =>
    dsimp only
    split
    · rfl
    · trivial
    · exact abortsIn_ofRows (writeRows_task ..) _
  case qblk =>
    dsimp only
    split
    · rfl
    · trivial
    · split
      · next loop => exact (Tile.count_task ..).trans ((congrArg (fun r => r.1.task) loop).symm.trans (qblkLoop_task ..))
      · trivial
  case vwid =>
    dsimp only
    split
    · rfl
    · trivial
    · split
      · next loop => exact (Tile.count_task ..).trans ((congrArg (fun r => r.1.task) loop).symm.trans (vwidLoop_task ..))
      · trivial

end Sys2Proof.Machine
end

section
/-! SUPPORT. The canonical form of a tile's registers and memories, and what keeps it. -/

namespace Sys2Proof.Machine

/-- A context's canonical form, register file by register file. -/
structure Ctx.Canonical (x : Ctx) : Prop where
  s : spWf dW64 x.s = true
  a : spWf dW64 x.a = true
  p : spWf dPred x.p = true
  td : spWf dTDesc x.td = true
  osm : spWf dOsm x.osm = true

theorem Ctx.wf_iff (x : Ctx) : x.wf = true ↔ x.Canonical := by
  simp only [Ctx.wf, Bool.and_eq_true, and_assoc]
  exact ⟨fun ⟨s, a, p, td, osm⟩ => ⟨s, a, p, td, osm⟩, fun ⟨s, a, p, td, osm⟩ => ⟨s, a, p, td, osm⟩⟩

/-- A tile's canonical form, memory by memory. -/
structure Tile.Canonical (tl : Tile) : Prop where
  regs : spWf dW64 tl.regs = true
  ctxs : spWf dCtx tl.ctxs = true
  v : spWf dW32 tl.v = true
  acc : spWf dW32 tl.acc = true
  st : spWf dW64 tl.st = true
  cis : spWf dByte tl.cis = true
  bad : spWf dBool tl.bad = true
  soft : spWf dBool tl.soft = true
  code : spWf dByte tl.code = true
  sfu : spWf dSfu tl.sfu = true
  chans : spWf dChan tl.chans = true
  crumbs : spWf dCrumb tl.crumbs = true
  slc : spWf dSlc tl.slc = true
  queues : spWf dQueue tl.queues = true
  inbox : spWf dInbox tl.inbox = true
  latch : spWf dW64 tl.latch = true
  scratch : spWf dByte tl.scratch = true
  each : ∀ e ∈ tl.ctxs, e.2.Canonical

theorem Tile.wf_iff (tl : Tile) : tl.wf = true ↔ tl.Canonical := by
  simp only [Tile.wf, Bool.and_eq_true, and_assoc, List.all_eq_true, Ctx.wf_iff]
  constructor
  · rintro ⟨regs, ctxs, v, acc, st, cis, bad, soft, code, sfu, chans, crumbs, slc, queues, inbox, latch, scratch, each⟩
    exact ⟨regs, ctxs, v, acc, st, cis, bad, soft, code, sfu, chans, crumbs, slc, queues, inbox, latch, scratch, each⟩
  · rintro ⟨regs, ctxs, v, acc, st, cis, bad, soft, code, sfu, chans, crumbs, slc, queues, inbox, latch, scratch, each⟩
    exact ⟨regs, ctxs, v, acc, st, cis, bad, soft, code, sfu, chans, crumbs, slc, queues, inbox, latch, scratch, each⟩

/-! ### Sparse storage -/

section
variable {α : Type} [DecidableEq α] {d : Nat → α} {P : α → Prop} {m : Sparse α}

omit [DecidableEq α] in
/-- A read gives the default or a stored value. -/
theorem spGet_of_forall (h : ∀ e ∈ m, P e.2) (k : Nat) (default : P (d k)) : P (spGet d m k) := by
  induction m with
  | nil => exact default
  | cons e m ih =>
    obtain ⟨j, v⟩ := e
    unfold spGet
    split
    · exact h _ (List.mem_cons_self ..)
    · split
      · exact default
      · exact ih fun e he => h e (List.mem_cons_of_mem _ he)

omit [DecidableEq α] in
theorem mem_of_mem_spErase {k : Nat} {e : Nat × α} (h : e ∈ spErase m k) : e ∈ m := by
  induction m with
  | nil => exact h
  | cons a m ih =>
    obtain ⟨j, v⟩ := a
    unfold spErase at h
    split at h
    · exact List.mem_cons_of_mem _ h
    · split at h
      · exact h
      · rcases List.mem_cons.1 h with rfl | h
        · exact List.mem_cons_self ..
        · exact List.mem_cons_of_mem _ (ih h)

omit [DecidableEq α] in
theorem mem_of_mem_spInsert {k : Nat} {x : α} {e : Nat × α} (h : e ∈ spInsert m k x) : e = (k, x) ∨ e ∈ m := by
  induction m with
  | nil => exact .inl (List.mem_singleton.1 h)
  | cons a m ih =>
    obtain ⟨j, v⟩ := a
    unfold spInsert at h
    split at h
    · exact (List.mem_cons.1 h).imp_right (List.mem_cons_of_mem _)
    · split at h
      · exact List.mem_cons.1 h
      · rcases List.mem_cons.1 h with rfl | h
        · exact .inr (List.mem_cons_self ..)
        · exact (ih h).imp_right (List.mem_cons_of_mem _)

theorem forall_spSet (h : ∀ e ∈ m, P e.2) (k : Nat) {x : α} (hx : P x) : ∀ e ∈ spSet d m k x, P e.2 := by
  intro e he
  unfold spSet at he
  split at he
  · exact h e (mem_of_mem_spErase he)
  · rcases mem_of_mem_spInsert he with rfl | he
    · exact hx
    · exact h e he

end

theorem spWf_clearBad {bad : Sparse Bool} (h : spWf dBool bad = true) (off n : Nat) : spWf dBool (clearBad bad off n) = true := by
  unfold clearBad
  generalize List.range _ = is
  induction is generalizing bad with
  | nil => exact h
  | cons i is ih => exact ih (spWf_set _ h ..)

theorem spWf_bumpFrom {regs : Sparse W64} (h : spWf dW64 regs = true) (off : Nat) (ns : List Nat) :
    spWf dW64 (bumpFrom regs off ns) = true := by
  induction ns generalizing regs off with
  | nil => exact h
  | cons n ns ih =>
    refine ih ?_ _
    split
    · exact h
    · exact spWf_set _ h ..

/-! ### Contexts -/

theorem Ctx.canonical_reset : Ctx.reset.Canonical := (Ctx.wf_iff _).1 rfl

namespace Ctx.Canonical
variable {x : Ctx} (h : x.Canonical)
include h

theorem sSet (n : Nat) (v : W64) : (x.sSet n v).Canonical := by
  unfold Ctx.sSet
  split
  · exact h
  · exact { h with s := spWf_set _ h.s .. }

theorem aSet (n : Nat) (v : W64) : (x.aSet n v).Canonical := { h with a := spWf_set _ h.a .. }

theorem pSet (n : Nat) (v : Pred) : (x.pSet n v).Canonical := by
  unfold Ctx.pSet
  split
  · exact h
  · exact { h with p := spWf_set _ h.p .. }

theorem tdSet (n : Nat) (v : TDesc) : (x.tdSet n v).Canonical := { h with td := spWf_set _ h.td .. }

/-- What is no register file does not matter. -/
theorem flow (pc : Nat) (loops : List Loop) : ({ x with pc := pc, loops := loops } : Ctx).Canonical := { h with }

theorem mark (u : Bool) : (x.mark u).Canonical := by
  unfold Ctx.mark
  split
  · exact { h with }
  · exact h

theorem branch (target : Nat) : (x.branch target).Canonical := h.flow ..

theorem advance (len : Nat) : (x.advance len).Canonical := by
  unfold Ctx.advance
  split
  · exact h.flow ..
  · split
    · split
      · exact h.flow ..
      · exact h.flow ..
    · exact h.flow ..

theorem leaveLoop : x.leaveLoop.Canonical := by
  unfold Ctx.leaveLoop
  split
  · exact h
  · dsimp only
    split
    · exact h.flow ..
    · split
      · split
        · exact h.flow ..
        · exact h.flow ..
      · exact h.flow ..

end Ctx.Canonical

/-! ### Tiles -/

namespace Tile.Canonical
variable {tl : Tile} (h : tl.Canonical)
include h

theorem ctx (c : Nat) : (tl.ctx c).Canonical := spGet_of_forall h.each c Ctx.canonical_reset

theorem setCtx (c : Nat) {x : Ctx} (hx : x.Canonical) : (tl.setCtx c x).Canonical :=
  { h with ctxs := spWf_set _ h.ctxs .., each := forall_spSet h.each c hx }

theorem upd (kx : Kx) {f : Ctx → Ctx} (keeps : ∀ x : Ctx, x.Canonical → (f x).Canonical) : (tl.upd kx f).Canonical :=
  h.setCtx _ (keeps _ (h.ctx _))

theorem putS (kx : Kx) (n : BitVec 6) (v : W64) : (tl.putS kx n v).Canonical := h.upd kx fun _ hx => hx.sSet ..

theorem putA (kx : Kx) (n : BitVec 6) (v : W64) : (tl.putA kx n v).Canonical := h.upd kx fun _ hx => hx.aSet ..

theorem advance (c len : Nat) : (tl.advance c len).Canonical := h.setCtx c ((h.ctx c).advance len)

theorem setReg (off : Nat) (v : W64) : (tl.setReg off v).Canonical := { h with regs := spWf_set _ h.regs .. }

theorem counters {regs : Sparse W64} (hregs : spWf dW64 regs = true) (run : Option Run) :
    ({ tl with regs := regs, run := run } : Tile).Canonical := { h with regs := hregs }

theorem count (c : Nat) (e : Exc) : (tl.count c e).Canonical := by
  have counted := spWf_bumpFrom h.regs (excBase c) e.list
  unfold Tile.count
  exact h.counters (spWf_set dW64 counted _ _) _

theorem cisPut (off : Nat) (bs : List Byte) : (tl.cisPut off bs).Canonical :=
  { h with cis := spWf_write _ h.cis .., bad := spWf_clearBad h.bad .., soft := spWf_clearBad h.soft .. }

theorem setQueue (q : Nat) (es : List QEntry) : (tl.setQueue q es).Canonical := { h with queues := spWf_set _ h.queues .. }

theorem numbered (n : Nat) : ({ tl with issued := n } : Tile).Canonical := { h with }

theorem chanEnd (k : LKernel) (n st status pos elem addr time : Nat) : (tl.chanEnd k n st status pos elem addr time).Canonical := by
  have ended (c : Chan) : ({ tl with chans := spSet dChan tl.chans n c } : Tile).Canonical :=
    { h with chans := spWf_set _ h.chans .. }
  unfold Tile.chanEnd
  dsimp only
  split
  · exact ended _
  · exact (ended _).cisPut ..

theorem stopChans (k : LKernel) (time : Nat) : (tl.stopChans k time).Canonical := by
  unfold Tile.stopChans
  generalize List.range 32 = ns
  induction ns generalizing tl with
  | nil => exact h
  | cons n ns ih =>
    refine ih ?_
    dsimp only
    split
    · exact h.chanEnd ..
    · exact h

theorem emptied (aborting : Bool) (run : Option Run) :
    ({ tl with queues := [], aborting := aborting, run := run } : Tile).Canonical := { h with queues := rfl }

theorem abortTask (code detail time : Nat) : (tl.abortTask code detail time).Canonical := by
  unfold Tile.abortTask
  split
  · exact h
  · exact (h.stopChans ..).emptied ..

theorem ueFound (word : Nat) : (tl.ueFound word).Canonical := by
  unfold Tile.ueFound
  dsimp only
  split
  · exact h
  · exact h.setReg ..

theorem cisWrite {u : Tile} {k : LKernel} {off : Nat} {bs : List Byte} (written : cisWrite tl k off bs = .ok u) : u.Canonical := by
  obtain ⟨-, -, written⟩ := ok_of_bind written
  cases written
  exact h.cisPut ..

end Tile.Canonical

/-! ### Acts -/

/-- An act whose tile is in canonical form. -/
def Act.Canonical : Act → Prop
  | .done tl | .stay tl | .wait tl _ | .started tl _ | .abort tl _ _ => tl.Canonical

theorem canonical_ite {p : Prop} [Decidable p] {a b : Act} (ha : a.Canonical) (hb : b.Canonical) : (if p then a else b).Canonical := by
  split
  · exact ha
  · exact hb

theorem canonical_of {tl : Tile} (h : tl.Canonical) {e : Ex Tile} (ok : ∀ u, e = .ok u → u.Canonical) : (Act.of tl e).Canonical := by
  unfold Act.of
  split
  · exact ok _ rfl
  · exact h
  · exact h

/-! ### The state -/

/-- A state whose tiles are all in canonical form. -/
structure State.CanonicalTiles (s : State) : Prop where
  wf : spWf dTile s.tiles = true
  each : ∀ u, (s.tile u).Canonical

namespace State.CanonicalTiles
variable {s : State} (h : s.CanonicalTiles)
include h

theorem setTile (t : Nat) {tl : Tile} (ht : tl.Canonical) : (s.setTile t tl).CanonicalTiles := by
  refine ⟨spWf_set dTile h.wf t tl, fun u => ?_⟩
  rw [State.tile_setTile h.wf]
  split
  · exact ht
  · exact h.each u

theorem abortGroup (l t : Nat) : (abortGroup s l t).CanonicalTiles := by
  unfold Machine.abortGroup
  generalize List.range 64 = us
  induction us generalizing s with
  | nil => exact h
  | cons u us ih =>
    refine ih ?_
    dsimp only
    split
    · exact h.setTile _ ((h.each u).abortTask ..)
    · exact h

theorem abortTile (t : Nat) {tl : Tile} (ht : tl.Canonical) (code detail : Nat) : (abortTile s t tl code detail).CanonicalTiles := by
  unfold Machine.abortTile
  dsimp only
  have found : (if code = 0x801 then tl.ueFound detail else tl).Canonical := by
    split
    · exact ht.ueFound _
    · exact ht
  split
  · exact h.setTile _ found
  · exact (h.setTile _ (found.abortTask ..)).abortGroup ..

section
variable {body : Tile → Kx → Act} (keeps : ∀ tl kx, tl.Canonical → (body tl kx).Canonical)
include keeps

theorem retryHead (t : Nat) (r : Run) (k : LKernel) (q : Nat) (e : QEntry) :
    (retryHead s t (s.tile t) r k q e fun s tl kx => (s, body tl kx)).CanonicalTiles := by
  have act := keeps (s.tile t) (kxOf s t (s.tile t) r k e) (h.each t)
  unfold Machine.retryHead
  dsimp only
  split
  case h_5 eq => rw [eq] at act; exact h.abortTile _ act ..
  all_goals
    next eq =>
      rw [eq] at act
      exact h.setTile _ (act.setQueue ..)

theorem issueNew (t : Nat) (r : Run) (k : LKernel) (i : Instr) (opc : Nat) (w : IWord) (x : W64) :
    (issueNew s t (s.tile t) r k i opc w x fun s tl kx => (s, body tl kx)).CanonicalTiles := by
  have issuing : ({ (s.tile t).setCtx r.ctx (((s.tile t).ctx r.ctx).mark (kzQueue opc == 4)) with
      issued := (s.tile t).issued + 1 } : Tile).Canonical :=
    ((h.each t).setCtx _ (((h.each t).ctx _).mark _)).numbered _
  unfold Machine.issueNew
  dsimp only
  split
  · exact h.abortTile _ (h.each t) ..
  split
  · exact h
  split
  · exact h.setTile _ ((h.each t).advance ..)
  split
  · exact h
  split
  · exact h.setTile _ ((issuing.setQueue ..).advance ..)
  split
  case h_1 eq => exact h.setTile _ (Tile.Canonical.advance (Eq.mp (congrArg Act.Canonical eq) (keeps _ _ issuing)) ..)
  case h_2 eq => exact h.setTile _ (Eq.mp (congrArg Act.Canonical eq) (keeps _ _ issuing))
  case h_5 eq => exact h.abortTile _ (Eq.mp (congrArg Act.Canonical eq) (keeps _ _ issuing)) ..
  all_goals
    next eq =>
      have act := Eq.mp (congrArg Act.Canonical eq) (keeps _ _ issuing)
      exact h.setTile _ ((Tile.Canonical.setQueue act ..).advance ..)

theorem tileInstr {s' : State} {t : Nat} {i : Instr} {opc : Nat} {w : IWord} {x : W64} (run : tileInstr s t i opc w x body = .next s') :
    s'.CanonicalTiles := by
  unfold Machine.tileInstr deviceInstr at run
  split at run
  · cases run
    unfold runInstr
    dsimp only
    split
    · exact h
    · split
      · split
        · exact h.retryHead keeps ..
        · split
          · exact h
          · exact h.issueNew keeps ..
      · split
        · exact h
        · exact h.issueNew keeps ..
  · cases run

end

theorem loopEnd {s' : State} {t : Nat} (run : execLoopEnd t s = .next s') : s'.CanonicalTiles := by
  cases run
  split
  · exact h
  · split
    · exact h.setTile _ ((h.each t).setCtx _ ((h.each t).ctx _).leaveLoop)
    · exact h

end State.CanonicalTiles

/-- Settles O8: each body writes registers and bytes one by one, and every such write keeps the canonical form. -/
theorem scalarPipeKeepsCanonicalTiles : Obligations.ScalarPipeKeepsCanonicalTiles := by
  intro s s' t w x wf each
  have h : s.CanonicalTiles := ⟨wf, fun u => (Tile.wf_iff _).1 (each u)⟩
  simp only [List.forall_mem_cons]
  refine ⟨?nop, ?alu, ?alui, ?li, ?cmp, ?pop, ?br, ?brr, ?loop, ?loopEnd, ?fpu, ?lds, ?sts, ?adda, ?mova, ?tdld, ?tdst, ?tdset, ?tdget,
    ?fence, ?waitq, nofun⟩
  all_goals
    intro run
    suffices s'.CanonicalTiles from ⟨this.wf, fun u => (Tile.wf_iff _).2 (this.each u)⟩
  case loopEnd => exact h.loopEnd run
  all_goals refine h.tileInstr (fun tl kx ht => ?_) run
  case nop => exact ht
  case alu | alui | tdget => exact ht.putS ..
  case adda => exact ht.putA ..
  case cmp | pop => exact ht.upd _ fun _ hx => hx.pSet ..
  case tdset => exact ht.upd _ fun _ hx => hx.tdSet ..
  case fpu => exact (ht.putS ..).count ..
  case waitq | fence => exact canonical_ite ht ht
  case br => exact canonical_ite ht (ht.upd _ fun _ hx => hx.branch _)
  case brr => exact canonical_ite (ht.upd _ fun _ hx => hx.branch _) ht
  case loop => exact canonical_ite ht (canonical_ite (ht.upd _ fun _ hx => hx.flow ..) (ht.upd _ fun _ hx => hx.flow ..))
  case li =>
    show Tile.Canonical _
    split
    · exact ht.putS ..
    · exact ht.putA ..
  case mova =>
    show Tile.Canonical _
    split
    · exact ht.putA ..
    · exact ht.putS ..
  case sts | tdst => exact canonical_of ht fun u ok => ht.cisWrite ok
  case lds =>
    refine canonical_of ht fun u ok => ?_
    obtain ⟨bs, -, ok⟩ := ok_of_bind ok
    cases ok
    exact ht.putS ..
  case tdld =>
    refine canonical_of ht fun u ok => ?_
    obtain ⟨bs, -, ok⟩ := ok_of_bind ok
    cases ok
    exact ht.upd _ fun _ hx => hx.tdSet ..

end Sys2Proof.Machine
end

section
/-! SUPPORT. Fields of a register, bit by bit. -/

namespace Sys2Proof.Machine

theorem testBit_fld (v hi lo j : Nat) : (fld v hi lo).testBit j = (decide (j < hi + 1 - lo) && v.testBit (lo + j)) := by
  rw [fld, Nat.testBit_mod_two_pow, Nat.testBit_shiftRight]

/-- A value with a field replaced: what lies above the field, the field, and what lies below it. -/
theorem setFld_eq (v hi lo x : Nat) :
    setFld v hi lo x =
      2 ^ lo * (2 ^ (hi + 1 - lo) * (v / 2 ^ lo / 2 ^ (hi + 1 - lo)) + x % 2 ^ (hi + 1 - lo)) + v % 2 ^ lo := by
  generalize width : 2 ^ (hi + 1 - lo) = n
  have split := Nat.div_add_mod v (2 ^ lo)
  have split' := Nat.div_add_mod (v / 2 ^ lo) n
  rw [setFld, fld, width, Nat.shiftRight_eq_div_pow, Nat.shiftLeft_eq, Nat.shiftLeft_eq]
  generalize v / 2 ^ lo = q at *
  have whole : v = 2 ^ lo * (n * (q / n)) + 2 ^ lo * (q % n) + v % 2 ^ lo := by rw [← mul_add, split', split]
  have part : q % n * 2 ^ lo = 2 ^ lo * (q % n) := mul_comm ..
  have part' : x % n * 2 ^ lo = 2 ^ lo * (x % n) := mul_comm ..
  rw [mul_add]
  omega

/-- A field replaced takes the value's bits; every other bit stays. -/
theorem testBit_setFld (v hi lo x i : Nat) :
    (setFld v hi lo x).testBit i = if lo ≤ i ∧ i < lo + (hi + 1 - lo) then x.testBit (i - lo) else v.testBit i := by
  generalize width : hi + 1 - lo = n
  rw [setFld_eq, width, Nat.testBit_two_pow_mul_add _ (Nat.mod_lt _ (Nat.two_pow_pos lo))]
  by_cases below : i < lo
  · rw [if_pos below, if_neg (by omega), Nat.testBit_mod_two_pow, decide_eq_true below, Bool.true_and]
  · rw [if_neg below, Nat.testBit_two_pow_mul_add _ (Nat.mod_lt _ (Nat.two_pow_pos n))]
    by_cases inside : i - lo < n
    · rw [if_pos inside, if_pos (by omega), Nat.testBit_mod_two_pow, decide_eq_true inside, Bool.true_and]
    · rw [if_neg inside, if_neg (by omega), Nat.testBit_div_two_pow, Nat.testBit_div_two_pow]
      congr 1
      omega

theorem fld_setFld_same (v hi lo x : Nat) : fld (setFld v hi lo x) hi lo = x % 2 ^ (hi + 1 - lo) := by
  refine Nat.eq_of_testBit_eq fun j => ?_
  rw [testBit_fld, testBit_setFld, Nat.testBit_mod_two_pow, Nat.add_sub_cancel_left]
  by_cases inside : j < hi + 1 - lo
  · rw [if_pos (by omega)]
  · simp [inside]

theorem fld_setFld_apart {hi lo hi' lo' : Nat} (apart : hi < lo' ∨ hi' < lo) (v x : Nat) :
    fld (setFld v hi lo x) hi' lo' = fld v hi' lo' := by
  refine Nat.eq_of_testBit_eq fun j => ?_
  rw [testBit_fld, testBit_fld, testBit_setFld]
  by_cases inside : j < hi' + 1 - lo'
  · rw [if_neg (by omega)]
  · simp [inside]

/-- A field within a word replaced leaves a word. -/
theorem setFld_lt {v n hi : Nat} (hv : v < 2 ^ n) (hhi : hi < n) (lo x : Nat) : setFld v hi lo x < 2 ^ n := by
  refine Nat.lt_pow_two_of_testBit _ fun i hi' => ?_
  rw [testBit_setFld, if_neg (by omega)]
  exact Nat.testBit_lt_two_pow (hv.trans_le (Nat.pow_le_pow_right (by omega) hi'))

/-! ### Registers outside the tiles -/

theorem State.setF_regs_eq (s : State) (off hi lo v : Nat) :
    s.setF off hi lo v = s.setReg off (BitVec.ofNat 64 (setFld (s.rn off) hi lo v)) := rfl

theorem State.spWf_setF {s : State} (wf : spWf regInit s.regs = true) (off hi lo v : Nat) :
    spWf regInit (s.setF off hi lo v).regs = true := State.spWf_setReg wf ..

theorem State.rn_setF {s : State} (wf : spWf regInit s.regs = true) (off : Nat) {hi : Nat} (hhi : hi < 64) (lo v i : Nat) :
    (s.setF off hi lo v).rn i = if i = off then setFld (s.rn off) hi lo v else s.rn i := by
  rw [State.rn, State.setF_regs_eq, State.reg_setReg wf]
  split
  · rw [BitVec.toNat_ofNat]
    exact Nat.mod_eq_of_lt (setFld_lt (BitVec.isLt _) hhi lo v)
  · rfl

theorem State.rf_setF_same {s : State} (wf : spWf regInit s.regs = true) (off : Nat) {hi : Nat} (hhi : hi < 64) (lo v : Nat) :
    (s.setF off hi lo v).rf off hi lo = v % 2 ^ (hi + 1 - lo) := by
  rw [State.rf, State.rn_setF wf off hhi, if_pos rfl, fld_setFld_same]

/-- Another register's field, or another field of the register. -/
theorem State.rf_setF_apart {s : State} (wf : spWf regInit s.regs = true) {off off' hi lo hi' lo' : Nat} (hhi : hi < 64)
    (apart : off' ≠ off ∨ hi < lo' ∨ hi' < lo) (v : Nat) : (s.setF off hi lo v).rf off' hi' lo' = s.rf off' hi' lo' := by
  rw [State.rf, State.rn_setF wf off hhi, State.rf]
  split
  · next same =>
    subst same
    exact fld_setFld_apart (apart.resolve_left (· rfl)) ..
  · rfl

theorem State.reg_setF_other {s : State} (wf : spWf regInit s.regs = true) {off off' : Nat} (other : off' ≠ off) (hi lo v : Nat) :
    (s.setF off hi lo v).reg off' = s.reg off' := by
  rw [State.setF_regs_eq, State.reg_setReg wf, if_neg other]

/-- A state with other registers: two states agree in everything else when this makes them equal. -/
def State.withRegs (s : State) (regs : Sparse W64) : State := { s with regs := regs }

theorem State.withRegs_self (s : State) : s.withRegs s.regs = s := rfl

theorem State.withRegs_setReg (s : State) (off : Nat) (v : W64) (regs : Sparse W64) :
    (s.setReg off v).withRegs regs = s.withRegs regs := rfl

theorem State.withRegs_setF (s : State) (off hi lo v : Nat) (regs : Sparse W64) :
    (s.setF off hi lo v).withRegs regs = s.withRegs regs := State.withRegs_setReg ..

/-! ### Writes by access codes -/

/-- A register with one field written by its access code. -/
def Access.write (a : Access) (locked : Bool) (r hi lo v : Nat) : Nat :=
  match a with
  | .rw => setFld r hi lo (fld v hi lo)
  | .rws => setFld r hi lo (fld v hi lo)
  | .rwl => if locked then r else setFld r hi lo (fld v hi lo)
  | .w1c => setFld r hi lo (Nat.land (fld r hi lo) (Nat.xor (2 ^ (hi + 1 - lo) - 1) (fld v hi lo)))
  | .ro => r
  | .wo => r

/-- A bit of a field after a write by the field's access code, from the bits of the register and of the value. -/
def Access.bitAfter (a : Access) (locked old new : Bool) : Bool :=
  match a with
  | .rw => new
  | .rws => new
  | .rwl => if locked then old else new
  | .w1c => old && !new
  | .ro => old
  | .wo => old

theorem RegD.write_eq (d : RegD) (locked : Bool) (old v : Nat) :
    d.write locked old v = d.flds.foldl (fun r f => f.2.2.write locked r f.1 f.2.1 v) old := rfl

theorem testBit_setFld_fld (r v hi lo i : Nat) :
    (setFld r hi lo (fld v hi lo)).testBit i = if lo ≤ i ∧ i < lo + (hi + 1 - lo) then v.testBit i else r.testBit i := by
  rw [testBit_setFld]
  split
  · next inside =>
    have here : i - lo < hi + 1 - lo := by omega
    rw [testBit_fld, decide_eq_true here, Bool.true_and]
    congr 1
    omega
  · rfl

/-- Ones of the value clear, the other bits of the field stay. -/
theorem testBit_setFld_clear (r v hi lo i : Nat) :
    (setFld r hi lo (Nat.land (fld r hi lo) (Nat.xor (2 ^ (hi + 1 - lo) - 1) (fld v hi lo)))).testBit i =
      if lo ≤ i ∧ i < lo + (hi + 1 - lo) then r.testBit i && !v.testBit i else r.testBit i := by
  rw [testBit_setFld]
  split
  · next inside =>
    have here : i - lo < hi + 1 - lo := by omega
    have back : lo + (i - lo) = i := by omega
    have cleared := Nat.testBit_land (fld r hi lo) (Nat.xor (2 ^ (hi + 1 - lo) - 1) (fld v hi lo)) (i - lo)
    have flipped := Nat.testBit_xor (2 ^ (hi + 1 - lo) - 1) (fld v hi lo) (i - lo)
    refine cleared.trans ?_
    rw [show (Nat.xor (2 ^ (hi + 1 - lo) - 1) (fld v hi lo)).testBit (i - lo) = _ from flipped, testBit_fld, testBit_fld,
      Nat.testBit_two_pow_sub_one, decide_eq_true here, back]
    simp
  · rfl

theorem testBit_write (a : Access) (locked : Bool) (r hi lo v i : Nat) :
    (a.write locked r hi lo v).testBit i =
      if lo ≤ i ∧ i < lo + (hi + 1 - lo) then a.bitAfter locked (r.testBit i) (v.testBit i) else r.testBit i := by
  cases a with
  | rw | rws => exact testBit_setFld_fld ..
  | w1c => exact testBit_setFld_clear ..
  | ro | wo => exact (ite_self _).symm
  | rwl =>
    cases locked with
    | true => exact (ite_self _).symm
    | false => exact testBit_setFld_fld ..

/-- The bits after fields that lie apart are written one after the other: each bit is that of the field that holds it. -/
theorem testBit_foldl_write (locked : Bool) (v i : Nat) :
    ∀ (l : List (Nat × Nat × Access)) (old : Nat), (∀ f ∈ l, f.2.1 ≤ f.1) →
      l.Pairwise (fun f g => f.1 < g.2.1 ∨ g.1 < f.2.1) →
      (l.foldl (fun r f => f.2.2.write locked r f.1 f.2.1 v) old).testBit i =
        ((l.find? fun f => decide (f.2.1 ≤ i) && decide (i ≤ f.1)).map fun f =>
          f.2.2.bitAfter locked (old.testBit i) (v.testBit i)).getD (old.testBit i) := by
  intro l
  induction l with
  | nil => exact fun _ _ _ => rfl
  | cons f l ih =>
    intro old ordered apart
    have width := ordered f (List.mem_cons_self ..)
    obtain ⟨head, tail⟩ := List.pairwise_cons.1 apart
    rw [List.foldl_cons, ih _ (fun g hg => ordered g (List.mem_cons_of_mem _ hg)) tail, List.find?_cons, testBit_write]
    by_cases inside : f.2.1 ≤ i ∧ i ≤ f.1
    · obtain ⟨low, high⟩ := inside
      have rest : l.find? (fun f => decide (f.2.1 ≤ i) && decide (i ≤ f.1)) = none := by
        refine List.find?_eq_none.2 fun g hg holds => ?_
        simp only [Bool.and_eq_true, decide_eq_true_eq] at holds
        have := head g hg
        omega
      rw [rest, if_pos (by omega), decide_eq_true low, decide_eq_true high]
      rfl
    · have outside : (decide (f.2.1 ≤ i) && decide (i ≤ f.1)) = false := by
        simpa only [Bool.and_eq_false_iff, decide_eq_false_iff_not, not_and_or] using inside
      rw [if_neg (by omega), outside]

/-- Settles O60: a bit belongs to at most one field, whose access code says what a write makes of it. -/
theorem fieldAccess : Obligations.FieldAccess := by
  intro d locked old v ordered _ apart i _
  refine (congrArg (Nat.testBit · i) (d.write_eq locked old v)).trans ?_
  refine (testBit_foldl_write locked v i d.flds old (fun f hf => (ordered f hf).1) apart).trans ?_
  cases d.flds.find? fun f => decide (f.2.1 ≤ i) && decide (i ≤ f.1) with
  | none => rfl
  | some f =>
    obtain ⟨hi, lo, a⟩ := f
    cases a <;> rfl

/-! ### The counts of a pool -/

/-- Settles O24: each count is a field of its own, and only two registers are written. -/
theorem poolCounts : Obligations.PoolCounts := by
  intro s n u r _ wf hu hr
  have apart : kvReg n 0x20 ≠ kvReg n 0x28 := by unfold kvReg hubReg; omega
  have apart0 : kvReg n 0 ≠ kvReg n 0x28 := by unfold kvReg hubReg; omega
  have wf1 := State.spWf_setF wf (kvReg n 0x28) 59 32 u
  have wf2 := State.spWf_setF wf1 (kvReg n 0x28) 27 0 r
  generalize h1 : s.setF (kvReg n 0x28) 59 32 u = s1 at wf1 wf2
  generalize h2 : s1.setF (kvReg n 0x28) 27 0 r = s2 at wf2
  have wf3 := State.spWf_setF wf2 (kvReg n 0x20) 27 0 (s2.kvPages n - u - r)
  generalize h3 : s2.setF (kvReg n 0x20) 27 0 (s2.kvPages n - u - r) = s3 at wf3
  have after : (kvCounts n u r).next s = s3.setF (kvReg n 0x20) 63 32 (s2.rf (kvReg n 0x20) 63 32 + 1) := by
    rw [← h3, ← h2, ← h1, kvCounts]
    exact next_ok (go_upd _ _)
  have other (off hi lo : Nat) (ho : off ≠ kvReg n 0x28) : s2.rf off hi lo = s.rf off hi lo := by
    rw [← h2, State.rf_setF_apart wf1 (by omega) (.inl ho), ← h1, State.rf_setF_apart wf (by omega) (.inl ho)]
  have pages : s2.kvPages n = s.kvPages n := other _ _ _ apart0
  have frame : s2.withRegs s.regs = s := by rw [← h2, State.withRegs_setF, ← h1, State.withRegs_setF, State.withRegs_self]
  intro s'
  rw [show s' = _ from after]
  refine ⟨?use, ?free, ?epoch, ?rest, ?others⟩
  case use =>
    refine Prod.ext (?_ : State.rf _ (kvReg n 0x28) 59 32 = u) (?_ : State.rf _ (kvReg n 0x28) 27 0 = r)
    · rw [State.rf_setF_apart wf3 (by omega) (.inl apart.symm), ← h3, State.rf_setF_apart wf2 (by omega) (.inl apart.symm), ← h2,
        State.rf_setF_apart wf1 (by omega) (.inr (by omega)), ← h1, State.rf_setF_same wf _ (by omega)]
      exact Nat.mod_eq_of_lt hu
    · rw [State.rf_setF_apart wf3 (by omega) (.inl apart.symm), ← h3, State.rf_setF_apart wf2 (by omega) (.inl apart.symm), ← h2,
        State.rf_setF_same wf1 _ (by omega)]
      exact Nat.mod_eq_of_lt hr
  case free =>
    have small : s.kvPages n < 2 ^ 28 := Nat.mod_lt _ (by decide)
    rw [State.kvFree, State.rf_setF_apart wf3 (by omega) (.inr (by omega)), ← h3, State.rf_setF_same wf2 _ (by omega), pages]
    exact Nat.mod_eq_of_lt (by omega)
  case epoch => rw [State.rf_setF_same wf3 _ (by omega), other _ _ _ apart]
  case rest =>
    refine (State.withRegs_setF ..).trans ?_
    rw [← h3, State.withRegs_setF, frame]
  case others =>
    intro off h20 h28
    rw [State.reg_setF_other wf3 h20, ← h3, State.reg_setF_other wf2 h20, ← h2, State.reg_setF_other wf1 h28, ← h1,
      State.reg_setF_other wf h28]

end Sys2Proof.Machine
end

section
/-! SUPPORT. The change log, and what a record in it leaves alone. -/

namespace Sys2Proof.Machine

theorem State.le_logRoom (s : State) : 65536 ≤ s.logRoom := Nat.le_add_right ..

/-- A ring with room: the record goes in at the head, and nothing is lost. -/
theorem logPut_of_room {s : State} (room : s.rn 0x40008 - s.rn 0x40010 < 65536) (ordered : s.rn 0x40010 ≤ s.rn 0x40008) (r : LogRec) :
    s.logPut r = State.setReg { s with log := spSet dLog s.log (s.rn 0x40008) { r with seq := s.rn 0x40008 % 2 ^ 32 } } 0x40008
      (BitVec.ofNat 64 (s.rn 0x40008 + 1)) := by
  have small : s.rn 0x40008 + 1 - s.rn 0x40010 ≤ 65536 := by omega
  have kept (c : Bool) : ¬ (c && decide (65536 < s.rn 0x40008 + 1 - s.rn 0x40010)) = true := by
    simp only [Bool.and_eq_true, decide_eq_true_eq, not_and]
    omega
  unfold State.logPut
  dsimp only
  rw [if_neg (kept _), if_pos (small.trans (State.le_logRoom _))]

/-- Settles O57: with room in the ring the log and the head are all that changes. -/
theorem logRecords : Obligations.LogRecords := by
  intro s r wf logged head tail hhead ordered room s'
  have put := logPut_of_room (r := r) room ordered
  have wf' : spWf regInit ({ s with log := spSet dLog s.log head { r with seq := head % 2 ^ 32 } } : State).regs = true := wf
  have read (off : Nat) : s'.reg off = if off = 0x40008 then BitVec.ofNat 64 (head + 1) else s.reg off :=
    (congrArg (State.reg · off) put).trans (State.reg_setReg wf' ..)
  have log : s'.log = spSet dLog s.log head { r with seq := head % 2 ^ 32 } := (congrArg State.log put).trans rfl
  refine ⟨?_, ?_, ?_, fun n other => ?_, ?_⟩
  · rw [State.rn, read, if_pos rfl, BitVec.toNat_ofNat]
    exact Nat.mod_eq_of_lt (by omega)
  · rw [State.rn, read, if_neg (by decide)]
    rfl
  · rw [log, spGet_set_same dLog logged]
  · rw [log, spGet_set_other dLog logged other]
  · exact (congrArg (fun u : State => { u with regs := s.regs, log := s.log }) put).trans rfl

/-- The registers of the change log that a record can change. -/
def logRegs : List Nat := [0x40008, 0x40010, 0x40020]

/-- A state whose registers are canonical and agree with another's outside the change log's own. -/
structure State.LogOnly (s s' : State) : Prop where
  wf : spWf regInit s'.regs = true
  reg : ∀ off, off ∉ logRegs → s'.reg off = s.reg off

namespace State.LogOnly
variable {s s' : State}

theorem refl (wf : spWf regInit s.regs = true) : s.LogOnly s := ⟨wf, fun _ _ => rfl⟩

theorem setReg (h : s.LogOnly s') {off : Nat} (own : off ∈ logRegs) (v : W64) : s.LogOnly (s'.setReg off v) := by
  refine ⟨State.spWf_setReg h.wf .., fun i hi => ?_⟩
  rw [State.reg_setReg h.wf, if_neg (fun same : i = off => hi (same ▸ own)), h.reg i hi]

theorem withLog (h : s.LogOnly s') (log : Sparse LogRec) : s.LogOnly { s' with log := log } := ⟨h.wf, h.reg⟩

theorem choice (h : s.LogOnly s') {p : Prop} [Decidable p] {s'' : State} (h' : s.LogOnly s'') : s.LogOnly (if p then s'' else s') := by
  split
  · exact h'
  · exact h

theorem logPut (h : s.LogOnly s') (r : LogRec) : s.LogOnly (s'.logPut r) := by
  unfold State.logPut
  dsimp only
  generalize s'.rn 0x40008 = head
  generalize s'.rn 0x40010 = tail
  have h := (h.withLog (spSet dLog s'.log head { r with seq := head % 2 ^ 32 })).setReg (off := 0x40008) (by decide)
    (BitVec.ofNat 64 (head + 1))
  generalize State.setReg { s' with log := spSet dLog s'.log head { r with seq := head % 2 ^ 32 } } 0x40008
    (BitVec.ofNat 64 (head + 1)) = s1 at h ⊢
  have h := h.choice (p := (s1.rb 0x40000 63 && decide (65536 < head + 1 - tail)) = true)
    (h.setReg (off := 0x40020) (by decide) (BitVec.ofNat 64 (setFld (s1.rn 0x40020) 0 0 1)))
  change s.LogOnly (ite _ (State.setF s1 0x40020 0 0 1) s1) at h
  generalize (if (s1.rb 0x40000 63 && decide (65536 < head + 1 - tail)) = true then s1.setF 0x40020 0 0 1 else s1) = s2 at h ⊢
  split
  · exact h
  · have h := (h.withLog (spErase s2.log tail)).setReg (off := 0x40010) (by decide) (BitVec.ofNat 64 (tail + 1))
    exact h.choice (h.setReg (by decide) _)

theorem logRec (h : s.LogOnly s') (type : Nat) (o : Origin) (info target value : Nat) :
    s.LogOnly (s'.logRec type o info target value) := by
  unfold State.logRec
  dsimp only
  split
  · exact ⟨h.wf, h.reg⟩
  · exact (h.logPut _).choice ((h.logPut _).logPut _)

end State.LogOnly

/-! ### Publishing -/

/-- Settles O39: the selector bit of the value is set or cleared, and the log and VBUSY are other registers. -/
theorem publishFlips : Obligations.PublishFlips := by
  intro s u wf idle has hsel hvalue
  generalize hv : setFld (s.rn (asReg u.as 0x10)) u.sel u.sel u.value = v
  have word : v < 2 ^ 64 := hv ▸ setFld_lt (BitVec.isLt _) hsel _ _
  have logged := (State.LogOnly.refl wf).logRec 1 Origin.engine 0 (asReg u.as 0x10) v
  generalize h1 : s.logRec 1 Origin.engine 0 (asReg u.as 0x10) v = s1 at logged
  have flip : (pubFlip u).go s = (.ok (), { ((s1.setReg (asReg u.as 0x10) (BitVec.ofNat 64 v)).setF (asReg u.as 0x20) 1 1 1) with
      pubs := s1.pubs.map fun w => if w = u then { w with flipped := true } else w }) := by
    subst h1 hv
    unfold pubFlip
    refine (go_bind_ok (go_get _) _).trans ?_
    rw [idle, if_neg Bool.false_ne_true]
    refine (go_bind_ok (go_upd _ _) _).trans ?_
    refine (go_bind_ok (go_upd _ _) _).trans ?_
    refine (go_bind_ok (go_upd _ _) _).trans ?_
    exact go_upd _ _
  refine ⟨_, flip, fun i hi => ?_⟩
  have apart : asReg u.as 0x10 ≠ asReg u.as 0x20 := by unfold asReg; omega
  have read : State.rn { ((s1.setReg (asReg u.as 0x10) (BitVec.ofNat 64 v)).setF (asReg u.as 0x20) 1 1 1) with
      pubs := s1.pubs.map fun w => if w = u then { w with flipped := true } else w } (asReg u.as 0x10) = v := by
    refine (congrArg BitVec.toNat (State.reg_setF_other (State.spWf_setReg logged.wf ..) apart 1 1 1)).trans ?_
    rw [State.reg_setReg logged.wf, if_pos rfl, BitVec.toNat_ofNat, Nat.mod_eq_of_lt word]
  rw [read, ← hv, bit, testBit_setFld]
  by_cases same : i = u.sel
  · subst same
    rw [if_pos (by omega), if_pos rfl, Nat.sub_self]
    interval_cases u.value <;> rfl
  · rw [if_neg (by omega), if_neg same]
    rfl

end Sys2Proof.Machine
end

section
/-! SUPPORT. A launch's registers, and a context's registers through a switch. -/

namespace Sys2Proof.Machine

theorem Tile.ctx_setCtx {tl : Tile} (wf : spWf dCtx tl.ctxs = true) (c : Nat) (x : Ctx) (c' : Nat) :
    (tl.setCtx c x).ctx c' = if c' = c then x else tl.ctx c' := spGet_set dCtx wf c c' x

/-- Settles O31: the context starts as at cold reset, but for its entry and what a launch keeps. -/
theorem launchRegisters : Obligations.LaunchRegisters := by
  intro tl l k sel jm js now wf
  have canonical := (Tile.wf_iff _).1 wf
  have read (c : Nat) : (tl.begin l k sel jm js now).ctx c =
      if c = l.ctx then { Ctx.reset with pc := k.entry, poison := (tl.ctx l.ctx).poison, saved := (tl.ctx l.ctx).saved,
                                         kernels := (tl.ctx l.ctx).kernels } else tl.ctx c :=
    Tile.ctx_setCtx canonical.ctxs ..
  intro u x
  have launched : x = { Ctx.reset with pc := k.entry, poison := (tl.ctx l.ctx).poison, saved := (tl.ctx l.ctx).saved,
                                       kernels := (tl.ctx l.ctx).kernels } := (read _).trans (if_pos rfl)
  rw [launched]
  refine ⟨rfl, rfl, fun n => ⟨ite_self _, rfl, rfl⟩, fun n hn => if_neg hn, rfl, rfl, rfl, rfl, rfl, rfl, rfl, rfl, rfl, rfl, rfl, rfl, rfl,
    fun c hc => ?_⟩
  exact (read c).trans (if_neg hc)

/-! ### Runs of bytes -/

section
variable {α : Type} {d : Nat → α}

theorem spRead_add (m : Sparse α) (k a b : Nat) : spRead d m k (a + b) = spRead d m k a ++ spRead d m (k + a) b := by
  induction a generalizing k with
  | zero => simp [spRead]
  | succ a ih =>
    have next : a + 1 + b = (a + b) + 1 := by omega
    rw [next, spRead, spRead, ih, List.cons_append]
    congr 3
    omega

/-- A run out of a longer run. -/
theorem drop_take_spRead (m : Sparse α) (k : Nat) {o n len : Nat} (h : o + n ≤ len) :
    ((spRead d m k len).drop o).take n = spRead d m (k + o) n := by
  obtain ⟨rest, rfl⟩ := Nat.exists_eq_add_of_le h
  rw [Nat.add_assoc, spRead_add m k o, List.drop_left' (spRead_length ..), spRead_add m (k + o) n, List.take_left' (spRead_length ..)]

theorem spRead_congr {m m' : Sparse α} {k n : Nat} (h : ∀ i, k ≤ i → i < k + n → spGet d m i = spGet d m' i) :
    spRead d m k n = spRead d m' k n := by
  induction n generalizing k with
  | zero => rfl
  | succ n ih =>
    rw [spRead, spRead, h k (Nat.le_refl k) (by omega), ih fun i hi hi' => h i (by omega) (by omega)]

variable [DecidableEq α]

theorem spRead_write_apart {m : Sparse α} (wf : spWf d m = true) {k j n : Nat} (vs : List α) (apart : j + n ≤ k ∨ k + vs.length ≤ j) :
    spRead d (spWrite d m k vs) j n = spRead d m j n :=
  spRead_congr fun _ _ _ => spGet_write_outside d wf k vs (by omega)

theorem spRead_write_same {m : Sparse α} (wf : spWf d m = true) (k : Nat) (vs : List α) :
    spRead d (spWrite d m k vs) k vs.length = vs := by
  induction vs generalizing m k with
  | nil => rfl
  | cons v vs ih =>
    have head : spGet d (spWrite d (spSet d m k v) (k + 1) vs) k = v := by
      rw [spGet_write_outside d (spWf_set d wf k v) (k + 1) vs (by omega), spGet_set_same d wf]
    exact congrArg₂ List.cons head (ih (spWf_set d wf k v) (k + 1))

omit [DecidableEq α] in
theorem getElem_spRead (m : Sparse α) (k : Nat) {n i : Nat} (h : i < (spRead d m k n).length) : (spRead d m k n)[i] = spGet d m (k + i) := by
  induction n generalizing k i with
  | zero => exact absurd h (Nat.not_lt_zero i)
  | succ n ih =>
    cases i with
    | zero => rfl
    | succ i =>
      refine (ih (k + 1) (Nat.lt_of_succ_lt_succ h)).trans ?_
      congr 1
      omega

end

/-- A value out of the bytes of a list of values. -/
theorem value_of_flatMap {w n : Nat} (fits : w ≤ 8 * n) (l : List (BitVec w)) (k : Nat) (h : k < l.length) :
    BitVec.ofNat w (leNat (((l.flatMap fun q => leBytes n q.toNat).drop (n * k)).take n)) = l[k] := by
  induction l generalizing k with
  | nil => exact absurd h (Nat.not_lt_zero k)
  | cons q l ih =>
    rw [List.flatMap_cons]
    cases k with
    | zero =>
      have word : q.toNat < 256 ^ n := by
        rw [show 256 = 2 ^ 8 from rfl, ← pow_mul]
        exact q.isLt.trans_le (Nat.pow_le_pow_right (by decide) fits)
      rw [Nat.mul_zero, List.drop_zero, List.take_left' (leBytes_length n _), leNat_leBytes, Nat.mod_eq_of_lt word]
      exact BitVec.eq_of_toNat_eq (by simp [Nat.mod_eq_of_lt q.isLt])
    | succ k =>
      have next : n * (k + 1) = (leBytes n q.toNat).length + n * k := by rw [leBytes_length]; ring
      rw [next, List.drop_length_add_append, ih k (Nat.lt_of_succ_lt_succ h)]
      rfl

/-- Registers that are read back from the bytes they were written as. -/
theorem spGet_ofBytes {w n count i : Nat} (fits : w ≤ 8 * n) {m : Sparse (BitVec w)} {bs : List Byte}
    (h : bs.take (n * count) = (spRead (fun _ => 0) m 0 count).flatMap fun q => leBytes n q.toNat) (hi : i < count) :
    spGet (fun _ => 0) (ofBytes n count bs) i = spGet (fun _ => (0 : BitVec w)) m i := by
  have inRange : n * i + n ≤ n * count := by
    rw [← Nat.mul_succ]
    exact Nat.mul_le_mul_left n hi
  have piece : (bs.drop (n * i)).take n = ((bs.take (n * count)).drop (n * i)).take n := by
    rw [List.drop_take, List.take_take, Nat.min_eq_left (by omega)]
  have len : i < ((List.range count).map fun i => BitVec.ofNat w (leNat ((bs.drop (n * i)).take n))).length := by simpa using hi
  have here := spGet_write_inside (fun _ => (0 : BitVec w)) (spWf_nil _) 0 _ len
  rw [Nat.zero_add] at here
  refine here.trans ?_
  rw [List.getElem_map, List.getElem_range, piece, h, value_of_flatMap fits _ i (by simpa using hi), getElem_spRead, Nat.zero_add]

/-! ### The save area -/

/-- The save area is given by the context's configuration. -/
theorem saveAt_congr {tl u : Tile} (h : u.regs = tl.regs) (c : Nat) : saveAt u c = saveAt tl c := by
  have cfg : ctxCfg u c = ctxCfg tl c := by rw [ctxCfg, ctxCfg, Tile.reg, Tile.reg, h]
  have size : ctxSize u c = ctxSize tl c := by rw [ctxSize, ctxSize, cfg]
  have base : ctxBase u c = ctxBase tl c := by rw [ctxBase, ctxBase, cfg]
  rw [saveAt, saveAt, size, base]

/-- The bytes that a switch saves. -/
def Tile.savedV (tl : Tile) : List Byte := (spRead dW32 tl.v 0 16384).flatMap fun x => leBytes 4 x.toNat
def Tile.savedAcc (tl : Tile) : List Byte := (spRead dW32 tl.acc 0 131072).flatMap fun x => leBytes 4 x.toNat
def Tile.savedSt (tl : Tile) : List Byte := (spRead dW64 tl.st 0 1024).flatMap fun x => leBytes 8 x.toNat

theorem Tile.cisPut_regs (tl : Tile) (off : Nat) (bs : List Byte) : (tl.cisPut off bs).regs = tl.regs := rfl
theorem Tile.cisPut_ctxs (tl : Tile) (off : Nat) (bs : List Byte) : (tl.cisPut off bs).ctxs = tl.ctxs := rfl
theorem Tile.cisPut_cis (tl : Tile) (off : Nat) (bs : List Byte) : (tl.cisPut off bs).cis = spWrite dByte tl.cis off bs := rfl

/-- The tile with its registers in the save area at `a`. -/
def Tile.saving (tl : Tile) (a : Nat) : Tile :=
  (((tl.cisPut a tl.savedV).cisPut (a + 65536) tl.savedAcc).cisPut (a + 589824) tl.savedSt).cisPut (a + 598016) tl.flumeState

theorem length_flatMap_leBytes {w : Nat} (n : Nat) (l : List (BitVec w)) : (l.flatMap fun x => leBytes n x.toNat).length = n * l.length := by
  induction l with
  | nil => rfl
  | cons q l ih => rw [List.flatMap_cons, List.length_append, ih, leBytes_length, List.length_cons, Nat.mul_succ, Nat.add_comm]

theorem Tile.length_savedV (tl : Tile) : tl.savedV.length = 65536 := by
  rw [Tile.savedV, length_flatMap_leBytes, spRead_length]
theorem Tile.length_savedAcc (tl : Tile) : tl.savedAcc.length = 524288 := by
  rw [Tile.savedAcc, length_flatMap_leBytes, spRead_length]
theorem Tile.length_savedSt (tl : Tile) : tl.savedSt.length = 8192 := by
  rw [Tile.savedSt, length_flatMap_leBytes, spRead_length]

/-- The bytes that a switch restores from. -/
def Tile.restored (tl : Tile) (t c : Nat) : List Byte :=
  if ((saveAt tl c).isSome && (tl.ctx c).saved) = true then tl.cisBytes ((saveAt tl c).getD 0) 600064
  else (List.range 600064).map fun i => BitVec.ofNat 8 (Config.freeValue (0x2000 + t) (tl.free + i)).toNat

theorem restore_registers (tl : Tile) (t c : Nat) :
    (tl.restore t c).v = ofBytes 4 16384 (tl.restored t c) ∧ (tl.restore t c).acc = ofBytes 4 131072 ((tl.restored t c).drop 65536) ∧
      (tl.restore t c).st = ofBytes 8 1024 ((tl.restored t c).drop 589824) := by
  unfold Tile.restore Tile.restored
  dsimp only
  exact ⟨rfl, rfl, rfl⟩

section
variable {tl : Tile} {c a : Nat} (h : saveAt tl c = some a)
include h

theorem save_eq : tl.save c =
    (tl.saving a).setCtx c { (tl.saving a).ctx c with saved := true } := by
  unfold Tile.save
  rw [h]
  rfl

theorem save_cis : (tl.save c).cis = spWrite dByte (spWrite dByte (spWrite dByte (spWrite dByte tl.cis a tl.savedV) (a + 65536) tl.savedAcc)
    (a + 589824) tl.savedSt) (a + 598016) tl.flumeState := by
  rw [save_eq h, Tile.setCtx_cis, Tile.saving]
  simp only [Tile.cisPut_cis]

theorem save_regs : (tl.save c).regs = tl.regs := by
  rw [save_eq h, Tile.setCtx_regs, Tile.saving, Tile.cisPut_regs, Tile.cisPut_regs, Tile.cisPut_regs, Tile.cisPut_regs]

theorem saveAt_save : saveAt (tl.save c) c = some a := (saveAt_congr (save_regs h) c).trans h

omit h in
theorem saving_ctxs : (tl.saving a).ctxs = tl.ctxs := by
  rw [Tile.saving, Tile.cisPut_ctxs, Tile.cisPut_ctxs, Tile.cisPut_ctxs, Tile.cisPut_ctxs]

theorem saved_save (wf : spWf dCtx tl.ctxs = true) : ((tl.save c).ctx c).saved = true := by
  have wf' : spWf dCtx (tl.saving a).ctxs = true := by rw [saving_ctxs]; exact wf
  rw [save_eq h, Tile.ctx_setCtx wf', if_pos rfl]

section
variable (wf : spWf dByte tl.cis = true)
include wf

/-- What stands in the save area after a save. -/
theorem saved_bytes : spRead dByte (tl.save c).cis a 65536 = tl.savedV ∧ spRead dByte (tl.save c).cis (a + 65536) 524288 = tl.savedAcc ∧
    spRead dByte (tl.save c).cis (a + 589824) 8192 = tl.savedSt := by
  have lv := tl.length_savedV
  have la := tl.length_savedAcc
  have ls := tl.length_savedSt
  have wf1 := spWf_write dByte wf a tl.savedV
  have wf2 := spWf_write dByte wf1 (a + 65536) tl.savedAcc
  have wf3 := spWf_write dByte wf2 (a + 589824) tl.savedSt
  rw [save_cis h]
  refine ⟨?_, ?_, ?_⟩
  · rw [spRead_write_apart wf3 _ (by omega), spRead_write_apart wf2 _ (by omega), spRead_write_apart wf1 _ (by omega), ← lv]
    exact spRead_write_same wf ..
  · rw [spRead_write_apart wf3 _ (by omega), spRead_write_apart wf2 _ (by omega), ← la]
    exact spRead_write_same wf1 ..
  · rw [spRead_write_apart wf3 _ (by omega), ← ls]
    exact spRead_write_same wf2 ..

end

/-- A restore after a save reads the save area. -/
theorem restore_save (wf : spWf dCtx tl.ctxs = true) (t : Nat) :
    let bs := spRead dByte (tl.save c).cis a 600064
    let u := (tl.save c).restore t c
    u.v = ofBytes 4 16384 bs ∧ u.acc = ofBytes 4 131072 (bs.drop 65536) ∧ u.st = ofBytes 8 1024 (bs.drop 589824) := by
  have ok : ((saveAt (tl.save c) c).isSome && ((tl.save c).ctx c).saved) = true := by
    rw [saveAt_save h, saved_save h wf]
    rfl
  have read : (tl.save c).restored t c = spRead dByte (tl.save c).cis a 600064 := by
    rw [Tile.restored, if_pos ok, saveAt_save h, Option.getD_some, Tile.cisBytes]
  obtain ⟨v, acc, st⟩ := restore_registers (tl.save c) t c
  rw [read] at v acc st
  exact ⟨v, acc, st⟩

end

/-- Settles O33: each register file is read back from its part of the save area. -/
theorem saveRestores : Obligations.SaveRestores := by
  intro tl t c a wf h
  have canonical := (Tile.wf_iff _).1 wf
  obtain ⟨v, acc, st⟩ := restore_save h canonical.ctxs t
  obtain ⟨bytesV, bytesAcc, bytesSt⟩ := saved_bytes h canonical.cis
  have takeV : (spRead dByte (tl.save c).cis a 600064).take (4 * 16384) = tl.savedV :=
    (congrArg (List.take _) List.drop_zero.symm).trans ((drop_take_spRead _ a (by decide)).trans bytesV)
  have takeAcc : ((spRead dByte (tl.save c).cis a 600064).drop 65536).take (4 * 131072) = tl.savedAcc :=
    (drop_take_spRead _ a (by decide)).trans bytesAcc
  have takeSt : ((spRead dByte (tl.save c).cis a 600064).drop 589824).take (8 * 1024) = tl.savedSt :=
    (drop_take_spRead _ a (by decide)).trans bytesSt
  intro u
  refine ⟨fun r l hr hl => ?_, fun b m n hb hm hn => ?_, fun r l hr hl => ?_⟩
  · rw [Tile.vGet, v]
    exact congrArg BitVec.toNat (spGet_ofBytes (by decide) takeV (by omega))
  · rw [Tile.accGet, acc]
    refine congrArg BitVec.toNat (spGet_ofBytes (by decide) takeAcc ?_)
    unfold accIx
    omega
  · rw [Tile.stGet, st]
    exact congrArg BitVec.toNat (spGet_ofBytes (by decide) takeSt (by omega))

end Sys2Proof.Machine
end

section
/-! SUPPORT. What a walk over a region does to the accumulators. -/

namespace Sys2Proof.Machine

theorem accIx_inj {b m n b' m' n' : Nat} (hm : m < 256) (hn : n < 128) (hm' : m' < 256) (hn' : n' < 128) :
    accIx b m n = accIx b' m' n' ↔ b = b' ∧ m = m' ∧ n = n' := by
  unfold accIx
  omega

theorem accGet_accSet {tl : Tile} (wf : spWf dW32 tl.acc = true) (b m n v b' m' n' : Nat) :
    (tl.accSet b m n v).accGet b' m' n' = if accIx b' m' n' = accIx b m n then v % 2 ^ 32 else tl.accGet b' m' n' := by
  unfold Tile.accGet
  rw [Tile.accSet_acc, spGet_set dW32 wf]
  split
  · exact BitVec.toNat_ofNat ..
  · rfl

theorem spWf_accSet {tl : Tile} (wf : spWf dW32 tl.acc = true) (b m n v : Nat) : spWf dW32 (tl.accSet b m n v).acc = true :=
  spWf_set dW32 wf ..

theorem accGet_congr {tl u : Tile} (h : u.acc = tl.acc) (b m n : Nat) : u.accGet b m n = tl.accGet b m n := by
  rw [Tile.accGet, Tile.accGet, h]

section
variable (b r0 c0 : Nat) (f : Nat → Nat → Nat → Nat × Exc)

/-- The step of `mapRegion` at one position of the region. -/
def regionStep (st : Tile × Exc) (p : Nat × Nat) : Tile × Exc :=
  let o := f p.1 p.2 (st.1.accGet b (r0 + p.1) (c0 + p.2))
  (st.1.accSet b (r0 + p.1) (c0 + p.2) o.1, st.2.plus o.2)

/-- The positions of a region, row by row. -/
def regionCells (m n : Nat) : List (Nat × Nat) := List.range m ×ˢ List.range n

theorem mapRegion_eq (tl : Tile) (m n : Nat) :
    mapRegion tl b r0 c0 m n f = (regionCells m n).foldl (regionStep b r0 c0 f) (tl, Exc.zero) := by
  unfold mapRegion regionCells
  change _ = List.foldl _ _ ((List.range m).flatMap fun i => (List.range n).map (Prod.mk i))
  rw [List.foldl_flatMap]
  congr 1
  funext st i
  rw [List.foldl_map]
  rfl

/-- Positions that are met once: each takes its value, the others stay. -/
theorem accGet_foldl_regionStep {bk m l : Nat} (hm : m < 256) (hl : l < 128) :
    ∀ (ps : List (Nat × Nat)) (st : Tile × Exc), ps.Nodup → (∀ p ∈ ps, r0 + p.1 < 256 ∧ c0 + p.2 < 128) →
      spWf dW32 st.1.acc = true →
      (ps.foldl (regionStep b r0 c0 f) st).1.accGet bk m l =
        if bk = b ∧ r0 ≤ m ∧ c0 ≤ l ∧ (m - r0, l - c0) ∈ ps then (f (m - r0) (l - c0) (st.1.accGet bk m l)).1 % 2 ^ 32
        else st.1.accGet bk m l := by
  intro ps
  induction ps with
  | nil => intro st _ _ _; simp
  | cons p ps ih =>
    intro st once inBank wf
    obtain ⟨fresh, once⟩ := List.nodup_cons.1 once
    obtain ⟨hrow, hcol⟩ := inBank p (List.mem_cons_self ..)
    rw [List.foldl_cons, ih (regionStep b r0 c0 f st p) once (fun q hq => inBank q (List.mem_cons_of_mem _ hq)) (spWf_accSet wf ..)]
    have step : (regionStep b r0 c0 f st p).1.accGet bk m l = if accIx bk m l = accIx b (r0 + p.1) (c0 + p.2)
        then (f p.1 p.2 (st.1.accGet b (r0 + p.1) (c0 + p.2))).1 % 2 ^ 32 else st.1.accGet bk m l := accGet_accSet wf ..
    rw [step]
    by_cases here : bk = b ∧ m = r0 + p.1 ∧ l = c0 + p.2
    · obtain ⟨rfl, rfl, rfl⟩ := here
      have cell : (r0 + p.1 - r0, c0 + p.2 - c0) = p := by rw [Nat.add_sub_cancel_left, Nat.add_sub_cancel_left]
      rw [cell, if_neg (by simp [fresh]), if_pos rfl, if_pos (by simp), Nat.add_sub_cancel_left, Nat.add_sub_cancel_left]
    · have off : ¬ accIx bk m l = accIx b (r0 + p.1) (c0 + p.2) := by rwa [accIx_inj hm hl hrow hcol]
      simp only [if_neg off]
      congr 1
      refine propext (and_congr_right fun hb => and_congr_right fun hr => and_congr_right fun hc => ?_)
      have other : (m - r0, l - c0) ≠ p := by
        rintro rfl
        exact here ⟨hb, by dsimp only; omega, by dsimp only; omega⟩
      exact ⟨List.mem_cons_of_mem _, fun h => (List.mem_cons.1 h).resolve_left other⟩

/-- What `mapRegion` leaves in the accumulators, within a region that lies in the bank. -/
theorem accGet_mapRegion {tl : Tile} (wf : spWf dW32 tl.acc = true) {m n : Nat} (rows : r0 + m ≤ 256) (cols : c0 + n ≤ 128)
    {bk i j : Nat} (hi : i < 256) (hj : j < 128) :
    (mapRegion tl b r0 c0 m n f).1.accGet bk i j =
      if bk = b ∧ (r0 ≤ i ∧ i < r0 + m) ∧ c0 ≤ j ∧ j < c0 + n then (f (i - r0) (j - c0) (tl.accGet bk i j)).1 % 2 ^ 32
      else tl.accGet bk i j := by
  have mem (p : Nat × Nat) : p ∈ regionCells m n ↔ p.1 < m ∧ p.2 < n := by
    rw [regionCells, List.mem_product, List.mem_range, List.mem_range]
  have once : (regionCells m n).Nodup := List.nodup_range.product List.nodup_range
  rw [mapRegion_eq, accGet_foldl_regionStep b r0 c0 f hi hj _ _ once (fun p hp => by have := (mem p).1 hp; omega) wf]
  congr 1
  rw [mem]
  refine propext (and_congr_right fun _ => ?_)
  dsimp only
  omega

end

/-! ### MMAC -/

/-- A region that an MMAC may name lies in the bank (R144). -/
theorem regionOf_inBank {shape imm r0 c0 m n : Nat} (ok : regionOk shape imm = true) (h : regionOf shape imm = (r0, c0, m, n)) :
    r0 + m ≤ 256 ∧ c0 + n ≤ 128 := by
  unfold regionOk at ok
  unfold regionOf at h
  simp only [Bool.and_eq_true, decide_eq_true_eq, Prod.mk.injEq] at ok h
  obtain ⟨hr, hc⟩ := ok
  obtain ⟨rfl, rfl, rfl, rfl⟩ := h
  unfold shapeOf at hr hc ⊢
  generalize fld imm 15 12 = r at *
  generalize fld imm 11 8 = c at *
  split_ifs at hr hc ⊢ <;> omega

theorem regionOk_of_mmac {w : IWord} {x : W64} (h : kzDefined 0x20 w x = true) : regionOk w.fn.toNat w.imm.toNat = true := by
  unfold kzDefined at h
  split at h
  · cases h
  · simp only [Bool.and_eq_true] at h
    obtain ⟨-, extra⟩ := h
    simp only [encExtra, Bool.and_eq_true] at extra
    exact extra.1

theorem perfs_acc (l : List (Nat × Nat)) (tl : Tile) : (tl.perfs l).acc = tl.acc := by
  induction l generalizing tl with
  | nil => rfl
  | cons p l ih => exact (ih _).trans rfl

theorem count_acc (tl : Tile) (c : Nat) (e : Exc) : (tl.count c e).acc = tl.acc := rfl

/-- The accumulators after an MMAC without a length mask whose operands have been read. -/
theorem mmacCompute_acc {tl v : Tile} {kx : Kx} {w : IWord} {x : W64} {got : List Image} {as bs : List (List Grp)} {r0 c0 M N : Nat}
    {a b : Opnd} (hreg : regionOf w.fn.toNat w.imm.toNat = (r0, c0, M, N))
    (ha : { meOpnd tl kx (specA x) (fld w.imm.toNat 7 0 + 1) with images := opndImages (specA x) (specB x) true got } = a)
    (hb : { meOpnd tl kx (specB x) (fld w.imm.toNat 7 0 + 1) with images := opndImages (specB x) (specA x) false got } = b)
    (lenM : a.rows ≤ (tl.ctx kx.c).lenM) (lenN : b.rows ≤ (tl.ctx kx.c).lenN) (lenK : a.cols ≤ (tl.ctx kx.c).lenK)
    (cols : 0 < a.cols) (rowsA : 0 < a.rows) (rowsB : 0 < b.rows)
    (readA : a.read tl kx.k a.rows (ceilDiv a.cols 32) = .ok as) (readB : b.read tl kx.k b.rows (ceilDiv a.cols 32) = .ok bs)
    (h : mmacCompute tl kx w x got = .ok v) :
    v.acc = (mapRegion tl w.dst.toNat r0 c0 M N fun i j old =>
      if i < a.rows ∧ j < b.rows then accElem (if bit w.imm.toNat 19 then 0 else old) (as.getD i []) (bs.getD j [])
      else (if bit w.imm.toNat 20 then fld (tl.ctx kx.c).mePad.toNat 63 32 else old, Exc.zero)).1.acc := by
  subst ha hb
  dsimp only at lenM lenN lenK cols rowsA rowsB readA readB ⊢
  have skip : (decide ((tl.ctx kx.c).lenM = 0) || decide ((tl.ctx kx.c).lenN = 0) || decide ((tl.ctx kx.c).lenK = 0)) = false := by
    simp only [Bool.or_eq_false_iff, decide_eq_false_iff_not]
    omega
  unfold mmacCompute at h
  simp only [hreg, Nat.min_eq_left lenM, Nat.min_eq_left lenN, Nat.min_eq_right lenK, skip, Bool.false_eq_true, if_false,
    readA, readB, ok_bind, if_neg (Nat.not_lt.2 lenK), List.map_id'] at h
  cases h
  exact (perfs_acc _ _).trans (count_acc _ _ _)

/-- Settles O17: the accumulators are those that the walk over the region leaves. -/
theorem mmacRegion : Obligations.MmacRegion := by
  intro tl v kx w x got as bs n a b y
  rcases hreg : regionOf w.fn.toNat w.imm.toNat with ⟨r0, c0, M, N⟩
  intro defined wf rowsM rowsN same lenM lenN lenK cols rowsA rowsB fill readA readB computed
  have canonical := (Tile.wf_iff _).1 wf
  obtain ⟨inRows, inCols⟩ := regionOf_inBank (regionOk_of_mmac defined) hreg
  have acc := mmacCompute_acc (a := a) (b := b) hreg rfl rfl lenM lenN lenK cols rowsA rowsB readA readB computed
  have after {bk m l : Nat} (hm : m < 256) (hl : l < 128) := (accGet_congr acc bk m l).trans
    (accGet_mapRegion (bk := bk) _ _ _ _ canonical.acc inRows inCols hm hl)
  refine ⟨fun i j hi hj => ?_, fun bk m l _ hm hl outside => ?_⟩
  · have hi' := hi.trans_le rowsM
    have hj' := hj.trans_le rowsN
    rw [after (by omega) (by omega), if_pos ⟨rfl, by omega, by omega⟩, Nat.add_sub_cancel_left, Nat.add_sub_cancel_left, if_pos ⟨hi, hj⟩]
  · rw [after hm hl]
    split
    · next inside =>
      obtain ⟨rfl, ⟨hr, -⟩, hc, -⟩ := inside
      rw [if_neg (by omega), fill, if_neg Bool.false_ne_true]
      exact Nat.mod_eq_of_lt (BitVec.isLt _)
    · rfl

end Sys2Proof.Machine
end

section
/-! SUPPORT. Parts of a command's effect that many commands share, and the pool commands. -/

namespace Sys2Proof.Machine

section
variable {α : Type} {m : Dev α} {s s' : State}

theorem attempt_ok {a : α} (h : m.gives s a s') : (attempt m).gives s (.ok a) s' := by rw [Dev.gives, go_attempt, h]

theorem attempt_abort {c d : Nat} (h : m.go s = (.error (.abort c d), s')) : (attempt m).gives s (.error (c, d)) s' := by
  rw [Dev.gives, go_attempt, h]

theorem must_true {b : Bool} (h : b = true) (c d : Nat) : (must b c d).gives s () s := by rw [Dev.gives, go_must, if_pos h]

theorem must_false {b : Bool} (h : b = false) (c d : Nat) : (must b c d).go s = (.error (.abort c d), s) := by
  rw [go_must, h, if_neg Bool.false_ne_true]

/-- A part that only changes the state. -/
theorem upd_gives (f : State → State) : (upd f).gives s () (f s) := go_upd s f

/-- A part whose next state alone is known answers. -/
theorem upd_gives_next (f : State → State) : (upd f).gives s () ((upd f).next s) := by
  rw [next_ok (go_upd s f)]
  exact go_upd s f

end

/-! ### Register writes -/

section
variable {s : State} {o : Origin} {off v : Nat}

theorem reaches_of_heard (h : s.heard o off = true) : s.reaches o off = true := by
  simp only [State.heard, Bool.and_eq_true] at h
  exact h.1

theorem mute_of_heard (h : s.heard o off = true) : s.mute o = false := by
  simp only [State.heard, Bool.and_eq_true, Bool.not_eq_true'] at h
  exact h.2

/-- A register write that is accepted is in the log before its effect. -/
theorem regWrite_heard (h : s.heard o off = true) {ok : Bool} (hok : ok = true) (eff : Dev Unit) :
    (regWrite o off v ok eff).go s = eff.go (s.noted o off v) := by
  unfold regWrite
  refine (go_bind_ok (go_get _) _).trans ?_
  rw [if_pos (reaches_of_heard h)]
  dsimp only
  rw [hok, mute_of_heard h, Bool.not_false, Bool.and_true, if_pos rfl, if_pos rfl]
  exact go_bind_ok (go_upd _ _) _

/-- One that its rule discards leaves only its record. -/
theorem regWrite_discarded (h : s.reaches o off = true) {ok : Bool} (hok : ok = false) (eff : Dev Unit) :
    (regWrite o off v ok eff).gives s () (s.logRec 2 o 0 off v) := by
  unfold regWrite
  refine (go_bind_ok (go_get _) _).trans ?_
  rw [if_pos h]
  dsimp only
  rw [hok, Bool.false_and, if_neg Bool.false_ne_true, if_neg Bool.false_ne_true]
  exact go_bind_ok (go_upd _ _) _

theorem plainWrite_heard (h : s.heard o off = true) {ok : Bool} (hok : ok = true) (eff : Dev Unit) :
    (plainWrite o off v ok eff).go s = eff.go s := by
  unfold plainWrite
  refine (go_bind_ok (go_get _) _).trans ?_
  rw [if_pos (reaches_of_heard h), hok, mute_of_heard h, Bool.not_false, Bool.and_true, if_pos rfl]

theorem lockWrite_heard (h : s.heard o off = true) {ok : Bool} (hok : ok = true) {lockBit : Nat} (unlocked : s.rb off lockBit = false)
    (viol : Nat) (eff : Bool → Dev Unit) : (lockWrite o off v lockBit viol ok eff).go s = (eff false).go (s.noted o off v) := by
  unfold lockWrite
  refine (go_bind_ok (go_get _) _).trans ?_
  rw [if_pos (reaches_of_heard h), hok, mute_of_heard h, Bool.not_true, Bool.or_false, if_neg Bool.false_ne_true, unlocked,
    if_neg Bool.false_ne_true]
  exact go_bind_ok (go_upd _ _) _

end

/-! ### KV pools -/

section
variable {s s1 s2 s3 : State} {q type : Nat} {c : QCmd} {body : QCmd → View → Nat → Nat → Dev Nat}
  (taken : (takeCmd q type).gives s c s1)
  (checked : (kvCheck (s1.qPart q) (c.f 1 1) (c.f 4 4) (type != 0x10)).gives s1 () s1)
include taken checked

/-- A pool command whose body answers. -/
theorem kvCommand_ok {d : Nat} (done : (body c (s1.queueView q 3) (c.f 1 1) (c.f 4 4)).gives s1 d s2)
    (ended : (completeWith q c.seqno type 0 d).gives s2 () s3) : (kvCommand q type body).gives s () s3 := by
  unfold kvCommand
  refine (go_bind_ok taken _).trans ?_
  refine (go_bind_ok (go_get _) _).trans ?_
  refine (go_bind_ok (attempt_ok ((go_bind_ok checked _).trans done)) _).trans ?_
  exact ended

/-- A pool command whose body ends it with a code. -/
theorem kvCommand_abort {code d : Nat} (done : (body c (s1.queueView q 3) (c.f 1 1) (c.f 4 4)).go s1 = (.error (.abort code d), s2))
    (ended : (completeWith q c.seqno type code d).gives s2 () s3) : (kvCommand q type body).gives s () s3 := by
  unfold kvCommand
  refine (go_bind_ok taken _).trans ?_
  refine (go_bind_ok (go_get _) _).trans ?_
  refine (go_bind_ok (attempt_abort ((go_bind_ok checked _).trans done)) _).trans ?_
  exact ended

end

theorem kvCounts_gives (n u r : Nat) (s : State) : (kvCounts n u r).gives s () ((kvCounts n u r).next s) := upd_gives_next _

/-- The pool commands (R241). -/
theorem pool_commands :
    ∀ (s s1 s2 s3 : State) (q : Nat) (c : QCmd),
      let n := c.f 1 1; let sq := c.f 4 4; let v := s1.queueView q 3; let e := s1.kvSeq n sq; let (u, r) := s1.kvUse n
      let entries := s1.rf (kvReg n 0) 55 48
      ((takeCmd q 0x10).gives s c s1 → (kvCheck (s1.qPart q) n sq false).gives s1 () s1 →
        c.zero 2 2 = true → c.zero 0xC 4 = true → c.zero 0x18 40 = true → c.f 0x10 8 % 64 = 0 →
        (forAll (List.range (entries * c.f 8 4)) fun i => kvPut v (c.f 0x10 8 + 8 * i) (leBytes 8 0)).gives s1 () s2 →
        (kvSetSeq v n sq { isOpen := true, maxpg := c.f 8 4, ptBase := c.f 0x10 8, reserved := 0, inUse := 0, tokens := 0 }).gives
          s2 () s3 →
        ∀ s4, (completeWith q c.seqno 0x10 0 0).gives ((kvCounts n (s3.kvUse n).1 (s3.kvUse n).2).next s3) () s4 →
          exec (.kvOpen q) s = .next s4) ∧
      ((takeCmd q 0x11).gives s c s1 → (kvCheck (s1.qPart q) n sq true).gives s1 () s1 →
        c.zero 2 2 = true → c.zero 0xC 52 = true → 0 < c.f 8 4 →
        (c.f 8 4 ≤ s1.kvFree n → (kvSetSeq v n sq { e with reserved := e.reserved + c.f 8 4 }).gives s1 () s2 →
          let s3 := (kvCounts n u (r + c.f 8 4)).next s2
          ∀ s4, (completeWith q c.seqno 0x11 0 (s3.kvFree n)).gives s3 () s4 → exec (.kvReserve q) s = .next s4) ∧
        (s1.kvFree n < c.f 8 4 → (completeWith q c.seqno 0x11 0x610 (s1.kvFree n)).gives s1 () s2 →
          exec (.kvReserve q) s = .next s2)) ∧
      ((takeCmd q 0x12).gives s c s1 → (kvCheck (s1.qPart q) n sq true).gives s1 () s1 → c.zero 2 2 = true → c.zero 0xC 52 = true →
        let k := min (c.f 8 4) e.reserved
        (kvSetSeq v n sq { e with reserved := e.reserved - k }).gives s1 () s2 →
        (completeWith q c.seqno 0x12 0 0).gives ((kvCounts n u (r - k)).next s2) () s3 → exec (.kvUnreserve q) s = .next s3) ∧
      ((takeCmd q 0x13).gives s c s1 → (kvCheck (s1.qPart q) n sq true).gives s1 () s1 → c.zero 2 2 = true → c.zero 8 56 = true →
        entries * e.maxpg = 0 → (kvSetSeq v n sq .none).gives s1 () s2 →
        (completeWith q c.seqno 0x13 0 0).gives ((kvCounts n (u - e.inUse) (r - e.reserved)).next s2) () s3 →
          exec (.kvClose q) s = .next s3) := by
  intro s s1 s2 s3 q c n sq v e
  dsimp only
  refine ⟨?kvOpen, ?kvReserve, ?kvUnreserve, ?kvClose⟩
  case kvOpen =>
    intro taken checked z1 z2 z3 aligned zeroed set s4 ended
    refine run'_of_go_ok (kvCommand_ok taken checked ?_ ended)
    refine (go_bind_ok (must_true (by simp [z1, z2, z3, aligned]) _ _) _).trans ?_
    refine (go_bind_ok (go_get _) _).trans ?_
    refine (go_bind_ok zeroed _).trans ?_
    refine (go_bind_ok set _).trans ?_
    refine (go_bind_ok (go_get _) _).trans ?_
    exact go_bind_ok (kvCounts_gives ..) _
  case kvReserve =>
    intro taken checked z1 z2 positive
    have fields : (c.zero 2 2 && c.zero 0xC 52 && c.f 8 4 != 0) = true := by
      simp [z1, z2, Nat.pos_iff_ne_zero.1 positive]
    refine ⟨?_, fun full ended => ?_⟩
    · intro room set s4 ended
      refine run'_of_go_ok (kvCommand_ok taken checked ?_ ended)
      refine (go_bind_ok (must_true fields _ _) _).trans ?_
      refine (go_bind_ok (go_get _) _).trans ?_
      rw [if_neg (Nat.not_lt.2 room)]
      refine (go_bind_ok set _).trans ?_
      refine (go_bind_ok (kvCounts_gives ..) _).trans ?_
      exact go_bind_ok (go_get _) _
    · refine run'_of_go_ok (kvCommand_abort taken checked ?_ ended)
      refine (go_bind_ok (must_true fields _ _) _).trans ?_
      refine (go_bind_ok (go_get _) _).trans ?_
      rw [if_pos full]
      rfl
  case kvUnreserve =>
    intro taken checked z1 z2 set ended
    refine run'_of_go_ok (kvCommand_ok taken checked ?_ ended)
    refine (go_bind_ok (must_true (by simp [z1, z2]) _ _) _).trans ?_
    refine (go_bind_ok (go_get _) _).trans ?_
    refine (go_bind_ok set _).trans ?_
    exact go_bind_ok (kvCounts_gives ..) _
  case kvClose =>
    intro taken checked z1 z2 empty set ended
    refine run'_of_go_ok (kvCommand_ok taken checked ?_ ended)
    refine (go_bind_ok (must_true (by simp [z1, z2]) _ _) _).trans ?_
    refine (go_bind_ok (go_get _) _).trans ?_
    dsimp only
    rw [empty]
    refine (go_bind_ok (go_pure _ _) _).trans ?_
    refine (go_bind_ok set _).trans ?_
    exact go_bind_ok (kvCounts_gives ..) _

/-- The registers of a pool (R236). -/
theorem pool_registers :
    ∀ (s : State) (n i v : Nat) (o : Origin),
      let off := kvReg n (8 * i)
      n < 64 → i < 4 → s.heard o off = true → s.rb (kvReg n 0) 63 = false →
      (o.isDrd || o.owns (if i = 0 then fld v 62 60 else s.rf (kvReg n 0) 62 60)) = true →
      let s1 := (s.noted o off v).putAt off (keepBits v (kvMask i))
      exec (.kvpPoolCfgWrite n i v o) s = .next (if i = 0 ∧ bit v 63 = true
        then (kvCounts n 0 0).next { s1 with pools := spSet dKvPool s1.pools n (dKvPool n) } else s1) := by
  intro s n i v o off hn hi heard off' owner s1
  have enabled : bit (s.rn (kvReg n 0)) 63 = false := off'
  have ok : (decide (n < 64 ∧ i < 4) && (o.isDrd || o.owns (if i = 0 ∧ (!bit (s.rn (kvReg n 0)) 63) = true then fld v 62 60
      else fld (s.rn (kvReg n 0)) 62 60)) && (!bit (s.rn (kvReg n 0)) 63 ||
        ((i == 0 && decide (v = setFld (s.rn (kvReg n 0)) 63 63 0)) && !((s.pool n).seqs.any fun e => e.2.isOpen)))) = true := by
    rw [enabled, decide_eq_true ⟨hn, hi⟩, Bool.not_false, Bool.true_and, Bool.true_or, Bool.and_true]
    simp only [and_true]
    exact owner
  refine run'_of_go_ok (u := ()) ((regWrite_heard heard ok _).trans ?_)
  refine (go_bind_ok (go_upd _ _) _).trans ?_
  rw [go_ite]
  by_cases on : i = 0 ∧ bit v 63 = true
  · rw [if_pos on, if_pos on]
    refine (go_bind_ok (go_upd _ _) _).trans ?_
    exact kvCounts_gives ..
  · rw [if_neg on, if_neg on]
    rfl

/-- KVW and KVT (R245, R248). -/
theorem pool_instructions :
    ∀ (s s1 : State) (t : Nat) (w : IWord) (x : W64) (r : Run) (k : LKernel) (v : View) (n : Nat), (s.tile t).running = some (r, k) →
      (s.canIssue t 0x57 w x = true →
        let tl := s.issuing t r 0x57; let kx := s.seen t r k 0x57 w; let y := tl.ctx r.ctx; let s0 := s.setTile t tl
        let count := (y.sGet w.sc.toNat).toNat; let sq := (y.sGet w.sa.toNat).toNat; let per := s0.kvHeads n * 512
        (kvBound kx w sq).gives s0 (v, n) s0 → 1 ≤ count → count ≤ 256 → readable tl k (specCis y (specA x)) (per * count) = true →
        (forAll (List.range count) (kvwToken t r.ctx v n sq (fld w.imm.toNat 23 16) (fld w.imm.toNat 5 4) (y.sGet w.sb.toNat).toNat
          per (tl.cisBytes (k.cisOff + specCis y (specA x)) (per * count)))).gives s0 () s1 →
        exec (.kvw t w x) s = .next (s1.went t r 0x57 w (s1.tile t))) ∧
      (s.canIssue t 0x58 w x = true →
        let tl := s.issuing t r 0x58; let kx := s.seen t r k 0x58 w; let y := tl.ctx r.ctx; let s0 := s.setTile t tl
        let count := (y.sGet w.sc.toNat).toNat; let sq := (y.sGet w.sa.toNat).toNat; let dst := specCis (tl.ctx r.ctx) (specA x)
        (kvBound kx w sq).gives s0 (v, n) s0 → 1 ≤ count → count ≤ 128 →
        ∀ es, ((List.range count).mapM fun i => kvtEntry v n sq (fld w.imm.toNat 23 16) ((y.sGet w.sb.toNat).toNat + i)).gives s0 es s1 →
          dst + es.flatten.length ≤ k.cisBytes →
          exec (.kvt t w x) s = .next (s1.went t r 0x58 w ((s1.tile t).cisPut (k.cisOff + dst) es.flatten))) := by
  intro s s1 t w x r k v n hr
  refine ⟨?kvw, ?kvt⟩
  case kvw =>
    intro hc tl kx y s0 count sq per bound least most data tokens
    refine deviceInstr_done hc hr (inDev_ok ?_)
    refine (go_bind_ok bound _).trans ?_
    refine (go_bind_ok (must_true (decide_eq_true ⟨least, most⟩) _ _) _).trans ?_
    refine (go_bind_ok (go_get _) _).trans ?_
    refine (go_bind_ok (go_liftEx_of_ok (cisRead_readable data)) _).trans ?_
    refine (go_bind_ok tokens _).trans ?_
    exact go_bind_ok (go_get _) _
  case kvt =>
    intro hc tl kx y s0 count sq dst bound least most es entries fits
    refine deviceInstr_done hc hr (inDev_ok ?_)
    refine (go_bind_ok bound _).trans ?_
    refine (go_bind_ok (must_true (decide_eq_true ⟨least, most⟩) _ _) _).trans ?_
    refine (go_bind_ok entries _).trans ?_
    refine (go_bind_ok (go_get _) _).trans ?_
    exact go_bind_ok (go_liftEx_of_ok (cisWrite_inside fits)) _

/-- Settles O23: each command's body is its parts in order; the pool's instructions run theirs on the device. -/
theorem pools : Obligations.Pools := ⟨pool_commands, pool_registers, pool_instructions⟩

end Sys2Proof.Machine
end

section
/-! SUPPORT. The flume's instructions and the grant of its requests. -/

namespace Sys2Proof.Machine

/-- An instruction whose body leaves an entry in its queue that has started. -/
theorem tileInstr_started {s : State} {t : Nat} {r : Run} {k : LKernel} {opc : Nat} {w : IWord} {x : W64} {i : Instr}
    {body : Tile → Kx → Act} {tl : Tile} {ref : Nat} (h : s.canIssue t opc w x = true) (hr : (s.tile t).running = some (r, k))
    (hb : body (s.issuing t r opc) (s.seen t r k opc w) = .started tl ref) :
    tileInstr s t i opc w x body =
      .next (s.went t r opc w (tl.pushQueue (kzQueue opc) { s.entry t r i opc w x with started := true, ref := ref })) := by
  rw [tileInstr_issue h hr, hb]
  rfl

theorem fits_of_readable {tl : Tile} {k : LKernel} {off n : Nat} (h : readable tl k off n = true) : off + n ≤ k.cisBytes := by
  simp only [readable, Bool.and_eq_true, decide_eq_true_eq] at h
  exact h.1

theorem inAlloc_ok {k : LKernel} {off n : Nat} (h : off + n ≤ k.cisBytes) : inAlloc k off n = .ok () := need_ok (decide_eq_true h) _ _

/-- The bytes that a crumb request sends: none for a read, the cistern's for a write. -/
def crbData (tl : Tile) (kx : Kx) (write : Bool) (cis len : Nat) : Option (List Byte) → Ex (List Byte)
  | some bs => .ok bs
  | none => if write then cisRead tl kx.k cis len else .ok []

/-- A crumb request whose checks pass takes the lowest free entry. -/
theorem crbBody_started {tl : Tile} {kx : Kx} {w : IWord} {write : Bool} {addr cis len e : Nat} {imm : Option (List Byte)} {data : List Byte}
    (free : (List.range 32).find? (fun e => (tl.crumb e).st == 0) = some e)
    (fits : imm.isNone = true → cis + len ≤ kx.k.cisBytes)
    (inBounds : (if imm.isSome then addr % 8 != 0 else decide (256 < addr % 256 + len)) = false)
    (bytes : crbData (tl.upd kx fun x => x.mark true) kx write cis len imm = .ok data) :
    crbBody tl kx w write addr cis len imm = .started ((tl.upd kx fun x => x.mark true).setCrumb e { Crumb.none with
      st := 1, seq := kx.seq, write := write, addr := addr, cis := kx.k.cisOff + cis, len := len
      hint := fld w.imm.toNat 9 8, data := data }) (0x80 + e) := by
  have alloc : (do if imm.isNone then inAlloc kx.k cis len : Ex Unit) = .ok () := by
    cases none : imm.isNone
    · rfl
    · rw [if_pos rfl]
      exact inAlloc_ok (fits none)
  unfold crbBody
  split
  · next none => cases none.symm.trans free
  · next e' found =>
    cases found.symm.trans free
    dsimp only
    rw [alloc]
    dsimp only
    rw [inBounds, if_neg Bool.false_ne_true]
    split
    · next stop => cases stop.symm.trans bytes
    · next ok =>
      cases ok.symm.trans bytes
      rfl

/-- The release of a slot that its ring has flagged. -/
theorem ringRelease_ok {tl : Tile} {kx : Kx} {r i : Nat} {cur : Bool} {g : Ring} (ring : tl.ring kx.k r = g) (flagged : g.flagged i = true) :
    ringRelease tl kx r i cur =
      (let u := tl.setRing kx.k r (if cur then (g.setSlot i 2).nextK else g.setSlot i 2)
       .ok (u.setCtx kx.c ((u.ctx kx.c).mark (releaseUnsafe (u.ctx kx.c).blk r)))) := by
  unfold ringRelease
  rw [ring]
  exact bind_of_ok (need_ok flagged _ _) rfl

/-- The stream elements that an FGO starts. -/
theorem listUnits_plain {tl : Tile} {k : LKernel} {f : FDesc} (plain : f.kind = 0) (ovr : Option Nat) :
    listUnits tl k f ovr = .ok (ovr.getD f.listCount) := if_pos plain

/-! ### A cycle of the flume -/

/-- With no channel to request, a grant changes nothing. -/
theorem grantChan_none {s : State} {t : Nat} {r : Run} {k : LKernel} (running : (s.tile t).running = some (r, k))
    (idle : (s.tile t).eligible k = []) : (grantChan t).gives s () s := by
  unfold grantChan
  refine (go_bind_ok (go_get _) _).trans ?_
  dsimp only
  split
  · next found _ =>
    cases found.symm.trans running
    rw [idle]
    rfl
  · rfl

theorem forAll_gives_same {α : Type} {s : State} {f : α → Dev Unit} (h : ∀ a, (f a).gives s () s) (l : List α) : (forAll l f).gives s () s := by
  induction l with
  | nil => rfl
  | cons a l ih =>
    rw [forAll_cons]
    exact (go_bind_ok (h a) _).trans ih

section
variable {u tl : Tile} (same : SameCistern u tl) (k : LKernel) (c : Chan)
include same

theorem cisRead_congr (off n : Nat) : cisRead u k off n = cisRead tl k off n := by
  obtain ⟨cis, bad⟩ := same
  simp only [cisRead, badWords, Tile.cisBytes, cis, bad]

theorem entry_congr (i : Nat) : c.entry u k i = c.entry tl k i := by
  unfold Chan.entry
  simp only [cisRead_congr same]

theorem planeAddr_congr (p i slot : Nat) : c.planeAddr u k p i slot = c.planeAddr tl k p i slot := by
  unfold Chan.planeAddr
  rw [entry_congr same]

theorem run_congr (p lim fuel pos addr left : Nat) : c.run u k p lim fuel pos addr left = c.run tl k p lim fuel pos addr left := by
  induction fuel generalizing pos addr left with
  | zero => rfl
  | succ fuel ih => simp only [Chan.run, planeAddr_congr same, ih]

theorem nextOf_congr (p lim pos : Nat) : c.nextOf u k p lim pos = c.nextOf tl k p lim pos := by
  unfold Chan.nextOf
  simp only [planeAddr_congr same, run_congr same]

theorem next_congr : c.next u k = c.next tl k := by
  unfold Chan.next
  simp only [nextOf_congr same]

/-- What a tile's channels can request is made of its channels and its cistern. -/
theorem eligible_congr (chans : u.chans = tl.chans) : u.eligible k = tl.eligible k := by
  unfold Tile.eligible
  simp only [next_congr same, Tile.chan, chans]
  rfl

end

theorem State.tile_setTile_same {s : State} (wf : spWf dTile s.tiles = true) (t : Nat) (tl : Tile) : (s.setTile t tl).tile t = tl := by
  rw [State.tile_setTile wf, if_pos rfl]

/-- A crumb's flight, once it is issued. -/
theorem flight_crumb {tl : Tile} {e : Nat} (issued : (tl.crumb e).st = 2) : tl.flight (1024 + e) = some ((tl.crumb e).flight e) := by
  unfold Tile.flight
  rw [if_neg (by omega), Nat.add_sub_cancel_left]
  exact if_pos issued

/-- A request whose page is not cached waits for its walk. -/
theorem lookupLeaf_miss {s : State} {t tag : Nat} {f : Flight} {r : Run} (flight : (s.tile t).flight tag = some f)
    (run : (s.tile t).run = some r)
    (miss : ((s.tileAs t r.ctx).bind fun as => (s.tile t).cached as r.sel f.addr) = none) :
    (lookupLeaf t tag).gives s () (s.setTile t ((s.tile t).perf 0x10 1)) := by
  unfold lookupLeaf
  refine (go_bind_ok (go_get _) _).trans ?_
  dsimp only
  split
  · next found ran =>
    cases found.symm.trans flight
    cases ran.symm.trans run
    rw [miss]
    exact go_upd ..
  · next no =>
    exact absurd run (no _ _ flight)

theorem running_congr {u tl : Tile} (run : u.run = tl.run) (ctxs : u.ctxs = tl.ctxs) : u.running = tl.running := by
  simp only [Tile.running, Tile.ctx, run, ctxs]

/-- A crumb that is issued. -/
def Tile.issueCrumb (tl : Tile) (e now : Nat) : Tile := (tl.setCrumb e { tl.crumb e with st := 2, t0 := now }).perf 0xA008 1

section
variable {s : State} {t e : Nat} {r : Run}

/-- A crumb whose page is not cached is issued and waits for its walk. -/
theorem grantCrumb_miss (run : (s.tile t).run = some r) (wf : (s.tile t).wf = true) (tiles : spWf dTile s.tiles = true)
    (miss : ∀ as, s.tileAs t r.ctx = some as → (s.tile t).cached as r.sel ((s.tile t).crumb e).addr = none) :
    (grantCrumb t e).gives s () ((s.setTile t ((s.tile t).issueCrumb e s.time)).setTile t
      (((s.tile t).issueCrumb e s.time).perf 0x10 1)) := by
  have canonical := (Tile.wf_iff _).1 wf
  have crumb : ((s.tile t).issueCrumb e s.time).crumb e = { (s.tile t).crumb e with st := 2, t0 := s.time } :=
    spGet_set_same dCrumb canonical.crumbs e { (s.tile t).crumb e with st := 2, t0 := s.time }
  have reg0 : ((s.tile t).issueCrumb e s.time).reg 0 = (s.tile t).reg 0 := spGet_set_other dW64 canonical.regs (by decide) _
  have ran : ((s.tile t).issueCrumb e s.time).run = some r := run
  have tlb : ((s.tile t).issueCrumb e s.time).tlb = (s.tile t).tlb := rfl
  refine (go_bind_ok (go_upd _ _) _).trans ?_
  change (lookupLeaf t (1024 + e)).go (s.setTile t ((s.tile t).issueCrumb e s.time)) = _
  generalize (s.tile t).issueCrumb e s.time = u at *
  have here := State.tile_setTile_same tiles t u
  have flight := flight_crumb (tl := u) (e := e) (congrArg Crumb.st crumb)
  have space : (s.setTile t u).tileAs t r.ctx = s.tileAs t r.ctx := by rw [State.tileAs, State.tileAs, here, reg0]
  have missed : ((s.setTile t u).tileAs t r.ctx).bind (fun as => ((s.setTile t u).tile t).cached as r.sel ((u.crumb e).flight e).addr) =
      none := by
    rw [here, space, Option.bind_eq_none_iff, crumb]
    simp only [Tile.cached, tlb]
    exact miss
  have looked := lookupLeaf_miss (by rw [here]; exact flight) (by rw [here]; exact ran) missed
  rw [here] at looked
  exact looked

/-- The cycle of a flume whose one request is a crumb's, with its page not cached. -/
theorem flumeRequestGrant_crumb {k : LKernel} (running : (s.tile t).running = some (r, k))
    (thawed : s.tileFrozen t = false) (one : (List.range 32).filter (fun e => ((s.tile t).crumb e).st == 1) = [e])
    (idle : (s.tile t).eligible k = []) (noWaits : s.waits = []) (wf : (s.tile t).wf = true) (tiles : spWf dTile s.tiles = true)
    (miss : ∀ as, s.tileAs t r.ctx = some as → (s.tile t).cached as r.sel ((s.tile t).crumb e).addr = none) :
    exec (.flumeRequestGrant t) s = .next ((s.setTile t ((s.tile t).issueCrumb e s.time)).setTile t
      (((s.tile t).issueCrumb e s.time).perf 0x10 1)) := by
  have granted := grantCrumb_miss (running_run running) wf tiles miss
  have tile := State.tile_setTile_same (s := s.setTile t ((s.tile t).issueCrumb e s.time)) (spWf_set dTile tiles t _) t
    (((s.tile t).issueCrumb e s.time).perf 0x10 1)
  have same : SameCistern (((s.tile t).issueCrumb e s.time).perf 0x10 1) (s.tile t) := ⟨rfl, rfl⟩
  have still : (((s.tile t).issueCrumb e s.time).perf 0x10 1).running = some (r, k) :=
    (running_congr (u := ((s.tile t).issueCrumb e s.time).perf 0x10 1) (tl := s.tile t) rfl rfl).trans running
  have quiet := (eligible_congr same k rfl).trans idle
  generalize (s.setTile t ((s.tile t).issueCrumb e s.time)).setTile t (((s.tile t).issueCrumb e s.time).perf 0x10 1) = s' at granted tile ⊢
  rw [← tile] at still quiet
  refine run'_of_go_ok (u := ()) ?_
  refine (go_bind_ok (go_get _) _).trans ?_
  dsimp only
  rw [running]
  dsimp only
  rw [thawed, if_neg Bool.false_ne_true, one]
  have busy : ¬ ((s.tile t).freeTag.isNone = true ∧ ([e].take 4).length < 4 ∧ (s.tile t).eligible k ≠ []) := fun h => h.2.2 idle
  rw [if_neg busy, noWaits, List.any_nil, if_neg Bool.false_ne_true]
  refine (go_bind_ok ((go_bind_ok granted _).trans (go_pure _ _)) _).trans ?_
  exact forAll_gives_same (fun _ => grantChan_none still quiet) _

end

/-- FCFG, FGO, FWAIT, FSTOP and FREL (R259 to R264). -/
theorem channel_instructions :
    ∀ (s : State) (t : Nat) (w : IWord) (r : Run) (k : LKernel), (s.tile t).running = some (r, k) →
      let n := fld w.imm.toNat 4 0
      (s.canIssue t 0x60 w 0 = true →
        let tl := s.issuing t r 0x60; let a := ((tl.ctx r.ctx).aGet w.sa.toNat).toNat
        let d := tl.cisBytes (k.cisOff + a) 256
        (tl.chan n).st ≠ 2 → a % 64 = 0 → readable tl k a 256 = true → fcfgFail k d = none →
        exec (.fcfg t w) s = .next (s.went t r 0x60 w
          (tl.setChan n { Chan.none with st := 1, desc := d, ring := (fdescOf d).ring, done := (tl.chan n).done }))) ∧
      (s.canIssue t 0x61 w 0 = true →
        let tl := s.issuing t r 0x61; let y := tl.ctx r.ctx; let c := tl.chan n; let x := y.sGet w.sa.toNat
        let units := if (fdescOf c.desc).mode = 1 then (if w.fn = 1 then x.toNat % 2 ^ 32 else (fdescOf c.desc).listCount)
          else (dimsOf c.desc).foldl (fun p d => p * d.1) 1
        let c' := c.begin (if w.fn = 0 then dfld c.desc 0x20 8 else x.toNat)
          (if w.fn = 2 then (y.sGet w.sb.toNat).toNat else dfld c.desc 0x70 8) units
        let u := (tl.setChan n c').upd (s.seen t r k 0x61 w) fun y =>
          ({ y with blk := { y.blk with started := setFld y.blk.started n n 1 } }).mark c'.isWrite
        (c.st = 1 ∨ c.st = 3 ∨ c.st = 4) → w.fn.toNat ≤ 2 → ((fdescOf c.desc).mode = 1 → w.fn ≠ 2 ∧ (fdescOf c.desc).kind = 0) →
        exec (.fgo t w) s = .next (s.went t r 0x61 w
          (if units = 0 then u.chanEnd k n 3 0 0 0 0 s.time
           else if c'.isWrite then u.settle k n s.time else u.pump k r.ctx n s.time))) ∧
      (s.canIssue t 0x62 w 0 = true →
        let tl := s.issuing t r 0x62; let c := tl.chan n
        c.st ≠ 0 → (w.fn = 0 → c.st ≠ 2) → (w.fn ≠ 0 → c.isWrite = false ∧ c.ring.flagged c.ring.kslot = true) →
        exec (.fwait t w) s = .next (s.went t r 0x62 w tl)) ∧
      (s.canIssue t 0x63 w 0 = true →
        let tl := s.issuing t r 0x63
        ((tl.chan n).st = 2 → ∀ f ∈ tl.flights, f.chan ≠ n) →
        exec (.fstop t w) s = .next (s.went t r 0x63 w (tl.stopped k n s.time))) ∧
      (s.canIssue t 0x65 w 0 = true →
        let tl := s.issuing t r 0x65; let c := tl.chan n; let g := c.ring
        (c.isWrite = false → g.flagged g.kslot = true → tl.ring k n = g →
          let u := tl.setRing k n (g.setSlot g.kslot 2).nextK; let y := u.ctx r.ctx
          exec (.frel t w) s = .next (s.went t r 0x65 w (u.setCtx r.ctx (y.mark (!(decide (n < 32) && bit y.blk.started n)))))) ∧
        (c.isWrite = true → c.st = 2 → g.flagged g.kslot = false →
          let u := (tl.setChan n { c with ring := (g.setSlot g.kslot 1).nextK }).settle k n s.time
          ¬ ((u.chan n).st = 2 ∧ (u.chan n).ring.flagged (u.chan n).ring.kslot = true) →
          exec (.frel t w) s = .next (s.went t r 0x65 w u))) := by
  intro s t w r k hr n
  refine ⟨?fcfg, ?fgo, ?fwait, ?fstop, ?frel⟩
  case fcfg =>
    intro hc tl a d stopped aligned data valid
    refine tileInstr_done hc hr ?_
    refine (if_neg stopped).trans ((if_neg (not_not.2 aligned)).trans ((if_neg (Nat.not_lt.2 (fits_of_readable data))).trans ?_))
    split
    · next stop => cases stop.symm.trans (cisRead_readable data)
    · next read =>
      cases read.symm.trans (cisRead_readable data)
      split
      · next bad => cases bad.symm.trans valid
      · rfl
  case fgo =>
    intro hc tl y c x units c' u state fn list
    have fn0 : w.fn = 0 ↔ w.fn.toNat = 0 := (BitVec.toNat_inj (y := 0)).symm
    have fn1 : w.fn = 1 ↔ w.fn.toNat = 1 := (BitVec.toNat_inj (y := 1)).symm
    have fn2 : w.fn = 2 ↔ w.fn.toNat = 2 := (BitVec.toNat_inj (y := 2)).symm
    have stopped : ¬ c.st = 2 := by omega
    have allowed : ¬ (!(c.st == 1 || c.st == 3 || c.st == 4) || ((fdescOf c.desc).mode == 1 && (w.fn.toNat == 2 || (w.fn.toNat == 1 && (fdescOf c.desc).kind != 0)))) =
        true := by
      have idle : (c.st == 1 || c.st == 3 || c.st == 4) = true := by simpa [or_assoc] using state
      rw [idle, Bool.not_true, Bool.false_or]
      intro refused
      simp only [Bool.and_eq_true, Bool.or_eq_true, beq_iff_eq, bne_iff_ne] at refused
      obtain ⟨mode, two | ⟨-, other⟩⟩ := refused
      · exact (list mode).1 (fn2.2 two)
      · exact other (list mode).2
    have counted : (if (fdescOf c.desc).mode = 1 then listUnits tl k (fdescOf c.desc) (if w.fn.toNat = 1 then some (x.toNat % 2 ^ 32) else none)
        else .ok ((dimsOf c.desc).foldl (fun p d => p * d.1) 1) : Ex Nat) = .ok units := by
      by_cases mode : (fdescOf c.desc).mode = 1
      · rw [if_pos mode, listUnits_plain (list mode).2]
        refine congrArg Except.ok (Eq.trans ?_ (if_pos mode).symm)
        simp only [fn1]
        split <;> rfl
      · rw [if_neg mode]
        exact congrArg Except.ok (if_neg mode).symm
    have base : (if 1 ≤ w.fn.toNat then x.toNat else dfld c.desc 0x20 8) = if w.fn = 0 then dfld c.desc 0x20 8 else x.toNat := by
      simp only [fn0]
      split <;> split <;> omega
    have bound : (if w.fn.toNat = 2 then (y.sGet w.sb.toNat).toNat else dfld c.desc 0x70 8) =
        if w.fn = 2 then (y.sGet w.sb.toNat).toNat else dfld c.desc 0x70 8 := by simp only [fn2]
    have short : ¬ ((fdescOf c.desc).mode = 1 ∧ (fdescOf c.desc).kind ≠ 0 ∧ 128 < units) := fun ⟨mode, other, _⟩ => other (list mode).2
    refine tileInstr_done hc hr ((if_neg stopped).trans ((if_neg allowed).trans ?_))
    dsimp only
    split
    · next stop => cases stop.symm.trans counted
    · next ok =>
      cases ok.symm.trans counted
      refine (if_neg short).trans ?_
      have began : ((s.issuing t r 0x61).chan (chanOf w)).begin
          (if 1 ≤ w.fn.toNat then ((s.issuing t r 0x61).s (s.seen t r k 0x61 w) w.sa).toNat
           else dfld ((s.issuing t r 0x61).chan (chanOf w)).desc 0x20 8)
          (if w.fn.toNat = 2 then ((s.issuing t r 0x61).s (s.seen t r k 0x61 w) w.sb).toNat
           else dfld ((s.issuing t r 0x61).chan (chanOf w)).desc 0x70 8) units = c' :=
        congrArg₂ (fun a b => c.begin a b units) base bound
      rw [began]
      split_ifs <;> rfl
  case fwait =>
    intro hc tl c started whole slot
    refine tileInstr_done hc hr ((if_neg started).trans ?_)
    by_cases fn : w.fn = 0
    · exact (if_pos fn).trans (if_neg (whole fn))
    · obtain ⟨reads, flagged⟩ := slot fn
      exact (if_neg fn).trans ((if_neg (Bool.eq_false_iff.1 reads)).trans (if_pos flagged))
  case fstop =>
    intro hc tl drained
    refine tileInstr_done hc hr (if_neg fun ⟨running, flying⟩ => ?_)
    obtain ⟨f, hf, same⟩ := List.any_eq_true.1 flying
    exact drained running f hf (beq_iff_eq.1 same)
  case frel =>
    intro hc tl c g
    refine ⟨?reads, ?writes⟩
    case reads =>
      intro reads flagged ring u y
      refine tileInstr_done hc hr ?_
      refine (if_pos (congrArg not reads)).trans ?_
      exact congrArg (Act.of tl) (ringRelease_ok (tl := tl) (kx := s.seen t r k 0x65 w) (r := n) (i := g.kslot) (cur := true) ring flagged)
    case writes =>
      intro writes running unflagged u free
      refine tileInstr_done hc hr ?_
      refine (if_neg fun h => Bool.false_ne_true ((congrArg not writes).symm.trans h)).trans ?_
      refine (if_neg (not_not.2 rfl)).trans ?_
      exact (if_neg (not_not.2 running)).trans ((if_neg (Bool.eq_false_iff.1 unflagged)).trans (if_neg free))

/-- A CRB takes the lowest free crumb entry (R287). -/
theorem crumb_takes_entry :
    ∀ (s : State) (t : Nat) (w : IWord) (x : W64) (r : Run) (k : LKernel), (s.tile t).running = some (r, k) →
      s.canIssue t 0x64 w x = true →
      let tl := s.issuing t r 0x64; let y := tl.ctx r.ctx; let len := fld w.imm.toNat 7 0 + 1
      let cis := (y.aGet w.sb.toNat).toNat; let addr := (y.aGet w.sa.toNat + x).toNat
      let u := tl.setCtx r.ctx (y.mark true)
      let c := { Crumb.none with st := 1, seq := (s.tile t).issued, hint := fld w.imm.toNat 9 8 }
      ∀ e, (List.range 32).find? (fun e => (tl.crumb e).st == 0) = some e →
      let out := fun i c => Host.Outcome.next (s.went t r 0x64 w ((u.setCrumb e c).pushQueue 3
        { s.entry t r i 0x64 w x with started := true, ref := 0x80 + e }))
      (w.fn = 0 → cis + len ≤ k.cisBytes → addr % 256 + len ≤ 256 →
        exec (.crbRead t w x) s = out (.crbRead t w x) { c with addr := addr, cis := k.cisOff + cis, len := len }) ∧
      (w.fn = 1 → readable u k cis len = true → addr % 256 + len ≤ 256 →
        exec (.crbWrite t w x) s = out (.crbWrite t w x)
          { c with write := true, addr := addr, cis := k.cisOff + cis, len := len, data := u.cisBytes (k.cisOff + cis) len }) ∧
      (w.fn = 2 → (y.aGet w.sa.toNat).toNat % 8 = 0 →
        exec (.crbWriteImmediate t w x) s = out (.crbWriteImmediate t w x)
          { c with write := true, addr := (y.aGet w.sa.toNat).toNat, cis := k.cisOff, len := 8, data := leBytes 8 x.toNat }) := by
  intro s t w x r k hr hc tl y len cis addr u c e free out
  refine ⟨fun fn fits inLine => ?_, fun fn data inLine => ?_, fun fn aligned => ?_⟩
  · refine (fnInstr_of_fn (congrArg BitVec.toNat fn) _).trans (tileInstr_started hc hr ?_)
    exact crbBody_started free (fun _ => fits) (decide_eq_false (Nat.not_lt.2 inLine)) rfl
  · refine (fnInstr_of_fn (congrArg BitVec.toNat fn) _).trans (tileInstr_started hc hr ?_)
    exact crbBody_started free (fun _ => fits_of_readable data) (decide_eq_false (Nat.not_lt.2 inLine)) (cisRead_readable data)
  · refine (fnInstr_of_fn (congrArg BitVec.toNat fn) _).trans (tileInstr_started hc hr ?_)
    exact crbBody_started free nofun (bne_eq_false_iff_eq.2 aligned) rfl

/-- A cycle of the flume issues the waiting crumb (R282). -/
theorem crumb_granted :
    ∀ (s : State) (t e : Nat) (r : Run) (k : LKernel),
      let tl := s.tile t; let c := tl.crumb e
      tl.running = some (r, k) → s.tileFrozen t = false → (List.range 32).filter (fun e => (tl.crumb e).st == 1) = [e] →
      tl.eligible k = [] → s.waits = [] → tl.wf = true → spWf dTile s.tiles = true →
      (∀ as, s.tileAs t r.ctx = some as → tl.cached as r.sel c.addr = none) →
      let u := (tl.setCrumb e { c with st := 2, t0 := s.time }).perf 0xA008 1
      exec (.flumeRequestGrant t) s = .next ((s.setTile t u).setTile t (u.perf 0x10 1)) := by
  intro s t e r k
  exact fun running thawed one idle noWaits wf tiles miss =>
    flumeRequestGrant_crumb running thawed one idle noWaits wf tiles miss

/-- Settles O21: each instruction's body passes its checks, and the cycle issues the crumb. -/
theorem flumeInstructions : Obligations.FlumeInstructions := ⟨channel_instructions, crumb_takes_entry, crumb_granted⟩

end Sys2Proof.Machine
end

section
/-! SUPPORT. Answers to a flume's requests. -/

namespace Sys2Proof.Machine

/-- A page of device memory that the request may use is its translation. -/
theorem setLeaf_device {s : State} {t lvl : Nat} {r : Run} {k : LKernel} {f : Flight} {lf : Leaf} (kernel : (s.tile t).kernel = some (r, k))
    (device : lf.kind = 3) (allowed : (if f.write then lf.w else lf.r) = true) :
    (setLeaf t f lf lvl).gives s () (s.setTile t ((s.tile t).putFlight { f with leaf := lf })) := by
  have decided : leafDecide lf lvl f.write false = .ok lf := by
    unfold leafDecide
    rw [Bool.false_and, if_neg Bool.false_ne_true, allowed, Bool.not_true, if_neg Bool.false_ne_true]
  unfold setLeaf
  refine (go_bind_ok (go_get _) _).trans ?_
  rw [kernel]
  dsimp only
  rw [decided]
  dsimp only
  rw [if_neg (by omega), if_neg (by omega)]
  exact go_upd ..

/-- Settles O22: the answer of a request by what asked for it, and a walk by the page it finds. -/
theorem flumeAnswers : Obligations.FlumeAnswers := by
  refine ⟨fun s t tag r k f => ?answers, fun s s1 t tag lvl r k f lf => ?walked⟩
  case answers =>
    intro tl kernel flight
    refine ⟨?channel, ?crumb, ?write, ?crumbWrite, ?slot⟩
    case channel =>
      intro data answer reads inChannel u c accepting
      have accepts : (c.st = 2 ∧ (!c.stopping) = true) ∨ u.aborting = true := by simpa using accepting
      refine run'_of_go_ok (u := ()) ((go_bind_ok (go_get _) _).trans ?_)
      dsimp only
      rw [flight, kernel]
      dsimp only
      rw [answer]
      dsimp only
      rw [reads, if_neg Bool.false_ne_true, if_neg (not_not.2 rfl), if_pos inChannel, if_pos accepts]
      exact go_upd ..
    case crumb =>
      intro data answer reads crumb jmode
      have run : (s.tile t).run = some r := by
        obtain ⟨r', ran, found⟩ := Option.bind_eq_some_iff.1 kernel
        obtain ⟨k', -, same⟩ := Option.map_eq_some_iff.1 found
        cases same
        exact ran
      refine run'_of_go_ok (u := ()) ((go_bind_ok (go_get _) _).trans ?_)
      dsimp only
      rw [flight, kernel]
      dsimp only
      rw [answer]
      dsimp only
      rw [reads, if_neg Bool.false_ne_true, if_neg (not_not.2 rfl), if_neg (by omega)]
      refine (go_bind_ok (attempt_ok (tileJournal_off run jmode _ _ _)) _).trans ?_
      exact go_upd ..
    case write =>
      intro data answer writes inChannel
      refine run'_of_go_ok (u := ()) ((go_bind_ok (go_get _) _).trans ?_)
      dsimp only
      rw [flight, kernel]
      dsimp only
      rw [answer]
      dsimp only
      rw [writes, Bool.not_true, if_neg Bool.false_ne_true, if_neg (not_not.2 rfl), if_pos inChannel]
      exact go_upd ..
    case crumbWrite =>
      intro data answer writes crumb
      refine run'_of_go_ok (u := ()) ((go_bind_ok (go_get _) _).trans ?_)
      dsimp only
      rw [flight, kernel]
      dsimp only
      rw [answer]
      dsimp only
      rw [writes, Bool.not_true, if_neg Bool.false_ne_true, if_neg (not_not.2 rfl), if_neg (by omega)]
      exact go_upd ..
    case slot =>
      intro n slot running inRange returned u
      refine congrArg Host.Outcome.next ?_
      dsimp only
      rw [running]
      exact if_pos ⟨inRange, returned⟩
  case walked =>
    intro run flight fresh pending walked kernel wf device allowed u
    have here := State.tile_setTile_same wf t u
    refine run'_of_go_ok (u := ()) ((go_bind_ok (go_get _) _).trans ?_)
    dsimp only
    rw [flight, run]
    dsimp only
    rw [fresh, pending, if_neg (by simp)]
    refine (go_bind_ok (go_get _) _).trans ?_
    refine (go_bind_ok (go_get _) _).trans ?_
    refine (go_bind_ok walked _).trans ?_
    refine (go_bind_ok (go_upd _ _) _).trans ?_
    have set := setLeaf_device (s := s1.setTile t u) (t := t) (lvl := lvl) (r := r) (k := k) (f := f) (by rw [here]; exact kernel) device allowed
    rw [here, pending] at set
    exact set

end Sys2Proof.Machine
end

section
/-! SUPPORT. The cistern's repair, the hubs' requests, the weirs and the maintenance of the caches. -/

namespace Sys2Proof.Machine

/-! ### The cistern -/

/-- A bank's line without a fault to mend. -/
theorem scrub_clean {s : State} {t : Nat} {ws : List Nat} (word : Nat → Nat)
    (clean : ∀ i ∈ ws, spGet dBool (s.tile t).soft (word i) = false ∧ spGet dBool (s.tile t).bad (word i) = false) :
    ws.foldl (fun s i =>
      let w := word i
      let s := s.mendWord t w
      let tl := s.tile t
      if spGet dBool tl.bad w then s.setTile t (tl.ueFound w) else s) s = s := by
  induction ws with
  | nil => rfl
  | cons i ws ih =>
    obtain ⟨soft, bad⟩ := clean i (List.mem_cons_self ..)
    have whole : s.mendWord t (word i) = s := by
      unfold State.mendWord
      dsimp only
      rw [soft, if_neg Bool.false_ne_true]
    rw [List.foldl_cons]
    dsimp only
    rw [whole, bad, if_neg Bool.false_ne_true]
    exact ih fun j hj => clean j (List.mem_cons_of_mem _ hj)

/-! ### Requests at a hub -/

section
variable {s s' : State} {r : HubReq}

theorem tryServe_ok (h : (hubServe r).gives s () s') : (tryServe r).gives s true s' := by
  change tryServe r s = _
  unfold tryServe
  rw [h]

theorem tryServe_wait (h : ((hubServe r).go s).1 = .error .wait) : (tryServe r).gives s false s := by
  change tryServe r s = _
  unfold tryServe
  generalize (hubServe r).go s = a at h
  obtain ⟨a, s'⟩ := a
  cases h
  rfl

variable (alone : ∀ w ∈ s.waits, w.req.addr / 256 ≠ r.addr / 256)
include alone

theorem noneOfLine : s.waits.find? (fun w => w.req.addr / 256 == r.addr / 256) = none :=
  List.find?_eq_none.2 fun w hw => by simpa using alone w hw

theorem hubArrive_served (h : (hubServe r).gives s () s') : (hubArrive r).gives s () s' := by
  unfold hubArrive
  refine (go_bind_ok (go_get _) _).trans ?_
  rw [noneOfLine alone]
  refine (go_bind_ok (tryServe_ok h) _).trans ?_
  rfl

theorem hubArrive_waits (h : ((hubServe r).go s).1 = .error .wait) :
    (hubArrive r).gives s () { s with waits := s.waits ++ [{ why := s.waitCause r, req := r, since := s.time }] } := by
  unfold hubArrive
  refine (go_bind_ok (go_get _) _).trans ?_
  rw [noneOfLine alone]
  refine (go_bind_ok (tryServe_wait h) _).trans ?_
  rfl

end

section
variable {s s' : State} {r r' : HubReq}

theorem hubReadRequest_of_arrive (from' : s.fromFlight { r with write := false } = some r') (h : (hubArrive r').gives s () s') :
    exec (.hubReadRequest r) s = .next s' := by
  refine run'_of_go_ok (u := ()) ((go_bind_ok (go_get _) _).trans ?_)
  rw [from']
  exact h

theorem hubWriteRequest_of_arrive (from' : s.fromFlight { r with write := true } = some r') (h : (hubArrive r').gives s () s') :
    exec (.hubWriteRequest r) s = .next s' := by
  refine run'_of_go_ok (u := ()) ((go_bind_ok (go_get _) _).trans ?_)
  rw [from']
  exact h

end

/-- A denied request is answered with its denial. -/
theorem hubServe_denied {s : State} {r : HubReq} {c t : Nat} (who : r.who = .tile t)
    (denied : s.headgate (.tile t) (s.tilePart t) r.write r.addr = some c) :
    (hubServe r).gives s () ((s.deny (.tile t) (s.tilePart t) c r.addr r.addr).emit (.answer (.tile t) (if c = 1 then 3 else 2) [])) := by
  unfold hubServe
  refine (go_bind_ok (go_get _) _).trans ?_
  dsimp only
  rw [who, if_neg nofun, show s.masterPart (.tile t) r.part = s.tilePart t from rfl, denied]
  refine (go_bind_ok (go_upd _ _) _).trans ?_
  rw [hubAnswer, who]
  exact go_upd ..

/-! ### Weirs -/

/-- A signed value in a field of 24 bits is read as it was written. -/
theorem sgn_of_fld {v : Nat} {i : Int} (h : fld v 23 0 = wrap 24 i) (low : -2 ^ 23 ≤ i) (high : i < 2 ^ 23) : sgn 24 v = i := by
  simp only [fld, wrap, Nat.shiftRight_zero] at h
  unfold sgn
  split <;> omega

/-- With nothing waiting a release changes nothing. -/
theorem releaseWaits_none {s : State} (none : s.waits = []) : releaseWaits.gives s () s := by
  unfold releaseWaits
  refine (go_bind_ok (go_get _) _).trans ?_
  rw [none]
  rfl

theorem foldl_waits {α : Type} {f : State → α → State} (keeps : ∀ s a, (f s a).waits = s.waits) (l : List α) (s : State) :
    (l.foldl f s).waits = s.waits := by
  induction l generalizing s with
  | nil => rfl
  | cons a l ih => exact (ih _).trans (keeps s a)

/-- The tokens that a refill adds. -/
def State.refillAdd (s : State) (h set p : Nat) : Nat :=
  let c := s.rn (weirCfg h set p)
  if set = 0 ∧ bit c 63 then fld c 15 0 * s.hubCap h / 100 else fld c 15 0

/-- A weir whose configuration a refill has taken up. -/
def State.weirTaken (s : State) (h set p : Nat) : State :=
  { s with active := spSet dW64 s.active (weirCfg h set p) (s.reg (weirCfg h set p)) }

theorem refill_eq (s : State) (h set p : Nat) :
    s.refill h set p = ((s.weirTaken h set p).setF (weirStat h set p) 23 0 (wrap 24
      (min (s.tokens h set p + (s.refillAdd h set p : Int)) (fld (s.rn (weirCfg h set p)) 47 24 : Int)))).setF (weirStat h set p) 47 24 0 :=
  rfl

theorem refill_waits (s : State) (h set p : Nat) : (s.refill h set p).waits = s.waits := by
  rw [refill_eq, State.setF_regs_eq, State.setReg_waits, State.setF_regs_eq, State.setReg_waits, State.weirTaken]

theorem refills_waits (s : State) (h : Nat) (none : s.waits = []) :
    ((List.range 2).foldl (fun s set => (List.range 8).foldl (fun s p => s.refill h set p) s) s).waits = [] :=
  (foldl_waits (fun s set => foldl_waits (fun s p => refill_waits s h set p) _ s) _ s).trans none

theorem tokens_low (s : State) (h set p : Nat) : -2 ^ 23 ≤ s.tokens h set p := by
  unfold State.tokens sgn
  split <;> omega

/-- A refill takes up the configuration, clears the counted units and adds tokens up to the burst. -/
theorem refill_effect {s : State} {h set p : Nat} (wf : spWf regInit s.regs = true) (active : spWf dW64 s.active = true)
    (burst : s.rf (weirCfg h set p) 47 24 < 2 ^ 23) :
    (s.refill h set p).weir h set p = s.rn (weirCfg h set p) ∧ (s.refill h set p).rf (weirStat h set p) 47 24 = 0 ∧
      (s.refill h set p).tokens h set p =
        min (s.tokens h set p + (s.refillAdd h set p : Int)) (fld (s.rn (weirCfg h set p)) 47 24 : Int) := by
  have wf0 : spWf regInit (s.weirTaken h set p).regs = true := wf
  have low := tokens_low s h set p
  have burst' : fld (s.rn (weirCfg h set p)) 47 24 < 2 ^ 23 := burst
  rw [refill_eq]
  generalize tok : min (s.tokens h set p + (s.refillAdd h set p : Int)) (fld (s.rn (weirCfg h set p)) 47 24 : Int) = i
  have wf1 := State.spWf_setF wf0 (weirStat h set p) 23 0 (wrap 24 i)
  refine ⟨?_, ?_, ?_⟩
  · exact congrArg BitVec.toNat (spGet_set_same dW64 active (weirCfg h set p) (s.reg (weirCfg h set p)))
  · exact State.rf_setF_same wf1 _ (by omega) ..
  · refine sgn_of_fld (v := State.rn _ (weirStat h set p)) ?_ (by omega) (by omega)
    refine (State.rf_setF_apart wf1 (by omega) (.inr (.inr (by omega))) 0).trans ?_
    rw [State.rf_setF_same wf0 _ (by omega)]
    exact Nat.mod_eq_of_lt (wrap_lt 24 i)

/-! ### Maintenance -/

/-- A maintenance operation of a hub that runs none. -/
theorem maintWrite_starts {s s1 s2 : State} {h op : Nat} {o : Origin} (inRange : h < 4) (idle : s.rb (mscMaint h) 2 = false)
    (start : (s.shadowing (mscMaint h) op).setF (mscMaint h) 2 2 1 = s1)
    (flush : (forAll (s.msc.filter fun e => e.2.dirty != 0) fun e => do
      if (← get).hubOf (e.1 * 256) = h then flushLine (e.1 * 256)).gives s1 () s2) :
    (maintWrite h op false o).gives s () (if op = 2 then { s2 with msc := s2.msc.filter fun e => s2.hubOf (e.1 * 256) != h } else s2) := by
  have msc : s1.msc = s.msc := by rw [← start, State.setF_regs_eq, State.setReg_msc, State.shadowing]
  unfold maintWrite
  dsimp only
  rw [if_pos inRange, if_neg Bool.false_ne_true]
  refine (go_bind_ok (go_get _) _).trans ?_
  rw [idle, if_neg Bool.false_ne_true]
  refine (go_bind_ok (s' := s.shadowing (mscMaint h) op) (go_upd _ _) _).trans ?_
  refine (go_bind_ok (s' := s1) ((go_upd _ _).trans (congrArg (Prod.mk _) start)) _).trans ?_
  refine (go_bind_ok (go_get _) _).trans ?_
  rw [msc]
  refine (go_bind_ok flush _).trans ?_
  rw [go_ite]
  split <;> rfl

/-- Settles O25: clause by clause, the part of the hub or the tile that the event names. -/
theorem cisternAndHubs : Obligations.CisternAndHubs := by
  refine ⟨fun s t wf => ⟨?mend, ?scrub⟩, fun s s1 r r' alone => ⟨?served, ?waits⟩, fun s r c t who denied => hubServe_denied who denied,
    fun s site pch bank => ⟨rfl, rfl⟩, fun s h inRange => ⟨?refillAll, ?refill, ?config⟩, fun s s2 h o inRange idle => ?maint⟩
  case mend =>
    intro word faulty
    rcases place : cisBankLine word with ⟨bank, line⟩
    intro few v u
    have here := State.tile_setTile_same wf t u
    refine congrArg Host.Outcome.next ?_
    unfold State.mendWord
    dsimp only
    rw [if_pos faulty]
    change (s.setTile t u).lineError t word = _
    unfold State.lineError
    rw [place, here]
    have lines : u.lineCe = (s.tile t).lineCe := rfl
    dsimp only
    rw [lines, if_pos few]
  case scrub =>
    intro bank inRange up line clean
    have valid : ¬ (64 ≤ bank ∨ (!s.tileUp t) = true) := by
      rw [up]
      simpa using inRange
    refine congrArg Host.Outcome.next ((if_neg valid).trans ?_)
    have here := State.tile_setTile_same wf t { s.tile t with scrub := spSet dNat (s.tile t).scrub bank ((line + 1) % 12288) }
    refine scrub_clean (fun i => cisWordAt bank line i) fun i hi => ?_
    rw [here]
    exact clean i (List.mem_range.1 hi)
  case served =>
    exact fun serves => ⟨fun from' => hubReadRequest_of_arrive from' (hubArrive_served alone serves),
      fun from' => hubWriteRequest_of_arrive from' (hubArrive_served alone serves)⟩
  case waits =>
    exact fun stalls => ⟨fun from' => hubReadRequest_of_arrive from' (hubArrive_waits alone stalls),
      fun from' => hubWriteRequest_of_arrive from' (hubArrive_waits alone stalls)⟩
  case refillAll =>
    intro noWaits
    refine run'_of_go_ok (u := ()) ?_
    rw [if_neg (Nat.not_le.2 inRange)]
    refine (go_bind_ok (go_upd _ _) _).trans ?_
    exact releaseWaits_none (refills_waits s h noWaits)
  case refill => exact fun set p wf active _ _ burst => refill_effect wf active burst
  case config =>
    intro set p v o hset hp boards heard enabled least most
    have there : set = 0 ∨ s.nBoards ≠ 0 := by
      rcases Nat.lt_succ_iff_lt_or_eq.1 hset with lower | upper
      · exact .inl (Nat.lt_one_iff.1 lower)
      · exact .inr (boards upper)
    refine run'_of_go_ok (u := ()) ((go_bind_ok (go_get _) _).trans ?_)
    dsimp only
    rw [if_pos ⟨inRange, hset, hp, there⟩]
    refine (plainWrite_heard heard ?_ _).trans (go_upd _ _)
    rw [enabled, Bool.not_true, Bool.false_or, decide_eq_true least, Bool.true_and]
    refine decide_eq_true (Nat.le_trans (Nat.le_of_eq ?_) most)
    congr 2
    refine List.filter_congr fun q _ => ?_
    by_cases same : q = p <;> simp [same]
  case maint =>
    intro s1
    refine ⟨?_, ?_, ?_⟩
    · exact fun flush => run'_of_go_ok (u := ()) (maintWrite_starts inRange idle rfl flush)
    · exact fun flush => run'_of_go_ok (u := ()) (maintWrite_starts inRange idle rfl flush)
    · exact fun s busy => congrArg Host.Outcome.next (if_pos ⟨busy, inRange⟩)

end Sys2Proof.Machine
end

section
/-! SUPPORT. The migration commands. -/

namespace Sys2Proof.Machine

/-- A change of the state for each of a list. -/
theorem forAll_upd_gives {α : Type} (f : α → State → State) (l : List α) (s : State) :
    (forAll l fun a => upd (f a)).gives s () (l.foldl (fun s a => f a s) s) := by
  induction l generalizing s with
  | nil => rfl
  | cons a l ih =>
    rw [forAll_cons]
    exact (go_bind_ok (go_upd _ _) _).trans (ih _)

theorem forAll_one {α : Type} {f : α → Dev Unit} {a : α} {s s' : State} (h : (f a).gives s () s') : (forAll [a] f).gives s () s' := by
  rw [forAll_cons]
  exact (go_bind_ok h _).trans (go_pure ..)

theorem frameRun_one (a : Nat) : frameRun a 1 = [a] := by simp [frameRun]

/-- A move that lists no page-table entry has none in any place. -/
theorem unlisted (i : Nat) : ([0, 0, 0, 0] : List Nat).getD i 0 = 0 := by
  rcases i with _ | _ | _ | _ | i <;> rfl

/-- A list of parts that only look. -/
theorem mapM_gives {α β : Type} {f : α → Dev β} {g : α → β} {s : State} (l : List α) (h : ∀ a ∈ l, (f a).gives s (g a) s) :
    (l.mapM f).gives s (l.map g) s := by
  induction l with
  | nil => rfl
  | cons a l ih =>
    rw [List.mapM_cons]
    refine (go_bind_ok (h a (List.mem_cons_self ..)) _).trans ?_
    exact go_bind_ok (ih fun b hb => h b (List.mem_cons_of_mem _ hb)) _

/-- A migration command whose reserved fields are 0 and whose body ends it. -/
theorem migCommand_ends {s s1 s2 s3 : State} {q type code d : Nat} {c : QCmd} {reserved : QCmd → Bool} {body : QCmd → Nat → Dev MigEnd}
    (taken : (takeCmd q type).gives s c s1) (fields : reserved c = true)
    (done : (body c (s1.qPart q)).gives s1 (some (code, d)) s2) (ended : (completeWith q c.seqno type code d).gives s2 () s3) :
    (migCommand q type reserved body).run' s = .next s3 := by
  refine run'_of_go_ok (u := ()) ?_
  unfold migCommand
  refine (go_bind_ok taken _).trans ?_
  refine (go_bind_ok (go_get _) _).trans ?_
  rw [if_pos fields]
  refine (go_bind_ok done _).trans ?_
  exact ended

/-- One whose body leaves it under way. -/
theorem migCommand_underWay {s s1 s2 : State} {q type : Nat} {c : QCmd} {reserved : QCmd → Bool} {body : QCmd → Nat → Dev MigEnd}
    (taken : (takeCmd q type).gives s c s1) (fields : reserved c = true) (done : (body c (s1.qPart q)).gives s1 none s2) :
    (migCommand q type reserved body).run' s = .next s2 := by
  refine run'_of_go_ok (u := ()) ?_
  unfold migCommand
  refine (go_bind_ok taken _).trans ?_
  refine (go_bind_ok (go_get _) _).trans ?_
  rw [if_pos fields]
  refine (go_bind_ok done _).trans ?_
  rfl

theorem not_any {α : Type} {l : List α} {f : α → Bool} (h : ∀ a ∈ l, f a = false) : ¬ l.any f = true := by
  rw [List.any_eq_true]
  rintro ⟨a, ha, holds⟩
  exact Bool.false_ne_true ((h a ha).symm.trans holds)

theorem count_inRange {n : Nat} (least : 1 ≤ n) (most : n ≤ 65536) : ¬ (n < 1 ∨ 65536 < n) := by omega

theorem findSome_none {α β : Type} {l : List α} {f : α → Option β} (h : ∀ a ∈ l, f a = none) : l.findSome? f = none :=
  List.findSome?_eq_none_iff.2 h

/-- The commands on whole frames (R373, R376 to R378). -/
theorem frame_commands :
    ∀ (s s1 s2 s3 : State) (q : Nat) (c : QCmd),
      let p := s1.qPart q; let n := c.f 4 4; let fs := frameRun (c.f 8 8) n
      (let a := c.f 8 8; let f := s1.frame (frameOf a)
       (takeCmd q 0x21).gives s c s1 → c.zero 1 7 = true → c.zero 0x10 48 = true → s1.migFrames p [a] = none → f.state = 2 →
        (completeWith q c.seqno 0x21 0 0).gives ((s1.dropFrame (frameOf a)).setFrame (frameOf a) { f with state := 0, fwd := 0 }) () s2 →
        exec (.migFree q) s = .next s2) ∧
      ((takeCmd q 0x24).gives s c s1 → c.zero 2 2 = true → c.zero 0x10 48 = true → c.f 1 1 ≤ 1 → 1 ≤ n → n ≤ 65536 →
        s1.migFrames p fs = none →
        (completeWith q c.seqno 0x24 0 0).gives (fs.foldl (fun s a =>
          s.setFrame (frameOf a) { s.frame (frameOf a) with pin := c.f 1 1 == 1 }) s1) () s2 →
        exec (.migAttr q) s = .next s2) ∧
      ((takeCmd q 0x23).gives s c s1 → c.zero 1 3 = true → c.zero 0x10 48 = true → 1 ≤ n → n ≤ 65536 → s1.migFrames p fs = none →
        (∀ a ∈ fs, (s1.frame (frameOf a)).state ≠ 1 ∧ (s1.frame (frameOf a)).state ≠ 2 ∧ (s1.frame (frameOf a)).shared = false) →
        (completeWith q c.seqno 0x23 0 0).gives (fs.foldl (fun s a =>
          let f := s.frame (frameOf a)
          if f.mirror then (s.setFrame f.mframe { s.frame f.mframe with mcopy := false, mframe := 0 }).setFrame (frameOf a)
            { f with mirror := false, mstale := 0, mframe := 0 } else s) s1) () s2 →
        exec (.migUnmirror q) s = .next s2) ∧
      (let ms := frameRun (c.f 0x10 8) n
       (takeCmd q 0x22).gives s c s1 → c.zero 1 3 = true → c.zero 0x18 40 = true → 1 ≤ n → n ≤ 65536 → c.f 0x10 8 ≠ 0 →
        s1.migFrames p (fs ++ ms) = none → (∀ x ∈ fs.zip ms, s1.hubOf x.1 = s1.hubOf x.2 ∧ weirSet x.1 ≠ weirSet x.2) →
        (∀ a ∈ fs, (s1.frame (frameOf a)).state = 0 ∧ (s1.frame (frameOf a)).mirror = false ∧ (s1.frame (frameOf a)).mcopy = false) →
        (∀ a ∈ ms, let f := s1.frame (frameOf a)
          f.state = 0 ∧ f.pin = false ∧ f.mirror = false ∧ f.mcopy = false ∧ f.shared = false) →
        (forAll fs (syncMirror p)).gives ((fs.zip ms).foldl (fun s x =>
          (s.setFrame (frameOf x.1) { s.frame (frameOf x.1) with mirror := true, mstale := 0xFFFF, mframe := frameOf x.2 }).setFrame
            (frameOf x.2) { s.frame (frameOf x.2) with mcopy := true, mframe := frameOf x.1 }) s1) () s2 →
        (completeWith q c.seqno 0x22 0 0).gives s2 () s3 → exec (.migMirror q) s = .next s3) ∧
      (let buf := c.f 0x10 8; let bs := fs.flatMap fun a => leBytes 2 (s1.frame (s1.scanFrame (frameOf a))).dirty
       (takeCmd q 0x25).gives s c s1 → c.zero 2 2 = true → c.zero 0x18 40 = true → c.f 1 1 = 0 → 1 ≤ n → n ≤ 65536 →
        s1.migFrames p (fs ++ frameRun buf (ceilDiv (2 * n) 65536)) = none →
        (∀ a ∈ fs, (s1.frame (s1.scanFrame (frameOf a))).state ≠ 1) →
        (∀ x ∈ pieces buf bs.length, s1.headgate (.queue q) p true x.1 = none) →
        (dpaWrite p 0 buf bs).gives s1 () s2 → (completeWith q c.seqno 0x25 0 0).gives s2 () s3 → exec (.migScan q) s = .next s3) := by
  intro s s1 s2 s3 q c
  intro p n fs
  refine ⟨?free, ?attr, ?unmirror, ?mirror, ?scan⟩
  case free =>
    intro a f taken z1 z2 permitted moved ended
    refine migCommand_ends taken (by simp [z1, z2]) ?_ ended
    refine (go_bind_ok (go_get _) _).trans ?_
    dsimp only
    rw [permitted]
    dsimp only
    rw [if_neg (not_not.2 moved)]
    refine (go_bind_ok (go_upd _ _) _).trans ?_
    rfl
  case attr =>
    intro taken z1 z2 small least most permitted ended
    refine migCommand_ends taken (by simp [z1, z2, small]) ?_ ended
    refine (go_bind_ok (go_get _) _).trans ?_
    dsimp only
    rw [if_neg (count_inRange least most), permitted]
    refine (go_bind_ok (forAll_upd_gives _ _ _) _).trans ?_
    rfl
  case unmirror =>
    intro taken z1 z2 least most permitted idle ended
    refine migCommand_ends taken (by simp [z1, z2]) ?_ ended
    refine (go_bind_ok (go_get _) _).trans ?_
    dsimp only
    rw [if_neg (count_inRange least most), permitted]
    dsimp only
    rw [if_neg (not_any fun a ha => by simp [(idle a ha).1, (idle a ha).2.1]), if_neg (not_any fun a ha => (idle a ha).2.2)]
    refine (go_bind_ok (forAll_upd_gives _ _ _) _).trans ?_
    rfl
  case mirror =>
    intro ms taken z1 z2 least most made permitted pairs sources targets synced ended
    refine migCommand_ends taken (by simp [z1, z2]) ?_ ended
    refine (go_bind_ok (go_get _) _).trans ?_
    dsimp only
    rw [if_neg (count_inRange least most), if_neg made, permitted]
    dsimp only
    rw [if_neg (not_any fun x hx => by simp [(pairs x hx).1, (pairs x hx).2]),
      if_neg (not_any fun a ha => by simp [(sources a ha).1, (sources a ha).2.1, (sources a ha).2.2]),
      if_neg (not_any fun a ha => by
        obtain ⟨state, pin, mirror, mcopy, shared⟩ := targets a ha
        simp [state, pin, mirror, mcopy, shared])]
    refine (go_bind_ok (forAll_upd_gives _ _ _) _).trans ?_
    refine (go_bind_ok synced _).trans ?_
    rfl
  case scan =>
    intro buf bs taken z1 z2 keep least most permitted settled granted written ended
    refine migCommand_ends taken (by simp [z1, z2, keep]) ?_ ended
    refine (go_bind_ok (go_get _) _).trans ?_
    dsimp only
    rw [if_neg (count_inRange least most), permitted]
    dsimp only
    rw [if_neg (not_any fun a ha => by simpa using settled a ha), if_neg (by rw [keep]; omega)]
    refine (go_bind_ok (mapM_gives (g := fun a => leBytes 2 (s1.frame (s1.scanFrame (frameOf a))).dirty) _ fun a _ => ?_) _).trans ?_
    · refine (go_bind_ok (go_get _) _).trans ?_
      rw [if_neg (by rw [keep]; omega)]
      rfl
    · have bytes : (fs.map fun a => leBytes 2 (s1.frame (s1.scanFrame (frameOf a))).dirty).flatten = bs := List.flatMap_def.symm
      rw [bytes, findSome_none fun x hx => by rw [granted x hx]; rfl]
      refine (go_bind_ok written _).trans ?_
      rfl

/-- A move from its command to its end (R373 to R375). -/
theorem frame_moves :
    (∀ (s s1 : State) (q : Nat) (c : QCmd),
      let p := s1.qPart q; let src := c.f 8 8; let dst := c.f 0x10 8
      let a := s1.frame (frameOf src); let b := s1.frame (frameOf dst)
      (takeCmd q 0x20).gives s c s1 → c.zero 1 7 = true → c.zero 0x38 8 = true → src ≠ dst → s1.migFrames p [src, dst] = none →
      s1.hubOf src = s1.hubOf dst →
      (∀ f ∈ [a, b], f.state = 0 ∧ f.pin = false ∧ f.mirror = false ∧ f.mcopy = false ∧ f.shared = false) →
      (s1.moves.filter fun m => s1.hubOf (m.src * 65536) == s1.hubOf src).length < 16 →
      s1.snapNames (frameOf src) = false → s1.snapNames (frameOf dst) = false →
      let s2 := (s1.setFrame (frameOf src) { a with state := 1 }).setFrame (frameOf dst) { b with state := 1 }
      let m : Move :=
        { queue := q, seqno := c.seqno, part := p, src := frameOf src, dst := frameOf dst
          ptes := [c.f 0x18 8, c.f 0x20 8, c.f 0x28 8, c.f 0x30 8] }
      exec (.migMove q) s = .next { s2 with moves := s2.moves ++ [m] }) ∧
    (∀ (s s1 s2 s3 s4 : State) (src : Nat) (m : Move),
      s.moves.find? (fun m => m.src == src) = some m → m.ptes = [0, 0, 0, 0] →
      (engineCopy m.part (m.src * 65536) (m.dst * 65536) 65536).gives s () s1 →
      (forAll (List.range 256) fun i => purgeLine (m.src * 65536 + 256 * i)).gives s1 () s2 →
      let u := s2.dropFrame m.src; let f := u.frame m.src
      let u' := u.setFrame m.dst { u.frame m.dst with state := 0, dirty := f.dirty }
      let u'' := { u'.setFrame m.src { f with state := 2, fwd := m.dst } with moves := u'.moves.erase m }
      releaseWaits.gives u'' () s3 →
      (completeWith m.queue m.seqno 0x20 0 0).gives (s3.perf (hubReg (s3.hubOf (m.src * 65536)) 0x30100) 1) () s4 →
      exec (.migMoveDone src) s = .next s4) := by
  refine ⟨fun s s1 q c => ?move, fun s s1 s2 s3 s4 src m => ?moveDone⟩
  case move =>
    intro p src dst a b taken z1 z2 apart permitted sameHub movable few srcFree dstFree s2 m
    obtain ⟨stateA, pinA, mirrorA, mcopyA, sharedA⟩ := movable a (by simp)
    obtain ⟨stateB, pinB, mirrorB, mcopyB, sharedB⟩ := movable b (by simp)
    refine migCommand_underWay taken (by simp [z1, z2]) ?_
    refine (go_bind_ok (go_get _) _).trans ?_
    dsimp only
    rw [if_neg apart, permitted]
    dsimp only
    have settled : ¬ (a.state ≠ 0 ∨ b.state ≠ 0) := fun h => h.elim (· stateA) (· stateB)
    have unpinned : ¬ (a.pin || b.pin) = true := by simp [pinA, pinB]
    have single : ¬ (a.mirror || a.mcopy || a.shared || b.mirror || b.mcopy || b.shared) = true := by
      simp [mirrorA, mcopyA, sharedA, mirrorB, mcopyB, sharedB]
    have unnamed : ¬ (s1.snapNames (frameOf src) || s1.snapNames (frameOf dst)) = true := by simp [srcFree, dstFree]
    rw [if_neg (not_not.2 sameHub), if_neg settled, if_neg unpinned, if_neg single, if_neg (Nat.not_le.2 few), if_neg unnamed]
    refine (go_bind_ok (go_upd _ _) _).trans ?_
    refine (go_bind_ok (go_upd _ _) _).trans ?_
    rfl
  case moveDone =>
    intro found plain copied purged u f u' u'' released ended
    refine run'_of_go_ok (u := ()) ((go_bind_ok (go_get _) _).trans ?_)
    rw [found]
    dsimp only
    refine (go_bind_ok copied _).trans ?_
    rw [frameRun_one]
    refine (go_bind_ok (forAll_one purged) _).trans ?_
    refine (go_bind_ok (go_upd _ _) _).trans ?_
    refine (go_bind_ok (go_upd _ _) _).trans ?_
    refine (go_bind_ok (mapM_gives (g := fun _ => (0, 0)) _ fun i hi => ?_) _).trans ?_
    · rw [plain, unlisted i, if_pos rfl]
      rfl
    · refine (go_bind_ok released _).trans ?_
      refine (go_bind_ok (go_upd _ _) _).trans ?_
      exact ended

/-- Settles O28: each command's body passes its checks and does its part to the frames. -/
theorem pageFrames : Obligations.PageFrames := ⟨frame_commands, frame_moves⟩

end Sys2Proof.Machine
end

section
/-! SUPPORT. Kernels, launches and contexts. -/

namespace Sys2Proof.Machine

/-- Settles O29: a LOAD, an UNLOAD or a LAUNCH that passes its checks, and the loader's checks in their order. -/
theorem kernels : Obligations.Kernels := by
  refine ⟨fun s s1 s2 s3 q c => ?commands, fun s s1 q c mask image ext h => ?checks⟩
  case commands =>
    intro ctx
    refine ⟨?load, ?unload, ?launch⟩
    case load =>
      intro ext h taken z1 z2 own block loaded ended
      have fields : (!(c.zero 2 6 && c.zero 0x18 40 && c.f 1 1 == s1.rf (qReg q 0) 49 48)) = false := by simp [z1, z2, own, ctx]
      refine run'_of_go_ok (u := ()) ((go_bind_ok taken _).trans ?_)
      refine (go_bind_ok (go_get _) _).trans ?_
      dsimp only
      rw [fields, if_neg Bool.false_ne_true, block, if_neg (not_not.2 rfl)]
      refine (go_bind_ok loaded _).trans ?_
      refine (go_bind_ok (go_get _) _).trans ?_
      exact ended
    case unload =>
      intro k taken z1 z2 found mine idle cancelled ended
      have running : ¬ (s1.launches.any fun l => l.handle == c.f 4 4 && l.part == s1.qPart q) = true :=
        not_any fun l hl => by
          simp only [Bool.and_eq_false_iff, beq_eq_false_iff_ne]
          exact or_iff_not_imp_left.2 fun same => idle l hl (not_not.1 same)
      have kernel : (if (c.zero 1 3 && c.zero 8 56) = true then s1.kernelOf q (c.f 4 4) else none) = some k := by
        rw [z1, z2]
        exact found
      refine run'_of_go_ok (u := ()) ((go_bind_ok taken _).trans ?_)
      refine (go_bind_ok (go_get _) _).trans ?_
      dsimp only
      rw [kernel]
      dsimp only
      rw [if_neg (not_not.2 mine), if_neg running]
      refine (go_bind_ok ((go_bind_ok cancelled _).trans (go_bind_ok (forAll_upd_gives _ _ _) _)) _).trans ?_
      exact ended
    case launch =>
      intro k taken z1 z2 aligned found block l
      have kernel : (if (c.zero 1 3 && c.zero 0x1C 36 && c.f 8 8 % 64 == 0) = true then s1.kernelOf q (c.f 4 4) else none) = some k := by
        rw [z1, z2, aligned]
        exact found
      refine run'_of_go_ok (u := ()) ((go_bind_ok taken _).trans ?_)
      refine (go_bind_ok (go_get _) _).trans ?_
      dsimp only
      rw [kernel]
      dsimp only
      rw [block, if_neg (not_not.2 rfl)]
      exact go_upd ..
  case checks =>
    intro ts f read ends
    refine ⟨fun bad => ?_, fun ok version => ?_, fun ok version => ⟨fun t foreign => ?_, fun mine => ⟨fun count => ?_, fun least most t off => ?_⟩⟩⟩
    all_goals
      refine (go_bind_ok (go_get _) _).trans ((go_bind_ok read _).trans ?_)
      dsimp only
    · rw [bad, Bool.not_false, if_pos rfl]
      rfl
    · rw [ok, Bool.not_true, if_neg Bool.false_ne_true, if_pos version]
      rfl
    · rw [ok, Bool.not_true, if_neg Bool.false_ne_true, if_neg (not_not.2 version), foreign]
      dsimp only
      rw [Nat.shiftLeft_eq]
      rfl
    all_goals
      have none : ts.find? (fun t => s.tilePart t != s.qPart q) = none := List.find?_eq_none.2 fun t ht => by simp [mine t ht]
    · rw [ok, Bool.not_true, if_neg Bool.false_ne_true, if_neg (not_not.2 version), none]
      dsimp only
      rw [if_pos count]
      rfl
    · rw [ok, Bool.not_true, if_neg Bool.false_ne_true, if_neg (not_not.2 version), none]
      dsimp only
      rw [if_neg (not_or.2 ⟨Nat.not_lt.2 least, Nat.not_lt.2 most⟩), off]
      dsimp only
      rw [Nat.shiftLeft_eq]
      rfl

/-- Settles O30: a launch that may start, one that has ended, and one that has run too long. -/
theorem launches : Obligations.Launches := by
  refine ⟨fun s s2 id ext l => ?start, fun s s1 id l => ?complete, fun s id l found phase timed late => ?watchdog⟩
  case start =>
    intro ts found phase ready good sels s1 args
    have queued : ¬ ((decide (l.phase ≠ 0 ∧ l.phase ≠ 3)) || !ts.all (s.startOk l)) = true := by
      rw [ready, phase]
      decide
    have up : ts.find? (fun t => !s.tileUp t) = none := List.find?_eq_none.2 fun t ht => by simp [(good t ht).1]
    have thawed : ts.find? s.tileFrozen = none := List.find?_eq_none.2 fun t ht => by simp [(good t ht).2.1]
    have clean : ts.find? (fun t => ((s.tile t).ctx l.ctx).poison) = none :=
      List.find?_eq_none.2 fun t ht => by simp [(good t ht).2.2]
    have first : ¬ l.phase = 3 := by omega
    refine run'_of_go_ok (u := ()) ((go_bind_ok (go_get _) _).trans ?_)
    rw [found]
    dsimp only
    rw [if_neg queued]
    refine (go_bind_ok ((go_upd _ _).trans (congrArg (Prod.mk _) (if_neg first))) _).trans ?_
    rw [up]
    dsimp only
    rw [thawed]
    dsimp only
    rw [clean]
    dsimp only
    rw [if_neg first]
    refine (go_bind_ok (forAll_upd_gives _ _ _) _).trans ?_
    refine (go_bind_ok (go_upd _ _) _).trans ?_
    exact args
  case complete =>
    intro ts found phase drained ports ps
    have running : ¬ l.phase = 2 := by omega
    have ended : ¬ ((decide (l.phase ≠ 1)) || !ts.all fun t => (s.tile t).drained) = true := by
      rw [List.all_eq_true.2 drained, phase]
      decide
    refine ⟨fun none done => ?_, fun some sent => ?_⟩
    all_goals
      refine run'_of_go_ok (u := ()) ((go_bind_ok (go_get _) _).trans ?_)
      rw [found]
      dsimp only
      rw [if_neg running, if_neg ended]
    · rw [if_pos none]
      exact done
    · rw [if_neg some]
      refine (go_bind_ok (go_upd _ _) _).trans ?_
      exact sent
  case watchdog =>
    refine congrArg Host.Outcome.next ?_
    rw [found]
    refine (if_pos ⟨phase, timed, late⟩).trans ?_
    congr 1
    funext u t
    dsimp only
    cases (u.tile t).running <;> rfl

/-- A context switch from its command to the new context (R132 to R134). -/
theorem context_switches :
    ∀ (s s1 : State) (q t : Nat) (c : QCmd),
      let tl := s.tile t
      ((takeCmd q 4).gives s c s1 → c.zero 2 6 = true → c.zero 0x10 48 = true → c.f 1 1 < 4 → s1.tilesBlock q (c.f 8 8) false = 0 →
        c.f 8 8 ≠ 0 →
        let w : CtxCmd := { id := s1.nextId, queue := q, seqno := c.seqno, ctx := c.f 1 1, todo := c.f 8 8 }
        exec (.ctxSwitch q) s = .next { s1 with switches := s1.switches ++ [w], nextId := s1.nextId + 1 }) ∧
      (∀ w, s.nextSwitch t = some w → tl.run = none → tl.switch = none →
        (∀ l ∈ s.launches, l.id < w.id → bit l.mask t = true → tl.act ≠ some l.ctx) → s.tileFrozen t = false → tl.act ≠ some w.ctx →
        let u := match tl.act with
          | none => tl
          | some a => { tl.save a with chans := [] }
        let u' := (u.toInbox 0 (BitVec.ofNat 64 (0xC0 + w.ctx))).getD u
        exec (.ctxSwitchEffect t) s =
          .next (s.setTile t { u' with switch := some { cmd := w.id, dest := w.ctx, step := 3, t0 := s.time } })) ∧
      (∀ w i, tl.switch = some w → w.step = 3 → tl.post.findIdx? (isHookAck w.dest) = some i →
        let s2 := s.setTile t { tl.restore t w.dest with post := tl.post.eraseIdx i, act := some w.dest, switch := none, tlb := [] }
        ∀ d, s2.switches.find? (fun c => c.id == w.cmd) = some d → (switchDone d t).gives s2 () s1 →
          exec (.ctxSwitchFinish t) s = .next s1) ∧
      (∀ w, tl.switch = some w → w.step = 3 → w.t0 + 40000 ≤ s.time → (∀ e ∈ tl.post, isHookAck w.dest e = false) →
        exec (.hookTimeout t) s = .next (s.setTile t { tl.setReg 0x1020 (BitVec.ofNat 64 (setFld (tl.reg 0x1020).toNat 33 33 1)) with
          switch := some { w with step := 4 } })) := by
  intro s s1 q t c tl
  refine ⟨?accept, ?effect, ?finish, ?timeout⟩
  case accept =>
    intro taken z1 z2 ctx block some w
    have fields : ¬ (!(c.zero 2 6 && c.zero 0x10 48 && decide (c.f 1 1 < 4))) = true := by simp [z1, z2, ctx]
    refine run'_of_go_ok (u := ()) ((go_bind_ok taken _).trans ?_)
    refine (go_bind_ok (go_get _) _).trans ?_
    dsimp only
    rw [if_neg fields, block, if_neg (not_not.2 rfl), if_neg some]
    exact go_upd ..
  case effect =>
    intro w next run switch earlier thawed elsewhere u u'
    have quiet : ¬ (tl.run.isSome || tl.switch.isSome ||
        s.launches.any fun l => decide (l.id < w.id) && bit l.mask t && tl.act == some l.ctx) = true := by
      rw [run, switch]
      refine not_any fun l hl => ?_
      by_cases before : l.id < w.id
      · by_cases named : bit l.mask t = true
        · simp [before, named, earlier l hl before named]
        · simp [named]
      · simp [before]
    refine run'_of_go_ok (u := ()) ((go_bind_ok (go_get _) _).trans ?_)
    dsimp only
    rw [next]
    dsimp only
    rw [if_neg quiet, thawed, if_neg Bool.false_ne_true, if_neg elsewhere]
    exact go_upd ..
  case finish =>
    intro w i switch step found s2 d pending done
    refine run'_of_go_ok (u := ()) ((go_bind_ok (go_get _) _).trans ?_)
    dsimp only
    rw [switch]
    dsimp only
    rw [found, step]
    dsimp only
    rw [if_pos rfl]
    refine (go_bind_ok (go_upd _ _) _).trans ?_
    refine (go_bind_ok (go_get _) _).trans ?_
    rw [pending]
    exact done
  case timeout =>
    intro w switch step late unacknowledged
    refine congrArg Host.Outcome.next ?_
    dsimp only
    rw [switch]
    refine if_pos ⟨step, late, ?_⟩
    rw [Bool.not_eq_true', Bool.eq_false_iff]
    exact not_any unacknowledged

/-- The registers of a tile's contexts (R77, R348). -/
theorem context_registers :
    ∀ (s : State) (t c v : Nat) (o : Origin), s.tileUp t = true → o.mine (s.tilePart t) = true →
      let tl := s.tile t
      (let new := keepBits v (maskBits 63 63 + maskBits 29 16 + maskBits 13 0); let off := tileReg t (0x1000 + 8 * c)
       c < 4 → s.heard o off = true → tl.cfgOk c new = true →
        let u := tl.setReg (0x1000 + 8 * c) (BitVec.ofNat 64 new)
        exec (.seqCtxCfgWrite t c v o) s = .next ((s.noted o off v).setTile t
          (if bit new 63 = true ∧ bit (ctxCfg tl c) 63 = false then u.setCtx c { u.ctx c with poison := false, saved := false } else u))) ∧
      (let new := keepBits v 0xBFBFBFBF
       s.heard o (tileReg t 0) = true →
        (∀ c, c < 4 → tl.inUse c = true → fld new (8 * c + 7) (8 * c) = fld (tl.reg 0).toNat (8 * c + 7) (8 * c)) →
        exec (.tilCtxAsWrite t v o) s = .next ((s.noted o (tileReg t 0) v).setTile t (tl.setReg 0 (BitVec.ofNat 64 new)))) := by
  intro s t c v o up mine tl
  refine ⟨?cfg, ?as⟩
  case cfg =>
    intro new off hc heard ok u
    refine run'_of_go_ok (u := ()) ((go_bind_ok (go_get _) _).trans ?_)
    dsimp only
    rw [if_pos ⟨up, hc⟩]
    have accepted : (o.mine (s.tilePart t) && tl.cfgOk c new) = true := by rw [mine, ok]; rfl
    refine (go_bind_ok ((regWrite_heard heard accepted _).trans (go_upd _ _)) _).trans ?_
    rw [ok, Bool.not_true, Bool.and_false, if_neg Bool.false_ne_true]
    refine (go_upd _ _).trans (congrArg (Prod.mk _) ?_)
    refine congrArg (State.setTile _ t) (if_congr ?_ rfl rfl)
    rw [Bool.and_eq_true, Bool.not_eq_true']
  case as =>
    intro new heard kept
    have fits : ((List.range 4).all fun c => !tl.inUse c || fld new (8 * c + 7) (8 * c) == fld (tl.reg 0).toNat (8 * c + 7) (8 * c)) =
        true := by
      refine List.all_eq_true.2 fun c hc => ?_
      cases used : tl.inUse c
      · rfl
      · simp [kept c (List.mem_range.1 hc) used]
    refine run'_of_go_ok (u := ()) ((go_bind_ok (go_get _) _).trans ?_)
    dsimp only
    rw [if_pos up]
    have accepted : (o.mine (s.tilePart t) && (List.range 4).all fun c =>
        !tl.inUse c || fld new (8 * c + 7) (8 * c) == fld (tl.reg 0).toNat (8 * c + 7) (8 * c)) = true := by rw [mine, fits]; rfl
    refine (go_bind_ok ((regWrite_heard heard accepted _).trans (go_upd _ _)) _).trans ?_
    rw [fits, Bool.not_true, Bool.and_false, if_neg Bool.false_ne_true]
    rfl

/-- Settles O32: a switch is accepted, begins and ends, and the registers of the contexts take what their rules allow. -/
theorem contexts : Obligations.Contexts := ⟨context_switches, context_registers⟩

end Sys2Proof.Machine
end

section
/-! SUPPORT. The sluice's instructions, and the enabling of a communicator. -/

namespace Sys2Proof.Machine

section
variable {s s' : State} {t : Nat} {r : Run} {k : LKernel} {opc : Nat} {w : IWord} {x : W64}

/-- An instruction whose effect on the device aborts the task. -/
theorem deviceInstr_abort {i : Instr} {body : State → Tile → Kx → State × Act} {tl : Tile} {c d : Nat} (h : s.canIssue t opc w x = true)
    (hr : (s.tile t).running = some (r, k)) (hb : body s (s.issuing t r opc) (s.seen t r k opc w) = (s', .abort tl c d)) :
    deviceInstr s t i opc w x body = .next (abortTile s' t tl c d) := by
  rw [deviceInstr_issue h hr, hb]
  rfl

/-- An effect on the device that breaks off. -/
theorem inDev_abort {m : Dev Act} {tl : Tile} {c d : Nat} (h : m.go (s.setTile t tl) = (.error (.abort c d), s')) :
    inDev t m s tl = (s', .abort (s'.tile t) c d) := by
  unfold inDev
  simp only [h]

end

/-- What holds of the value that an option may have. -/
theorem Option.all_of_forall {α : Type} {o : Option α} {p : α → Bool} (h : ∀ a, o = some a → p a = true) : o.all p = true := by
  cases o with
  | none => rfl
  | some a => exact h a rfl

theorem findIdx?_none {α : Type} {l : List α} {p : α → Bool} (h : ∀ a ∈ l, p a = false) : l.findIdx? p = none :=
  List.findIdx?_eq_none_iff.2 h

/-- SLC, SLCW and SLC_POST when their checks pass (R396 to R399, R415). -/
theorem slc_posts :
    ∀ (s s1 s2 s3 : State),
      (∀ (t : Nat) (w : IWord) (x : W64) (r : Run) (k : LKernel), (s.tile t).running = some (r, k) →
        (s.canIssue t 0x70 w x = true →
          let tl := s.issuing t r 0x70; let s0 := s.setTile t tl
          let slot := slcPhys k (fld w.imm.toNat 3 0); let at' := specCis (tl.ctx r.ctx) (specA x)
          let bs := tl.cisBytes (k.cisOff + at') 128; let d := slcD bs; let key : OpKey := (d.comm, d.tag, d.step)
          let posts := ((s0.op key).map fun o => o.posts).getD []; let was := spGet dSlc tl.slc slot
          readable tl k at' 128 = true → slcDescOk bs = true → (∀ c, s0.comm d.comm = some c → slcCountOk c d = true) →
          slcRanges d (((s0.comm d.comm).map fun c => c.total d.stages).getD 1) k.cisBytes = true →
          s0.slcCommOk (s0.tilePart t) (some t) d = true → d.late = false → was.state ≠ 1 →
          (∀ p ∈ posts, p.who = .tile t → p.ended = true ∧ p.kept = false) → s0.openOps < 256 → tl.run = some r →
          (slcOpen { who := .tile t, slot := slot, ctx := r.ctx, sel := r.sel, cisOff := k.cisOff, launch := r.launch
                     handle := k.handle, jmode := r.jmode, jstep := r.jstep, seqno := 0, desc := bs, t0 := s.time, ended := false
                     status := 0, detail := 0, flags := 0, got := [], taken := false, filled := 0, since := none, kept := false }).gives
            (s0.setTile t { tl with slc := spSet dSlc tl.slc slot { was with state := 1, tag := d.tag, ring := d.ringOf } }) () s1 →
          exec (.slc t w x) s = .next (s1.went t r 0x70 w (s1.tile t))) ∧
        (s.canIssue t 0x71 w x = true →
          let tl := s.issuing t r 0x71; let sl := slcPhys k (fld w.imm.toNat 3 0); let g := spGet dSlc tl.slc sl
          let rec' := if g.state = 0 then slcRecord 0xA09 sl 0 0 0 0 0 0 s.time else g.record
          let at' := specCis (tl.ctx r.ctx) (specA x)
          g.state ≠ 1 → at' + rec'.length ≤ k.cisBytes →
          exec (.slcw t w x) s = .next (s.went t r 0x71 w (tl.cisPut (k.cisOff + at') rec')))) ∧
      (∀ (q : Nat) (c : QCmd) (bs : List Byte),
        let v := s1.queueView q 2; let d := slcD bs; let key : OpKey := (d.comm, d.tag, d.step)
        let posts := ((s2.op key).map fun o => o.posts).getD []
        (takeCmd q 0x30).gives s c s1 → c.zero 1 7 = true → c.zero 0x10 48 = true → c.f 8 8 % 64 = 0 →
        (vaRead v 0 (c.f 8 8) 128 none).gives s1 (.ok bs) s2 → slcDescOk bs = true → d.srcCis = false → d.dstCis = false →
        d.ring = false → bit d.stages 0 = false → (∀ c, s2.comm d.comm = some c → slcCountOk c d = true) →
        s2.slcCommOk (s2.qPart q) none d = true → d.late = false → (∀ p ∈ posts, p.who = .queue q → p.ended = true) → s2.openOps < 256 →
        (slcOpen { who := .queue q, slot := 0xFF, ctx := 0, sel := v.sel, cisOff := 0, launch := 0, handle := 0, jmode := 0, jstep := 0
                   seqno := c.seqno, desc := bs, t0 := s2.time, ended := false, status := 0, detail := 0, flags := 0, got := []
                   taken := false, filled := 0, since := none, kept := false }).gives s2 () s3 →
        exec (.slcPost q) s = .next s3) := by
  refine fun s s1 s2 s3 => ⟨fun t w x r k hr => ⟨?slc, ?slcw⟩, ?post⟩
  case slc =>
    intro hc tl s0 slot at' bs d key posts was data desc counts ranges allowed early free ended few run opened
    refine deviceInstr_done hc hr (inDev_ok ?_)
    refine (go_bind_ok (go_liftEx_of_ok (cisRead_readable data)) _).trans ?_
    refine (go_bind_ok (go_get _) _).trans ?_
    refine (go_bind_ok (must_true (by rw [desc, Option.all_of_forall counts]; rfl) _ _) _).trans ?_
    refine (go_bind_ok (must_true ranges _ _) _).trans ?_
    refine (go_bind_ok (must_true allowed _ _) _).trans ?_
    refine (go_bind_ok (must_true (by rw [show (slcD _).late = false from early]; rfl) _ _) _).trans ?_
    dsimp only
    have unkept : ∀ p ∈ posts, (p.who == .tile t && p.slot == slot && p.kept) = false := fun p hp => by
      cases here : p.who == .tile t
      · rfl
      · simp [(ended p hp (beq_iff_eq.1 here)).2]
    have unposted : (posts.any fun p => p.who == .tile t && !p.ended) = false := List.any_eq_false.2 fun p hp => by
      cases here : p.who == .tile t
      · simp
      · simp [(ended p hp (beq_iff_eq.1 here)).1]
    split
    · next i found => cases found.symm.trans (findIdx?_none unkept)
    · refine (go_bind_ok (must_true (bne_iff_ne.2 free) _ _) _).trans ?_
      refine (go_bind_ok (must_true (congrArg not unposted) _ _) _).trans ?_
      rw [if_neg fun h => absurd few (Nat.not_lt.2 h.1)]
      refine (go_bind_ok (go_upd _ _) _).trans ?_
      have fromRun (f : Run → Nat) : ((s.issuing t r 0x70).run.map f).getD 0 = f r := by
        rw [show (s.issuing t r 0x70).run = some r from run]
        rfl
      rw [fromRun, fromRun, fromRun, fromRun]
      refine (go_bind_ok opened _).trans ?_
      exact go_bind_ok (go_get _) _
  case slcw =>
    intro hc tl sl g rec' at' idle inside
    refine tileInstr_done hc hr ((if_neg idle).trans ?_)
    exact congrArg (Act.of tl) (cisWrite_inside inside)
  case post =>
    intro q c bs v d key posts taken z1 z2 aligned read desc srcCis dstCis ring noTiles counts allowed early ended few opened
    refine run'_of_go_ok (u := ()) ((go_bind_ok taken _).trans ?_)
    refine (go_bind_ok (go_get _) _).trans ?_
    dsimp only
    rw [if_neg (by simp [z1, z2, aligned])]
    refine (go_bind_ok read _).trans ?_
    dsimp only
    refine (go_bind_ok (go_get _) _).trans ?_
    rw [if_neg (by rw [desc, srcCis, dstCis, ring, noTiles, Option.all_of_forall counts]; exact Bool.false_ne_true), if_neg (by rw [allowed]; exact Bool.false_ne_true),
      if_neg (by rw [early, Bool.false_and]; exact Bool.false_ne_true)]
    have unposted : (posts.any fun p => p.who == .queue q && !p.ended) = false := List.any_eq_false.2 fun p hp => by
      cases here : p.who == .queue q
      · simp
      · simp [ended p hp (beq_iff_eq.1 here)]
    rw [if_neg (Bool.eq_false_iff.1 unposted), if_neg fun h => absurd few (Nat.not_lt.2 h.1)]
    exact opened

/-- The first check that fails aborts an SLC (R396). -/
theorem slc_checks :
    ∀ (s : State) (t : Nat) (w : IWord) (x : W64) (r : Run) (k : LKernel), (s.tile t).running = some (r, k) →
      s.canIssue t 0x70 w x = true →
      let tl := s.issuing t r 0x70; let s0 := s.setTile t tl; let at' := specCis (tl.ctx r.ctx) (specA x)
      let bs := tl.cisBytes (k.cisOff + at') 128; let d := slcD bs
      let ranges := slcRanges d (((s0.comm d.comm).map fun c => c.total d.stages).getD 1) k.cisBytes
      let aborts := fun code => exec (.slc t w x) s = .next (abortTile s0 t (s0.tile t) code 0)
      readable tl k at' 128 = true →
      (slcDescOk bs = false → aborts 0xA01) ∧
      (slcDescOk bs = true → (∀ c, s0.comm d.comm = some c → slcCountOk c d = true) →
        (ranges = false → aborts 0x321) ∧
        (ranges = true → (s0.slcCommOk (s0.tilePart t) (some t) d = false → aborts 0xA02) ∧
          (s0.slcCommOk (s0.tilePart t) (some t) d = true → d.late = false → s0.op (d.comm, d.tag, d.step) = none →
            (spGet dSlc tl.slc (slcPhys k (fld w.imm.toNat 3 0))).state = 1 → aborts 0xA03))) := by
  intro s t w x r k hr hc tl s0 at' bs d ranges aborts data
  refine ⟨fun bad => ?desc, fun desc counts => ⟨fun outside => ?ranges, fun inside => ⟨fun denied => ?denied, ?posted⟩⟩⟩
  case desc =>
    refine deviceInstr_abort hc hr (inDev_abort ?_)
    refine (go_bind_ok (go_liftEx_of_ok (cisRead_readable data)) _).trans ?_
    refine (go_bind_ok (go_get _) _).trans ?_
    exact go_bind_error (must_false (by rw [bad]; rfl) _ _) _
  case ranges =>
    refine deviceInstr_abort hc hr (inDev_abort ?_)
    refine (go_bind_ok (go_liftEx_of_ok (cisRead_readable data)) _).trans ?_
    refine (go_bind_ok (go_get _) _).trans ?_
    refine (go_bind_ok (must_true (by rw [desc, Option.all_of_forall counts]; rfl) _ _) _).trans ?_
    exact go_bind_error (must_false outside _ _) _
  case denied =>
    refine deviceInstr_abort hc hr (inDev_abort ?_)
    refine (go_bind_ok (go_liftEx_of_ok (cisRead_readable data)) _).trans ?_
    refine (go_bind_ok (go_get _) _).trans ?_
    refine (go_bind_ok (must_true (by rw [desc, Option.all_of_forall counts]; rfl) _ _) _).trans ?_
    refine (go_bind_ok (must_true inside _ _) _).trans ?_
    exact go_bind_error (must_false denied _ _) _
  case posted =>
    intro allowed early unopened busy
    refine deviceInstr_abort hc hr (inDev_abort ?_)
    refine (go_bind_ok (go_liftEx_of_ok (cisRead_readable data)) _).trans ?_
    refine (go_bind_ok (go_get _) _).trans ?_
    refine (go_bind_ok (must_true (by rw [desc, Option.all_of_forall counts]; rfl) _ _) _).trans ?_
    refine (go_bind_ok (must_true inside _ _) _).trans ?_
    refine (go_bind_ok (must_true allowed _ _) _).trans ?_
    refine (go_bind_ok (must_true (by rw [show (slcD _).late = false from early]; rfl) _ _) _).trans ?_
    rw [unopened]
    dsimp only
    exact go_bind_error (must_false (bne_eq_false_iff_eq.2 busy) _ _) _

/-- EN of a communicator, by its record (R386, R389). -/
theorem communicator_enables :
    ∀ (s s1 : State) (n v : Nat) (o : Origin) (r : Option SlcComm),
      let off := commReg n; let new := keepBits v (maskBits 63 54 + maskBits 47 6); let part := fld new 62 60
      n < 64 → s.rb off 63 = false → bit new 63 = true → (o.isDrd || o.owns part) = true →
      (commRead n (fld new 47 6 * 64)).gives (s.putAt off new) r s1 →
      (∀ c, r = some c → s1.commOk part c = true → s1.heard o off = true →
        let s2 := s1.noted o off v
        exec (.slcCommWrite n v o) s = .next { s2 with
          comms := spSet (fun _ => { mask := 0, stages := [] }) s2.comms n c
          ops := s2.ops.filter fun x => x.comm != n
          lates := s2.lates.filter fun x => x.comm != n
          spkOps := s2.spkOps.filter fun x => x.comm != n
          spkEpoch := s2.spkEpoch.filter fun e => e.1 / 8 % 64 != n }) ∧
      ((r.all fun c => !s1.commOk part c) = true →
        let s2 := s1.putAt off (s.rn off)
        s2.reaches o off = true →
        exec (.slcCommWrite n v o) s = .next ((List.range 4).foldl (fun s h => s.setF (slcReg h 0) 40 40 1) (s2.logRec 2 o 0 off v))) := by
  intro s s1 n v o r off new part inRange closed on owner read
  have shut : ¬ bit (s.rn off) 63 = true := Bool.eq_false_iff.1 closed
  have mine : (o.isDrd || o.owns (if bit (s.rn off) 63 = true then fld (s.rn off) 62 60 else fld new 62 60)) = true := by
    rw [if_neg shut]
    exact owner
  refine ⟨?enabled, ?refused⟩
  case enabled =>
    intro c some' good heard s2
    subst some'
    refine run'_of_go_ok (u := ()) ((go_bind_ok (go_get _) _).trans ?_)
    dsimp only
    rw [if_pos inRange, if_neg shut, if_pos (Bool.and_eq_true_iff.2 ⟨on, mine⟩)]
    refine (go_bind_ok ((go_bind_ok (go_upd _ _) _).trans read) _).trans ?_
    dsimp only
    refine (go_bind_ok (go_get _) _).trans ?_
    rw [if_pos good]
    exact (regWrite_heard heard rfl _).trans (go_upd _ _)
  case refused =>
    intro bad s2 reached
    refine run'_of_go_ok (u := ()) ((go_bind_ok (go_get _) _).trans ?_)
    dsimp only
    rw [if_pos inRange, if_neg shut, if_pos (Bool.and_eq_true_iff.2 ⟨on, mine⟩)]
    refine (go_bind_ok ((go_bind_ok (go_upd _ _) _).trans read) _).trans ?_
    cases r with
    | none =>
      dsimp only
      refine (go_bind_ok (go_upd _ _) _).trans ?_
      exact (go_bind_ok (regWrite_discarded reached rfl _) _).trans (go_upd _ _)
    | some c =>
      dsimp only
      refine (go_bind_ok (go_get _) _).trans ?_
      rw [if_neg (by simpa using bad)]
      refine (go_bind_ok (go_upd _ _) _).trans ?_
      exact (go_bind_ok (regWrite_discarded reached rfl _) _).trans (go_upd _ _)

/-- Settles O34: the instruction's checks in their order, and what follows the last of them. -/
theorem sluiceInstructions : Obligations.SluiceInstructions := ⟨slc_posts, slc_checks, communicator_enables⟩

end Sys2Proof.Machine
end

section
/-! SUPPORT. Operations of the sluice, and its packets. -/

namespace Sys2Proof.Machine

/-! ### Changes of an operation -/

/-- The first of a list that a predicate holds of, when each of those is changed and still meets it. -/
theorem find?_map_changed {α : Type} {p : α → Bool} {f : α → α} {a : α} {l : List α} (found : l.find? p = some a) (keeps : p (f a) = true) :
    (l.map fun x => if p x = true then f x else x).find? p = some (f a) := by
  induction l with
  | nil => cases found
  | cons x xs ih =>
    cases px : p x with
    | true =>
      rw [List.find?_cons_of_pos px] at found
      cases found
      rw [List.map_cons, if_pos px, List.find?_cons_of_pos keeps]
    | false =>
      have other : ¬ p x = true := Bool.eq_false_iff.1 px
      rw [List.find?_cons_of_neg other] at found
      rw [List.map_cons, if_neg other, List.find?_cons_of_neg other, ih found]

theorem State.op_modOp {s : State} {k : OpKey} {o : SlcOp} (found : s.op k = some o) {f : SlcOp → SlcOp} (key : (f o).key = o.key) :
    (s.modOp k f).op k = some (f o) := by
  rw [State.modOp, if_pos (by rw [found]; rfl)]
  refine find?_map_changed found ?_
  rw [key]
  exact (List.find?_some (p := fun o : SlcOp => o.key == k) found)

theorem State.modPost_tiles (s : State) (k : OpKey) (i : Nat) (f : SlcPost → SlcPost) : (s.modPost k i f).tiles = s.tiles := by
  unfold State.modPost State.modOp
  split <;> rfl

theorem State.op_modPost {s : State} {k : OpKey} {o : SlcOp} {p : SlcPost} {i : Nat} (found : s.op k = some o) (post : o.posts[i]? = some p)
    (f : SlcPost → SlcPost) : ((s.modPost k i f).op k).bind (fun o => o.posts[i]?) = some (f p) := by
  rw [State.modPost, State.op_modOp found rfl, Option.bind_some, List.getElem?_modify_eq, post]
  rfl

/-! ### The performance counters of a completion -/

theorem State.perf_ops (s : State) (off n : Nat) : (s.perf off n).ops = s.ops := by
  unfold State.perf
  dsimp only
  split <;> rfl

theorem State.perf_tiles (s : State) (off n : Nat) : (s.perf off n).tiles = s.tiles := by
  unfold State.perf
  dsimp only
  split <;> rfl

/-- What an advance of one counter keeps, an advance of some of a list of counters keeps. -/
theorem foldl_perf_keeps {α : Type} {get : State → α} (keeps : ∀ s off, get (s.perf off 1) = get s) (s : State) (hubs : List Nat)
    (off : Nat → Nat) (used : Nat → Prop) [DecidablePred used] :
    get (hubs.foldl (fun s h => if used h then s.perf (off h) 1 else s) s) = get s := by
  refine List.foldlRecOn hubs _ (motive := fun u => get u = get s) rfl fun u hu h _ => ?_
  split
  · exact (keeps u _).trans hu
  · exact hu

/-! ### The fields of a record -/

theorem dfld_here (n v : Nat) (rest : List Byte) : dfld (leBytes n v ++ rest) 0 n = v % 256 ^ n := by
  rw [dfld, List.drop_zero, List.take_left' (leBytes_length n v), leNat_leBytes]

theorem dfld_beyond (m v off n : Nat) (rest : List Byte) : dfld (leBytes m v ++ rest) (m + off) n = dfld rest off n := by
  have past : m + off = (leBytes m v).length + off := by rw [leBytes_length]
  rw [dfld, past, List.drop_length_add_append]
  rfl

section
variable (status slot flags tag step present expected detail time : Nat)

theorem slcRecord_status : dfld (slcRecord status slot flags tag step present expected detail time) 0 2 = status % 65536 := by
  simp only [slcRecord, List.append_assoc]
  exact dfld_here 2 status _

theorem slcRecord_tag : dfld (slcRecord status slot flags tag step present expected detail time) 4 4 = tag % 2 ^ 32 := by
  simp only [slcRecord, List.append_assoc]
  exact (dfld_beyond 2 _ 2 4 _).trans ((dfld_beyond 1 _ 1 4 _).trans ((dfld_beyond 1 _ 0 4 _).trans (dfld_here 4 tag _)))

theorem slcRecord_step : dfld (slcRecord status slot flags tag step present expected detail time) 8 4 = step % 2 ^ 32 := by
  simp only [slcRecord, List.append_assoc]
  exact (dfld_beyond 2 _ 6 4 _).trans ((dfld_beyond 1 _ 5 4 _).trans ((dfld_beyond 1 _ 4 4 _).trans ((dfld_beyond 4 _ 0 4 _).trans
    (dfld_here 4 step _))))

theorem slcRecord_time : dfld (slcRecord status slot flags tag step present expected detail time) 24 8 = time % 2 ^ 64 := by
  simp only [slcRecord, List.append_assoc]
  refine (dfld_beyond 2 _ 22 8 _).trans ((dfld_beyond 1 _ 21 8 _).trans ((dfld_beyond 1 _ 20 8 _).trans ((dfld_beyond 4 _ 16 8 _).trans
    ((dfld_beyond 4 _ 12 8 _).trans ((dfld_beyond 4 _ 8 8 _).trans ((dfld_beyond 4 _ 4 8 _).trans ((dfld_beyond 4 _ 0 8 _).trans ?_)))))))
  simpa using dfld_here 8 time []

end

/-! ### Completion -/

/-- The tile that a completed post leaves: the slot's registers hold the post's end (R414). -/
def Tile.ended (tl : Tile) (slot status : Nat) (record : List Byte) : Tile :=
  { tl with slc := spMod dSlc tl.slc slot fun x =>
      { x with state := if status = 0xA08 then 3 else 2, status := status, record := record } }

/-- A tile's post completes. -/
theorem slcFinish_tile {s : State} {k : OpKey} {i t status detail : Nat} {o : SlcOp} {p : SlcPost} (found : s.op k = some o)
    (post : o.posts[i]? = some p) (running : p.ended = false) (who : p.who = .tile t) : ∃ (flags present n : Nat) (s2 : State),
    let s1 := s.modPost k i fun p => { p with ended := true, status := status, detail := detail, flags := flags }
    s2.ops = s1.ops ∧ s2.tiles = s1.tiles ∧ (slcFinish k i status detail).gives s ()
      (s2.setTile t ((s2.tile t).ended p.slot status (slcRecord status p.slot flags k.2.1 k.2.2 present n detail s.time))) := by
  apply Exists.intro
  apply Exists.intro
  apply Exists.intro
  apply Exists.intro
  refine ⟨?ops, ?tiles, ?gives⟩
  case gives =>
    unfold slcFinish
    refine (go_bind_ok (go_get _) _).trans ?_
    rw [found, Option.bind_some, post]
    dsimp only
    rw [if_neg (Bool.eq_false_iff.1 running)]
    refine (go_bind_ok (go_upd _ _) _).trans ?_
    refine (go_bind_ok (go_upd _ _) _).trans ?_
    rw [who]
    exact go_upd _ _
  case ops => exact foldl_perf_keeps (fun s off => State.perf_ops s off 1) _ _ _ _
  case tiles => exact foldl_perf_keeps (fun s off => State.perf_tiles s off 1) _ _ _ _

/-- Acknowledgements and data packets (R400, R402, R408, R409). -/
theorem sluice_packets :
    ∀ (s s2 : State) (msg : List Byte) (c : SlcComm),
      let f := dfld msg; let k : OpKey := (f 4 2, f 8 4, f 0xC 4); let s1 := s.leaTake 2 msg
      let st := ((s1.op k).bind fun o => if o.desc = [] then none else some (slcD o.desc).stages).getD (s1.stagesOf c k.1 k.2.1)
      let from' := c.rankOf st (f 1 1) (f 0x18 4); let unit := f 0x10 8
      s1.comm k.1 = some c →
      (f 0 1 = 4 →
        let hit := fun (e : SlcSent) => e.stage == f 1 1 && e.hop == f 2 1 && e.unit == unit && e.off == f 0x34 4 && e.dest == from'
        let ack := fun (e : SlcSent) => if hit e then { e with acked := true } else e
        exec (.sluicePacketReceive msg) s = .next (s1.modOp k fun o => { o with sent := o.sent.map ack })) ∧
      (1 ≤ f 0 1 → f 0 1 ≤ 3 → s.staged (unit % 4) + f 0x28 4 ≤ 8 * 2 ^ 20 →
        let s3 := (s1.perf (slcReg (unit % 4) 0x108) (1 + ceilDiv (f 0x28 4) 64)).toMember c (f 1 1) from' unit 2 0x30
          (slcPacket k 4 (f 1 1) (f 2 1) 0 unit (c.global st 0) 0 0 0 (f 0x2C 4) (f 0x34 4) [])
        (s1.op k = none →
          (slcStep k).gives (s3.addTerm k
            { kind := f 0 1, stage := f 1 1, hop := f 2 1, src := f 0x18 4, unit := unit, off := f 0x34 4, contrib := f 0x1C 4
              hdr := f 0x20 8, own := false, digest := f 0x2C 4, data := (msg.drop 64).take (f 0x28 4) }) () s2 →
          exec (.sluicePacketReceive msg) s = .next s2) ∧
        (∀ o, s1.op k = some o → (o.terms.any fun t => t.stage == f 1 1 && t.hop == f 2 1 && t.unit == unit && t.off == f 0x34 4 &&
            t.src == f 0x18 4 && !t.own) = true →
          exec (.sluicePacketReceive msg) s = .next (s3.count (slcReg (unit % 4) 0x18) 1))) := by
  intro s s2 msg c f k s1 st from' unit member
  refine ⟨?ack, ?data⟩
  case ack =>
    intro kind
    have small : (decide (1 ≤ f 0 1 ∧ f 0 1 ≤ 3)) = false := decide_eq_false (by omega)
    refine run'_of_go_ok (u := ()) ((go_bind_ok (go_get _) _).trans ?_)
    dsimp only
    rw [small, Bool.false_and, Bool.false_and, Bool.not_false, if_pos rfl]
    refine (go_bind_ok (go_upd _ _) _).trans ?_
    refine (go_bind_ok (go_get _) _).trans ?_
    rw [member]
    dsimp only
    rw [if_pos kind]
    exact go_upd _ _
  case data =>
    intro kind1 kind3 room s3
    have fits : (decide (8 * 2 ^ 20 < s.staged (unit % 4) + f 0x28 4)) = false := decide_eq_false (by omega)
    have unacked : ¬ f 0 1 = 4 := by omega
    have matching : ¬ f 0 1 = 5 := by omega
    have known : ¬ (f 0 1 = 0 ∨ 5 < f 0 1) := by omega
    refine ⟨?first, ?again⟩
    case first =>
      intro unopened stepped
      refine run'_of_go_ok (u := ()) ((go_bind_ok (go_get _) _).trans ?_)
      dsimp only
      rw [fits, Bool.and_false, Bool.not_false, if_pos rfl]
      refine (go_bind_ok (go_upd _ _) _).trans ?_
      refine (go_bind_ok (go_get _) _).trans ?_
      rw [member]
      dsimp only
      rw [if_neg unacked, if_neg matching, if_neg known, if_neg Bool.false_ne_true]
      refine (go_bind_ok (go_upd _ _) _).trans ?_
      refine (go_bind_ok (go_upd _ _) _).trans ?_
      have begun : (s1.op k).getD (.begun k) = .begun k := by rw [unopened, Option.getD_none]
      rw [begun]
      rw [if_neg (by exact Bool.false_ne_true), if_neg (fun h => h.1 rfl)]
      refine (go_bind_ok (go_upd _ _) _).trans ?_
      exact stepped
    case again =>
      intro o found dup
      refine run'_of_go_ok (u := ()) ((go_bind_ok (go_get _) _).trans ?_)
      dsimp only
      rw [fits, Bool.and_false, Bool.not_false, if_pos rfl]
      refine (go_bind_ok (go_upd _ _) _).trans ?_
      refine (go_bind_ok (go_get _) _).trans ?_
      rw [member]
      dsimp only
      rw [if_neg unacked, if_neg matching, if_neg known, if_neg Bool.false_ne_true]
      refine (go_bind_ok (go_upd _ _) _).trans ?_
      refine (go_bind_ok (go_upd _ _) _).trans ?_
      have going : (s1.op k).getD (.begun k) = o := by rw [found, Option.getD_some]
      rw [going, if_pos dup]
      exact go_upd _ _

/-- Completions, deadlines and released slots (R410, R414, R417). -/
theorem sluice_ends :
    ∀ (s s1 s2 : State),
      (∀ (comm tag step post : Nat) (o : SlcOp) (c : SlcComm) (p : SlcPost),
        let k : OpKey := (comm, tag, step); let d := slcD p.desc
        s.op k = some o → o.posts[post]? = some p →
        (slcComplete s k post = true → s.comm comm = some c → d.opk ≠ 5 → d.late = false →
          (forAll (slcHubs d (c.total d.stages)) fun h => do
            let _ ← slcJournal k 3 h (leBytes 4 step ++ leBytes 4 (s.slcPresent k c d) ++ leBytes 4 o.added)).gives s () s1 →
          (slcFinish k post 0 0).gives s1 () s2 → exec (.slcOpComplete comm tag step post) s = .next s2) ∧
        (p.ended = false → d.dead ≠ 0 → bit d.flags 5 = false → p.t0 + 1000 * d.dead ≤ s.time → (slcFinish k post 0xA07 0).gives s () s1 →
          exec (.slcDeadlineExpiry comm tag step post) s = .next s1)) ∧
      (∀ t slot i, (spGet dSlc (s.tile t).slc slot).ring.sl.getD i 0 = 2 → s.ops = [] →
        exec (.sluiceSlotReclaim t slot i) s = .next (s.setTile t { s.tile t with
          slc := spMod dSlc (s.tile t).slc slot fun x => { x with ring := x.ring.setSlot i 0 } })) := by
  refine fun s s1 s2 => ⟨fun comm tag step post o c p => ?ends, fun t slot i => ?slot⟩
  case ends =>
    intro k d found has
    refine ⟨fun complete member plain early journal finished => ?_, fun running armed noLate late finished => ?_⟩
    · refine run'_of_go_ok (u := ()) ((go_bind_ok (go_get _) _).trans ?_)
      dsimp only
      rw [if_pos complete, found, member]
      dsimp only
      rw [has]
      dsimp only
      rw [if_neg plain]
      refine (go_bind_ok (go_get _) _).trans ?_
      rw [if_neg plain]
      refine (go_bind_ok journal _).trans ?_
      refine (go_bind_ok finished _).trans ?_
      rw [if_neg (Bool.eq_false_iff.1 early)]
      rfl
    · refine run'_of_go_ok (u := ()) ((go_bind_ok (go_get _) _).trans ?_)
      rw [found, Option.bind_some, has]
      dsimp only
      have due : (!p.ended && d.dead != 0 && !bit d.flags 5 && decide (p.t0 + 1000 * d.dead ≤ s.time)) = true := by
        simp [running, noLate, late, armed]
      rw [if_pos due]
      exact finished
  case slot =>
    intro released noOps
    refine run'_of_go_ok (u := ()) ((go_bind_ok (go_get _) _).trans ?_)
    dsimp only
    rw [if_pos released]
    refine (go_bind_ok (go_upd _ _) _).trans ?_
    rw [noOps]
    rfl

/-- A tile's post ends with its status (R414, R416). -/
theorem post_finishes :
    ∀ (s : State) (k : OpKey) (i t status detail : Nat) (o : SlcOp) (p : SlcPost),
      s.op k = some o → o.posts[i]? = some p → p.ended = false → p.who = .tile t → spWf dTile s.tiles = true →
      spWf dSlc (s.tile t).slc = true →
      ∃ s', (slcFinish k i status detail).gives s () s' ∧
        ((s'.op k).bind fun o => o.posts[i]?).map (fun p => (p.ended, p.status, p.detail)) = some (true, status, detail) ∧
        let x := spGet dSlc (s'.tile t).slc p.slot
        x.status = status ∧ x.state = (if status = 0xA08 then 3 else 2) ∧ dfld x.record 0 2 = status % 65536 ∧
        dfld x.record 4 4 = k.2.1 % 2 ^ 32 ∧ dfld x.record 8 4 = k.2.2 % 2 ^ 32 ∧ dfld x.record 24 8 = s.time % 2 ^ 64 := by
  intro s k i t status detail o p found post running who tiles slots
  obtain ⟨flags, present, n, s2, ops, allTiles, done⟩ := slcFinish_tile (status := status) (detail := detail) found post running who
  refine ⟨_, done, ?_, ?_⟩
  · rw [State.op, State.setTile_ops, ops]
    exact congrArg (Option.map _) (State.op_modPost found post _)
  · intro x
    rw [State.modPost_tiles] at allTiles
    have wf : spWf dTile s2.tiles = true := by rw [allTiles]; exact tiles
    have same : s2.tile t = s.tile t := by rw [State.tile, State.tile, allTiles]
    have x_eq : x = { spGet dSlc (s.tile t).slc p.slot with
        state := if status = 0xA08 then 3 else 2, status := status
        record := slcRecord status p.slot flags k.2.1 k.2.2 present n detail s.time } := by
      rw [show x = spGet dSlc ((s2.setTile t _).tile t).slc p.slot from rfl, State.tile_setTile wf, if_pos rfl, same]
      exact spGet_set_same dSlc slots _ _
    rw [x_eq]
    exact ⟨rfl, rfl, slcRecord_status .., slcRecord_tag .., slcRecord_step .., slcRecord_time ..⟩

/-- Settles O35: the packet's kinds, the ends of a post, and the record that a completion leaves. -/
theorem sluiceWork : Obligations.SluiceWork := ⟨sluice_packets, sluice_ends, post_finishes⟩

end Sys2Proof.Machine
end

section
/-! SUPPORT. The sprinkle path. -/

namespace Sys2Proof.Machine

/-- An epoch that is begun takes the change on top of nothing. -/
theorem State.modSpk_begun {s : State} {k : SpkKey} (fresh : s.spkAt k = none) {f g : SpkOp → SpkOp} (same : ∀ o, o.posts = [] → f o = g o) :
    s.modSpk k f = s.modSpk k g := by
  unfold State.modSpk
  rw [fresh, Option.isSome_none, if_neg Bool.false_ne_true, if_neg Bool.false_ne_true]
  dsimp only
  rw [same _ rfl]

/-- The only epoch changed. -/
theorem State.modSpk_only {s : State} {o : SpkOp} (only : s.spkOps = [o]) (f : SpkOp → SpkOp) :
    s.modSpk (o.comm, o.slot, o.epoch) f = { s with spkOps := [f o] } := by
  have hit : (o.comm == o.comm && o.slot == o.slot && o.epoch == o.epoch) = true := by simp
  have found : s.spkAt (o.comm, o.slot, o.epoch) = some o := by rw [State.spkAt, only]; exact List.find?_cons_of_pos hit
  rw [State.modSpk, found, Option.isSome_some, if_pos rfl, only, List.map_singleton, if_pos hit]

/-- SPK POST and SPK WAIT (R422, R426). -/
theorem sprinkle_instructions :
    ∀ (s s1 : State) (t : Nat) (w : IWord) (x : W64) (r : Run) (k : LKernel), (s.tile t).running = some (r, k) →
      s.canIssue t 0x72 w x = true →
      let tl := s.issuing t r 0x72; let y := tl.ctx r.ctx; let s0 := s.setTile t tl; let slot := fld w.imm.toNat 2 0
      (w.fn = 0 →
        let sa := (y.sGet w.sa.toNat).toNat; let comm := fld sa 15 0; let stages := fld sa 19 16; let op := fld w.imm.toNat 7 4
        let count := fld w.imm.toNat 11 8 + 1; let src := specCis y (specA x); let dst := specCis y (specB x)
        let key := spkCountKey t comm slot; let e := spGet dNat s.spkEpoch key
        comm < 64 → s0.slcCommOk (s0.tilePart t) (some t) { slcD [] with comm := comm, stages := stages } = true → op ≤ 8 →
        (op ≠ 8 → readable tl k src 64 = true) → dst + 128 ≤ k.cisBytes → tl.run = some r →
        ((s.spkOps.filter fun o => o.slot == slot).flatMap fun o => o.posts.filter fun p => p.tile == t && !p.waited).length < 256 →
        s.spkAt (comm, slot, e) = none →
        let p : SpkPost :=
          { tile := t, t0 := s.time, dst := k.cisOff + dst, jmode := r.jmode, jstep := r.jstep
            vals := if op = 8 then [] else wordsOf 4 count (tl.cisBytes (k.cisOff + src) 64), wrote := false, waited := false }
        (spkStep (comm, slot, e) false).gives ({ s0 with spkEpoch := spSet dNat s.spkEpoch key (e + 1) }.modSpk (comm, slot, e) fun o =>
          { o with stages := stages, op := op, count := count, posts := [p] }) () s1 →
        exec (.spkPost t w x) s = .next (s1.went t r 0x72 w (s1.tile t).effect)) ∧
      (w.fn = 1 →
        ((s.spkOps.flatMap fun o => o.posts.filter fun p => o.slot == slot && p.tile == t && !p.waited) = [] →
          exec (.spkWait t w x) s = .next (s.went t r 0x72 w tl)) ∧
        (∀ o p, s.spkOps = [o] → o.posts = [p] → o.slot = slot → p.tile = t → p.waited = false → p.wrote = true →
          exec (.spkWait t w x) s = .next ({ s with spkOps := [{ o with posts := [{ p with waited := true }] }] }.went t r 0x72 w tl))) := by
  intro s s1 t w x r k hr hc tl y s0 slot
  refine ⟨?post, ?wait⟩
  case post =>
    intro fn sa comm stages op count src dst key e inRange allowed opOk data room run held fresh p stepped
    refine (fnInstr_of_fn (congrArg BitVec.toNat fn) _).trans (deviceInstr_done hc hr (inDev_ok ?_))
    refine (go_bind_ok (go_get _) _).trans ?_
    refine (go_bind_ok (must_true (Bool.and_eq_true_iff.2 ⟨decide_eq_true inRange, allowed⟩) _ _) _).trans ?_
    refine (go_bind_ok (must_true (decide_eq_true opOk) _ _) _).trans ?_
    have read : (if op = 8 then .ok [] else cisRead tl k src 64 : Ex (List Byte)) =
        .ok (if op = 8 then [] else tl.cisBytes (k.cisOff + src) 64) := by
      by_cases barrier : op = 8
      · rw [if_pos barrier, if_pos barrier]
      · rw [if_neg barrier, if_neg barrier, cisRead_readable (data barrier)]
    refine (go_bind_ok (go_liftEx_of_ok read) _).trans ?_
    refine (go_bind_ok (go_liftEx_of_ok (inAlloc_ok room)) _).trans ?_
    dsimp only
    have room' : ¬ 256 ≤ ((s0.spkOps.filter fun o => o.slot == slot).flatMap fun o => o.posts.filter fun p => p.tile == t && !p.waited).length :=
      Nat.not_le.2 held
    rw [if_neg room']
    refine (go_bind_ok (go_upd _ _) _).trans ?_
    refine (go_bind_ok (go_upd _ _) _).trans ?_
    have unfinished : (s0.spkAt (comm, slot, e)).bind (fun o => o.result) = none := by
      rw [show s0.spkAt (comm, slot, e) = none from fresh, Option.bind_none]
    have fromRun (f : Run → Nat) : ((s.issuing t r 0x72).run.map f).getD 0 = f r := by
      rw [show (s.issuing t r 0x72).run = some r from run]
      rfl
    split
    · next found => cases found.symm.trans unfinished
    · have values (bs : List Byte) : (if op = 8 then [] else wordsOf 4 count (if op = 8 then [] else bs)) =
          if op = 8 then [] else wordsOf 4 count bs := by split <;> rfl
      rw [fromRun, fromRun, values]
      have begun := State.modSpk_begun (s := { s0 with spkEpoch := spSet dNat s.spkEpoch key (e + 1) }) (k := (comm, slot, e)) fresh
        (f := fun o => { o with stages := stages, op := op, count := count, posts := o.posts ++ [p] })
        (g := fun o => { o with stages := stages, op := op, count := count, posts := [p] }) fun o empty => by rw [empty, List.nil_append]
      refine (go_bind_ok ((congrArg (spkStep (comm, slot, e) false).go begun).trans stepped) _).trans ?_
      exact go_bind_ok (go_get _) _
  case wait =>
    intro fn
    refine ⟨fun none => ?_, fun o p only has inSlot own waiting wrote => ?_⟩
    · refine (fnInstr_of_fn (congrArg BitVec.toNat fn) _).trans (deviceInstr_done hc hr ?_)
      have nothing : (s.spkOps.flatMap fun o => (o.posts.filter fun p => o.slot == slot && p.tile == t && !p.waited).map fun p => (o, p)) = [] :=
        List.flatMap_eq_nil_iff.2 fun o ho => by rw [List.flatMap_eq_nil_iff.1 none o ho, List.map_nil]
      dsimp only
      split
      · rfl
      · next found => cases found.symm.trans nothing
    · refine (fnInstr_of_fn (congrArg BitVec.toNat fn) _).trans (deviceInstr_done hc hr ?_)
      have held : (s.spkOps.flatMap fun o => (o.posts.filter fun p => o.slot == slot && p.tile == t && !p.waited).map fun p => (o, p)) =
          [(o, p)] := by
        rw [only, List.flatMap_singleton, has]
        simp [inSlot, own, waiting]
      dsimp only
      split
      · next found => cases found.symm.trans held
      · next h hs found =>
        cases found.symm.trans held
        dsimp only [List.foldl_nil]
        refine (if_pos wrote).trans ?_
        simp [State.modSpk_only only, has]
        rfl

/-- Contributions, results and timeouts of an epoch (R424, R426, R427). -/
theorem sprinkle_messages :
    ∀ (s s2 : State),
      (∀ (msg : List Byte) (c : SlcComm),
        let f := dfld msg; let comm := f 4 2; let slot := f 3 1; let s1 := s.leaTake 3 msg
        let next := s1.spkNext comm slot; let diff := (f 6 2 + 65536 - next % 65536) % 65536; let k : SpkKey := (comm, slot, next + diff)
        let vals := if f 1 1 = 8 then [] else wordsOf 4 (f 2 1 + 1) (msg.drop 0x20)
        s1.comm comm = some c → diff < 256 → s1.spkAt k = none →
        let st := [1, 2, 3].foldl (fun v l => if c.alg l = 0xFF then v else v + 2 ^ l) 1
        (f 0 1 = 0x11 → (spkStep k false).gives (s1.modSpk k fun o =>
            { o with recv := o.recv ++ [(f 0x10 1, c.rankOf st (f 0x10 1) (f 8 4), f 0xC 4, vals)] }) () s2 →
          exec (.sprinkleMessageReceive msg) s = .next s2) ∧
        (f 0 1 = 0x12 → (spkResult k c (f 0x10 1) (f 0xC 4) vals).gives (s1.modSpk k fun o => if o.posts = []
            then { o with stages := st, op := f 1 1, count := f 2 1 + 1 } else o) () s2 →
          exec (.sprinkleMessageReceive msg) s = .next s2)) ∧
      (∀ (comm slot epoch : Nat) (o : SpkOp),
        let k : SpkKey := (comm, slot, epoch)
        s.spkAt k = some o →
        (∀ c p, s.comm comm = some c → (∀ l, l ∈ [1, 2, 3] → bit o.stages l = true → c.rankIn o.stages l = 0) → o.closed = false →
          o.posts.head? = some p → p.t0 + s.spkTimeout comm ≤ s.time → (spkStep k true).gives s () s2 →
          exec (.spkLeaderTimeout comm slot epoch) s = .next s2) ∧
        (∀ t i, (o.posts.findIdx? fun p => p.tile == t && !p.wrote && decide (p.t0 + 2 * s.spkTimeout comm ≤ s.time)) = some i →
          (spkWrite k i 0xA21 0 ((List.range o.count).map fun _ => 0)).gives s () s2 →
          exec (.spkMemberTimeout t comm slot epoch) s = .next s2)) := by
  refine fun s s2 => ⟨fun msg c => ?messages, fun comm slot epoch o => ?timeouts⟩
  case messages =>
    intro f comm slot s1 next diff k vals member near fresh st
    have recent : ¬ 32768 ≤ diff := by omega
    have soon : ¬ 256 ≤ diff := Nat.not_le.2 near
    have bitsUp : ((s1.spkAt k).map fun o => if o.posts = [] then 0 else o.stages).getD 0 = 0 := by rw [fresh]; rfl
    have unheard (kind : Nat) (q : Nat) : ((s1.spkAt k).any fun o => o.closed || (kind == 0x11 && o.recv.any fun r => r.1 == f 0x10 1 && r.2.1 == q)) =
        false := by rw [fresh]; rfl
    refine ⟨fun kind stepped => ?up, fun kind stepped => ?down⟩
    case up =>
      refine run'_of_go_ok (u := ()) ((go_bind_ok (go_upd _ _) _).trans ((go_bind_ok (go_get _) _).trans ?_))
      rw [member]
      dsimp only
      rw [if_neg fun h => h.1 kind, if_neg recent, if_neg soon, bitsUp, if_pos rfl, unheard, if_neg Bool.false_ne_true, if_pos kind]
      refine (go_bind_ok (go_upd _ _) _).trans ?_
      exact stepped
    case down =>
      have other : ¬ f 0 1 = 0x11 := by omega
      refine run'_of_go_ok (u := ()) ((go_bind_ok (go_upd _ _) _).trans ((go_bind_ok (go_get _) _).trans ?_))
      rw [member]
      dsimp only
      rw [if_neg fun h => h.2 kind, if_neg recent, if_neg soon, bitsUp, if_pos rfl, unheard, if_neg Bool.false_ne_true, if_neg other]
      refine (go_bind_ok (go_upd _ _) _).trans ?_
      exact stepped
  case timeouts =>
    intro k found
    refine ⟨fun c p member leads open' first late stepped => ?leader, fun t i first wrote => ?member⟩
    case leader =>
      refine run'_of_go_ok (u := ()) ((go_bind_ok (go_get _) _).trans ?_)
      rw [member, found]
      dsimp only
      have lead : ([1, 2, 3].all fun l => !bit o.stages l || c.rankIn o.stages l == 0) = true := List.all_eq_true.2 fun l hl => by
        cases used : bit o.stages l
        · rfl
        · simp [leads l hl used]
      rw [lead, open', first, Option.any_some, decide_eq_true late]
      exact stepped
    case member =>
      refine run'_of_go_ok (u := ()) ((go_bind_ok (go_get _) _).trans ?_)
      rw [found]
      dsimp only
      rw [first]
      exact wrote

/-- The operations on two words (R423). -/
theorem sprinkle_operations :
    ∀ a b, a < 2 ^ 32 → b < 2 ^ 32 →
      spkOp 1 a b = (BitVec.ofNat 32 a + BitVec.ofNat 32 b).toNat ∧ spkOp 4 a b = max a b ∧ spkOp 5 a b = min a b ∧
      spkOp 6 a b = (BitVec.ofNat 32 a &&& BitVec.ofNat 32 b).toNat ∧ spkOp 7 a b = (BitVec.ofNat 32 a ||| BitVec.ofNat 32 b).toNat ∧
      spkOp 8 a b = 0 := by
  intro a b ha hb
  have ofA : (BitVec.ofNat 32 a).toNat = a := Nat.mod_eq_of_lt ha
  have ofB : (BitVec.ofNat 32 b).toNat = b := Nat.mod_eq_of_lt hb
  refine ⟨?_, rfl, rfl, ?_, ?_, rfl⟩
  · rw [BitVec.toNat_add, ofA, ofB]
    rfl
  · rw [BitVec.toNat_and, ofA, ofB]
    rfl
  · rw [BitVec.toNat_or, ofA, ofB]
    rfl

/-- Settles O36: a post joins its epoch, a wait finds its result, and a message or a timeout takes the step it names. -/
theorem sprinkle : Obligations.Sprinkle := ⟨sprinkle_instructions, sprinkle_messages, sprinkle_operations⟩

end Sys2Proof.Machine
end

section
/-! SUPPORT. Publishing, snapshots and the journal's registers. -/

namespace Sys2Proof.Machine

/-- A PUBLISH starts, waits or replaces the waiting one, and completes once its selector has settled (R455 to R457). -/
theorem publish_starts_completes :
    ∀ (s s1 s2 s3 : State),
      (∀ (q : Nat) (c : QCmd) (ext : List (Nat × Nat)),
        let u : Pub :=
          { as := c.f 1 1, sel := c.f 2 1, value := c.f 3 1, version := c.f 8 8, queue := q, seqno := c.seqno, extents := ext
            running := false, flipped := false }
        let same := s2.pubs.filter fun w => w.as == u.as && w.sel == u.sel
        (takeCmd q 0x40).gives s c s1 → (pubExtents q c).gives s1 (.ok ext) s2 →
        (same = [] → (pubStart u).gives s2 () s3 → exec (.publish q) s = .next s3) ∧
        (∀ w, same = [w] → w.running = true →
          exec (.publish q) s = .next ({ s2 with pubs := s2.pubs ++ [u] }.setPubBit 0x30 u.as u.sel true)) ∧
        (∀ w, same.find? (fun w => !w.running) = some w →
          (completeWith w.queue w.seqno 0x40 0xB02 (u.version % 2 ^ 32)).gives
            { s2 with pubs := s2.pubs.map fun x => if x = w then u else x } () s3 → exec (.publish q) s = .next s3)) ∧
      (∀ (n b : Nat) (u : Pub),
        s.pubs.find? (fun w => w.as == n && w.sel == b && w.running) = some u → u.flipped = true → s.rb (asReg n 0x20) 1 = false →
        let s0 := s.putAt (asReg n (0x200 + 8 * b)) u.version
        (completeWith u.queue u.seqno 0x40 0 0).gives ({ s0 with pubs := s0.pubs.erase u }.setPubBit 0x28 n b false) () s2 →
        s2.pubs.find? (fun w => w.as == n && w.sel == b) = none →
        exec (.publishComplete n b) s = .next s2) := by
  refine fun s s1 s2 s3 => ⟨fun q c ext => ?publish, fun n b u => ?complete⟩
  case publish =>
    intro u same taken extents
    refine ⟨fun none started => ?_, fun w only running => ?_, fun w waits ended => ?_⟩
    · refine run'_of_go_ok (u := ()) ((go_bind_ok taken _).trans ((go_bind_ok extents _).trans ?_))
      dsimp only
      refine (go_bind_ok (go_get _) _).trans ?_
      split
      · next found => cases found.symm.trans (congrArg (List.find? _) none)
      · rw [if_pos none]
        exact started
    · refine run'_of_go_ok (u := ()) ((go_bind_ok taken _).trans ((go_bind_ok extents _).trans ?_))
      dsimp only
      refine (go_bind_ok (go_get _) _).trans ?_
      have idle : same.find? (fun w => !w.running) = Option.none := by
        rw [only, List.find?_singleton, running]
        rfl
      split
      · next found => cases found.symm.trans idle
      · rw [if_neg fun empty => by cases only.symm.trans empty]
        exact go_upd _ _
    · refine run'_of_go_ok (u := ()) ((go_bind_ok taken _).trans ((go_bind_ok extents _).trans ?_))
      dsimp only
      refine (go_bind_ok (go_get _) _).trans ?_
      split
      · next found =>
        cases found.symm.trans waits
        exact (go_bind_ok (go_upd _ _) _).trans ended
      · next found => cases found.symm.trans waits
  case complete =>
    intro running flipped clear s0 ended last
    refine run'_of_go_ok (u := ()) ((go_bind_ok (go_get _) _).trans ?_)
    rw [running]
    dsimp only
    rw [flipped, Bool.not_true, if_neg Bool.false_ne_true]
    refine (go_bind_ok (go_get _) _).trans ?_
    rw [clear, if_neg Bool.false_ne_true]
    refine (go_bind_ok (go_upd _ _) _).trans ?_
    refine (go_bind_ok (go_upd _ _) _).trans ?_
    refine (go_bind_ok ended _).trans ?_
    refine (go_bind_ok (go_get _) _).trans ?_
    rw [last]
    rfl

/-- A snapshot takes its cut, saves or restores its frames, and ends (R462 to R467). -/
theorem snapshot_runs :
    ∀ (s s1 s2 s3 s4 : State) (q p : Nat) (c : QCmd) (n : Snap),
      ((snapBuild q 0x48 false fun c f m => if bit (c.f 1 1) 0 then 0xFFFF else Nat.lor f.dirty (m.getD 0)).gives s (some (c, n)) s1 →
        let u := n.cut.foldl (fun s e =>
          let f := s.frame e.1
          s.setFrame e.1 { f with dirty := f.dirty - Nat.land f.dirty e.2 }) s1
        let u' := { u with snaps := u.snaps ++ [n] }.snapBegin n
        (snapSend n n.image true 64 (snapHeader u' n 1)).gives u' () s2 → (completeWith q c.seqno 0x48 0 n.id).gives s2 () s3 →
        exec (.snapStart q) s = .next s3) ∧
      ((snapBuild q 0x4B true fun c _ m => if bit (c.f 1 1) 1 then m.getD 0 else 0xFFFF).gives s (some (c, n)) s1 →
        (snapSend n n.image false 64 []).gives ({ s1 with snaps := s1.snaps ++ [n] }.snapBegin n) () s2 →
        exec (.snapRestore q) s = .next s2) ∧
      (∀ f k img, s.snapOf p = some n → n.set.find? (fun e => e.1 == f) = some (f, img) → n.begun = true → n.err = 0 → k < 16 →
        bit (spGet dNat n.todo f) k = true → s.snapStaged n (s.hubOf (f * 65536)) < 4096 →
        let va := n.sectorAt img k
        let s0 := s.setSnap { n with todo := spMod dNat n.todo f fun m => setFld m k k 0, flying := n.flying ++ [va] }
        (n.restore = true → (snapSend n va false 4096 []).gives s0 () s1 → exec (.snapSectorSend p f k) s = .next s1) ∧
        (n.restore = false → ∀ bs, ((unitsOf (f * 65536 + 4096 * k) 4096).mapM fun a => do
            let (bs, bad) ← engineRead a
            if bad then freeBytes 64 else pure bs).gives s0 bs s1 →
          (engineCharge p (f * 65536) 64).gives s1 () s2 → (snapSend n va true 4096 bs.flatten).gives s2 () s3 →
          releaseWaits.gives s3 () s4 → exec (.snapSectorSend p f k) s = .next s4)) ∧
      (s.snapOf p = some n → n.err = 0 → n.begun = true → n.todo = [] → n.flying = [] → n.restore = true →
        (snapFinish n 0).gives s () s1 → exec (.snapComplete p) s = .next s1) ∧
      (s.snapOf p = some n → n.err ≠ 0 → (snapFinish n n.err).gives s () s1 → exec (.snapComplete p) s = .next s1) := by
  refine fun s s1 s2 s3 s4 q p c n => ⟨?start, ?restore, ?send, ?ended, ?failed⟩
  case start =>
    intro built u u' sent ended
    refine run'_of_go_ok (u := ()) ((go_bind_ok built _).trans ?_)
    refine (go_bind_ok (go_upd _ _) _).trans ?_
    refine (go_bind_ok (go_upd _ _) _).trans ?_
    refine (go_bind_ok (go_get _) _).trans ?_
    exact (go_bind_ok sent _).trans ended
  case restore =>
    intro built sent
    refine run'_of_go_ok (u := ()) ((go_bind_ok built _).trans ?_)
    exact (go_bind_ok (go_upd _ _) _).trans sent
  case send =>
    intro f k img runs named begun fine sector due room va s0
    have goesOn : (!n.begun || n.err != 0 || decide (16 ≤ k) || !bit (spGet dNat n.todo f) k || decide (4096 ≤ s.snapStaged n (s.hubOf (f * 65536)))) =
        false := by simp [begun, fine, sector, due, room]
    refine ⟨fun restores sent => ?_, fun saves bs read charged sent released => ?_⟩
    · refine run'_of_go_ok (u := ()) ((go_bind_ok (go_get _) _).trans ?_)
      rw [runs]
      dsimp only
      rw [named]
      dsimp only
      rw [if_neg (Bool.eq_false_iff.1 goesOn)]
      refine (go_bind_ok (go_upd _ _) _).trans ?_
      rw [if_pos restores]
      exact sent
    · refine run'_of_go_ok (u := ()) ((go_bind_ok (go_get _) _).trans ?_)
      rw [runs]
      dsimp only
      rw [named]
      dsimp only
      rw [if_neg (Bool.eq_false_iff.1 goesOn)]
      refine (go_bind_ok (go_upd _ _) _).trans ?_
      rw [if_neg (Bool.eq_false_iff.1 saves)]
      refine (go_bind_ok read _).trans ?_
      refine (go_bind_ok charged _).trans ?_
      exact (go_bind_ok sent _).trans released
  case ended =>
    intro runs fine begun none nothing restores finished
    refine run'_of_go_ok (u := ()) ((go_bind_ok (go_get _) _).trans ?_)
    rw [runs]
    dsimp only
    rw [if_neg (not_not.2 fine), if_neg (by simp [begun, none, nothing]), if_pos restores]
    exact finished
  case failed =>
    intro runs bad finished
    refine run'_of_go_ok (u := ()) ((go_bind_ok (go_get _) _).trans ?_)
    rw [runs]
    dsimp only
    rw [if_pos bad]
    exact finished

/-- SNAP_WAIT and SNAP_ABORT by what the last snapshot is doing (R462, R467). -/
theorem snapshot_waits_aborts :
    ∀ (s s1 s2 s3 : State) (q : Nat) (c : QCmd),
      let p := s1.qPart q; let e := spGet dNat s1.snapEnd p
      ((takeCmd q 0x49).gives s c s1 → c.zero 1 63 = true →
        ((s1.snapOf p).isSome = true → exec (.snapWait q) s = .next { s1 with snapWaits := s1.snapWaits ++ [(p, q, c.seqno)] }) ∧
        (s1.snapOf p = none → e ≠ 0 →
          (completeWith q c.seqno 0x49 (e - 1) 0).gives { s1 with snapEnd := spSet dNat s1.snapEnd p 0 } () s2 →
          exec (.snapWait q) s = .next s2) ∧
        (s1.snapOf p = none → e = 0 → (completeWith q c.seqno 0x49 0xB07 0).gives s1 () s2 → exec (.snapWait q) s = .next s2)) ∧
      ((takeCmd q 0x4A).gives s c s1 → c.zero 1 63 = true →
        (∀ n, s1.snapOf p = some n → (snapFinish n 0xB06).gives s1 () s2 → (completeWith q c.seqno 0x4A 0 0).gives s2 () s3 →
          exec (.snapAbort q) s = .next s3) ∧
        (s1.snapOf p = none → (completeWith q c.seqno 0x4A 0 0).gives s1 () s3 → exec (.snapAbort q) s = .next s3)) := by
  intro s s1 s2 s3 q c p e
  refine ⟨?wait, ?abort⟩
  case wait =>
    intro taken zero
    have plain : ¬ (!c.zero 1 63) = true := by rw [zero]; exact Bool.false_ne_true
    have started {s'} (h : Dev.gives (if (s1.snapOf p).isSome then upd fun s => { s with snapWaits := s.snapWaits ++ [(p, q, c.seqno)] }
        else if e ≠ 0 then do
          upd fun s => { s with snapEnd := spSet dNat s.snapEnd p 0 }
          completeWith q c.seqno 0x49 (e - 1) 0
        else completeWith q c.seqno 0x49 0xB07 0) s1 () s') : exec (.snapWait q) s = .next s' := by
      refine run'_of_go_ok (u := ()) ((go_bind_ok taken _).trans ((go_bind_ok (go_get _) _).trans ?_))
      dsimp only
      rw [if_neg plain]
      exact h
    refine ⟨fun runs => started ?_, fun none last ended => started ?_, fun none never ended => started ?_⟩
    · rw [if_pos runs]
      exact go_upd _ _
    · rw [none, Option.isSome_none, if_neg Bool.false_ne_true, if_pos last]
      exact (go_bind_ok (go_upd _ _) _).trans ended
    · rw [none, Option.isSome_none, if_neg Bool.false_ne_true, if_neg (not_not.2 never)]
      exact ended
  case abort =>
    intro taken zero
    have plain : ¬ (!c.zero 1 63) = true := by rw [zero]; exact Bool.false_ne_true
    refine ⟨fun n runs finished ended => ?_, fun none ended => ?_⟩
    · refine run'_of_go_ok (u := ()) ((go_bind_ok taken _).trans ?_)
      rw [if_neg plain]
      refine (go_bind_ok (go_get _) _).trans ((go_bind_ok (go_get _) _).trans ?_)
      rw [runs]
      exact (go_bind_ok finished _).trans ended
    · refine run'_of_go_ok (u := ()) ((go_bind_ok taken _).trans ?_)
      rw [if_neg plain]
      refine (go_bind_ok (go_get _) _).trans ((go_bind_ok (go_get _) _).trans ?_)
      rw [none]
      exact ended

/-- The registers of a journal while no launch of the partition runs (R472, R474). -/
theorem journal_registers :
    ∀ (s s2 : State) (n v : Nat) (o : Origin), n < 8 → s.lic 5 = true → o.mine n = true → s.partRuns n = false →
      (∀ base, (base = false → fld v 63 62 ≠ 3) → let off := jrnReg n (if base then 8 else 0)
        s.heard o off = true → exec (.logJrnCfgWrite n base v o) s =
          .next (s.putAt off (keepBits v (if base then maskBits 47 16 else maskBits 63 62 + maskBits 53 40 + maskBits 31 0)))) ∧
      (s.heard o (jrnReg n 0x10) = true →
        let s0 := s.putAt (jrnReg n 0x10) (v % 2 ^ 32)
        let s1 := { s0 with jseq := s0.jseq.filter fun e => e.1 / 2 ^ 27 != n }.setF (jrnReg n 0x18) 31 0 0
        (s.jrnMode n ≠ 1 → exec (.logJrnStepWrite n v o) s = .next s1) ∧
        (∀ a, s.jrnMode n = 1 → (vaWrite (s.jrnView .device n) 0 (s.jrnBase n (v % 2 ^ 32)) (jrnHeader (v % 2 ^ 32) 1 0 0 0)).gives s1 a s2 →
          exec (.logJrnStepWrite n v o) s = .next s2)) := by
  intro s s2 n v o hn licensed mine quiet
  refine ⟨?config, ?step⟩
  case config =>
    intro base mode off heard
    have ok : (o.mine n && !s.partRuns n && (base || fld v 63 62 != 3)) = true := by
      rw [mine, quiet]
      cases base
      · exact bne_iff_ne.2 (mode rfl)
      · rfl
    refine run'_of_go_ok (u := ()) ((go_bind_ok (go_get _) _).trans ?_)
    dsimp only
    rw [if_pos ⟨hn, licensed⟩]
    exact (plainWrite_heard heard ok _).trans (go_upd _ _)
  case step =>
    intro heard s0 s1
    have ok : (o.mine n && !s.partRuns n) = true := by rw [mine, quiet]; rfl
    refine ⟨fun off => ?_, fun a on written => ?_⟩
    · refine run'_of_go_ok (u := ()) ((go_bind_ok (go_get _) _).trans ?_)
      dsimp only
      rw [if_pos ⟨hn, licensed⟩]
      refine (plainWrite_heard heard ok _).trans ?_
      refine (go_bind_ok (go_upd _ _) _).trans ((go_bind_ok (go_upd _ _) _).trans ((go_bind_ok (go_upd _ _) _).trans ?_))
      rw [if_neg off]
      rfl
    · refine run'_of_go_ok (u := ()) ((go_bind_ok (go_get _) _).trans ?_)
      dsimp only
      rw [if_pos ⟨hn, licensed⟩]
      refine (plainWrite_heard heard ok _).trans ?_
      refine (go_bind_ok (go_upd _ _) _).trans ((go_bind_ok (go_upd _ _) _).trans ((go_bind_ok (go_upd _ _) _).trans ?_))
      rw [if_pos on]
      exact go_bind_ok written _

/-- Settles O38: each command and effect takes the branch that its premises name. -/
theorem publishesAndSnapshots : Obligations.PublishesAndSnapshots := ⟨publish_starts_completes, snapshot_runs, snapshot_waits_aborts, journal_registers⟩

end Sys2Proof.Machine
end

section
/-! SUPPORT. Flits that arrive at a leat port, and its timers. -/

namespace Sys2Proof.Machine

section
variable {s : State} {n : Nat} {corr : List Nat} {flit : List Byte}

theorem State.lport_setLport (wf : spWf dLPort s.lports = true) (n : Nat) (p : LPort) : (s.setLport n p).lport n = p :=
  spGet_set_same dLPort wf n p

theorem State.count_lports (s : State) (off k : Nat) : (s.count off k).lports = s.lports := State.setReg_lports ..

theorem State.lports_flitCounted (n bad : Nat) (corr : List Nat) : ∃ p, p.st = s.leaState n ∧
    (s.flitCounted n bad corr).lports = spSet dLPort s.lports n p := by
  have counted (u : State) (l : List Nat) : (l.foldl (fun s k => s.count (leatReg n (0x180 + 8 * k)) (corr.getD k 0)) u).lports = u.lports :=
    List.foldlRecOn l _ (motive := fun v : State => v.lports = u.lports) rfl fun v hv k _ => (State.count_lports ..).trans hv
  have all : (((List.range 5).foldl (fun s k => s.count (leatReg n (0x180 + 8 * k)) (corr.getD k 0)) s).count (leaErr n 1) bad).lports = s.lports :=
    (State.count_lports ..).trans (counted s _)
  unfold State.flitCounted
  generalize ((List.range 5).foldl (fun s k => s.count (leatReg n (0x180 + 8 * k)) (corr.getD k 0)) s).count (leaErr n 1) bad = u at all
  let p := { u.lport n with corr := (List.range 5).map (fun k => (u.lport n).corr.getD k 0 + corr.getD k 0), uncorr := (u.lport n).uncorr + bad }
  exact ⟨p, congrArg (fun m => (spGet dLPort m n).st) all, congrArg (fun m => spSet dLPort m n p) all⟩

theorem State.leaState_flitIn (wf : spWf dLPort s.lports = true) : (s.flitIn n corr).leaState n = s.leaState n := by
  obtain ⟨p, st, ports⟩ := s.lports_flitCounted n 0 corr
  have counted : (s.flitCounted n 0 corr).lport n = p := by rw [State.lport, ports, spGet_set_same dLPort wf]
  unfold State.flitIn
  dsimp only
  rw [State.leaState, State.lport_setLport (by rw [ports]; exact spWf_set dLPort wf n p), counted]
  exact st

section
variable (port : n < 16) (up : 2 ≤ s.leaState n) (running : s.leaState n ≤ 5) {bad : Nat} (body : Nat → Dev Unit)
include port up running

/-- A flit without error is counted and handed on (R491). -/
theorem leaRx_taken (ok : flitOk flit = true) : (leaRx n 0 corr flit body).go s = (body (flitTrailer flit)).go (s.flitIn n corr) := by
  obtain ⟨⟨length, crc⟩, type⟩ : (flit.length = 2570 ∧ fld (flitTrailer flit) 79 48 = crc32c (flit.take 2560 ++ leBytes 6 (flitTrailer flit))) ∧
      fld (flitTrailer flit) 1 0 ≠ 3 := by simpa [flitOk] using ok
  unfold leaRx
  refine (go_bind_ok (go_get _) _).trans ?_
  rw [if_pos ⟨port, up, running⟩]
  refine (go_bind_ok (go_upd _ _) _).trans ((go_bind_ok (go_upd _ _) _).trans ((go_bind_ok (go_upd _ _) _).trans ?_))
  rw [if_pos ⟨rfl, length, crc, type⟩]
  exact go_bind_ok (go_upd _ _) _

/-- One with an error is counted and discarded whole. -/
theorem leaRx_discarded (bad' : bad ≠ 0 ∨ flitOk flit = false) :
    (leaRx n bad corr flit body).go s = (.ok (), (s.flitCounted n bad corr).leaDiscard n) := by
  have broken : ¬ (bad = 0 ∧ flit.length = 2570 ∧ fld (flitTrailer flit) 79 48 = crc32c (flit.take 2560 ++ leBytes 6 (flitTrailer flit)) ∧
      fld (flitTrailer flit) 1 0 ≠ 3) := by
    rintro ⟨none, length, crc, type⟩
    have ok : flitOk flit = true := by simp [flitOk, length, crc, type]
    exact bad'.elim (· none) fun h => Bool.false_ne_true (h.symm.trans ok)
  unfold leaRx
  refine (go_bind_ok (go_get _) _).trans ?_
  rw [if_pos ⟨port, up, running⟩]
  refine (go_bind_ok (go_upd _ _) _).trans ((go_bind_ok (go_upd _ _) _).trans ((go_bind_ok (go_upd _ _) _).trans ?_))
  dsimp only
  rw [show leNat (flit.drop 2560) = flitTrailer flit from rfl, if_neg broken]
  exact go_upd _ _

end

/-- A control record of a type that the port's state expects is taken up. -/
theorem leaRecord_taken (wf : spWf dLPort s.lports = true) (port : n < 16) (ok : flitOk flit = true) (record : fld (flitTrailer flit) 1 0 = 2)
    {type st : Nat} (kind : (flit.headD 0).toNat = type) {states : List Nat} (at' : s.leaState n = st) (expected : st ∈ states)
    (up : 2 ≤ st) (running : st ≤ 5) (body : Dev Unit) :
    (leaRecord n 0 corr flit type states body).go s =
      body.go (if st = 3 ∨ st = 5 then (s.flitIn n corr).trailed n (flitTrailer flit) else s.flitIn n corr) := by
  unfold leaRecord
  refine (leaRx_taken port (at' ▸ up) (at' ▸ running) _ ok).trans ?_
  refine (go_bind_ok (go_get _) _).trans ?_
  dsimp only
  rw [State.leaState_flitIn wf, at', if_pos ⟨record, kind, expected⟩]
  split
  · exact go_bind_ok (go_upd _ _) _
  · rfl

end

/-- Settles O40: each flit by its kind and number, each timer when its time has come. -/
theorem flits : Obligations.Flits := by
  refine ⟨fun s n corr flit port wf => ?flits, fun s s1 n => ?timers⟩
  case flits =>
    intro t s1 p d
    refine ⟨fun up running bad broken => ?bad, fun active ok => ⟨fun data => ⟨fun r first parsed => ?next, fun after ahead => ?ahead,
      fun behind => ?behind⟩, fun null => ?null, ?replay⟩⟩
    case bad => exact run'_of_go_ok (leaRx_discarded port up running _ broken)
    all_goals
      have up : 2 ≤ s.leaState n := by omega
      have running : s.leaState n ≤ 5 := by omega
      have still : s1.leaState n = 3 := (State.leaState_flitIn wf).trans active
    case next =>
      refine run'_of_go_ok (u := ()) ((leaRx_taken port up running _ ok).trans ?_)
      refine (go_bind_ok (go_get _) _).trans ?_
      rw [if_pos ⟨data, still.ge⟩]
      refine (go_bind_ok (go_get _) _).trans ?_
      dsimp only
      rw [if_pos first, parsed]
      refine (go_bind_ok (go_upd _ _) _).trans ((go_bind_ok (go_upd _ _) _).trans ?_)
      exact go_upd _ _
    case ahead =>
      refine run'_of_go_ok (u := ()) ((leaRx_taken port up running _ ok).trans ?_)
      refine (go_bind_ok (go_get _) _).trans ?_
      rw [if_pos ⟨data, still.ge⟩]
      refine (go_bind_ok (go_get _) _).trans ?_
      dsimp only
      rw [if_neg (Nat.ne_of_gt after)]
      refine (go_bind_ok (go_upd _ _) _).trans ?_
      rw [if_pos ahead]
      exact go_upd _ _
    case behind =>
      refine run'_of_go_ok (u := ()) ((leaRx_taken port up running _ ok).trans ?_)
      refine (go_bind_ok (go_get _) _).trans ?_
      rw [if_pos ⟨data, still.ge⟩]
      refine (go_bind_ok (go_get _) _).trans ?_
      dsimp only
      rw [if_neg (Nat.ne_of_gt (Nat.lt_of_lt_of_le (by decide) behind))]
      refine (go_bind_ok (go_upd _ _) _).trans ?_
      rw [if_neg (Nat.not_lt.2 behind)]
      exact go_upd _ _
    case null =>
      refine run'_of_go_ok (u := ()) ((leaRx_taken port up running _ ok).trans ?_)
      refine (go_bind_ok (go_get _) _).trans ?_
      rw [if_pos ⟨null, still.ge⟩]
      exact go_upd _ _
    case replay =>
      intro record kind s2 q e acks
      refine run'_of_go_ok (u := ()) ((leaRecord_taken wf port ok record kind active (by simp) (by decide) (by decide) _).trans ?_)
      rw [if_pos (.inl rfl)]
      refine (go_bind_ok (go_get _) _).trans ?_
      dsimp only
      rw [if_pos acks]
      exact go_upd _ _
  case timers =>
    intro p
    refine ⟨fun t asked late => ?again, fun up out late => ?ack, fun up late => ?lost, fun k up lane locked => ?lane, fun failed on late => ?retry,
      fun port there off late ended => ?disable⟩
    case again =>
      refine congrArg Host.Outcome.next ?_
      rw [asked]
      exact if_pos late
    case ack => exact congrArg Host.Outcome.next (if_pos ⟨up, out, late⟩)
    case lost => exact congrArg Host.Outcome.next (if_pos ⟨up, late⟩)
    case lane => exact congrArg Host.Outcome.next (if_pos ⟨up, lane, locked⟩)
    case retry => exact congrArg Host.Outcome.next (if_pos ⟨failed, on, late⟩)
    case disable =>
      refine run'_of_go_ok (u := ()) ?_
      dsimp only
      rw [if_pos ⟨port, there, congrArg not off, .inr (.inr (.inr late))⟩]
      exact ended

end Sys2Proof.Machine
end

section
/-! SUPPORT. Training, retraining and lane sparing. -/

namespace Sys2Proof.Machine

theorem lanesLess_all {good : Nat} (all : good % 32 = 31) : lanesLess 31 good = 0 := by
  have qualified (k : Nat) (hk : k < 5) : bit good k = true := by
    have low := Nat.testBit_mod_two_pow good 5 k
    rw [show good % 2 ^ 5 = 31 from all, decide_eq_true hk, Bool.true_and] at low
    rw [bit, ← low]
    interval_cases k <;> rfl
  refine List.foldlRecOn (List.range 5) _ (motive := (· = 0)) rfl fun m hm k hk => ?_
  rw [if_neg (by rw [qualified k (List.mem_range.1 hk), Bool.not_true, Bool.and_false]; exact Bool.false_ne_true), hm]

theorem State.deadLanes_none {s : State} (none : s.defects = []) (n dir : Nat) : s.deadLanes n dir = 0 := by
  unfold State.deadLanes
  rw [none]
  rfl

/-- A window in which no lane in use is degraded counts none. -/
theorem hotLanes_of_calm {p : LPort} (calm : ∀ k, k < 5 → bit p.lact k = true → p.corr.getD k 0 ≤ 20000) :
    ((List.range 5).map fun k => if bit p.lact k = true ∧ 20000 < p.corr.getD k 0 then p.hot.getD k 0 + 1 else 0) = [0, 0, 0, 0, 0] := by
  refine (List.map_congr_left (g := fun _ => 0) fun k hk => if_neg fun ⟨used, hot⟩ => ?_).trans rfl
  exact absurd (calm k (List.mem_range.1 hk) used) (Nat.not_le.2 hot)

/-- Settles O43: each message and effect in the state of the port that expects it. -/
theorem linkTraining : Obligations.LinkTraining := by
  refine ⟨fun s n wf => ⟨fun devid idle => ?detect, fun good pgood training none all some' => ?done, ?ident⟩,
    fun s n wf => ⟨?request, ?asked, ?answered, ?retrained, ?sync⟩, fun s n wf => ⟨?window, ?swaps, ?apply⟩⟩
  case detect => exact congrArg Host.Outcome.next (if_pos idle)
  case done =>
    refine run'_of_go_ok (u := ()) ?_
    rw [if_pos (show s.leaState n = 2 from training)]
    dsimp only
    rw [State.deadLanes_none none, lanesLess_all all, all]
    refine (go_bind_ok (go_upd _ _) _).trans ((go_bind_ok (go_upd _ _) _).trans ?_)
    rw [if_neg fun h => h.elim (by decide) some']
    exact go_upd _ _
  case ident =>
    intro corr flit port training ok record kind s1 f
    refine run'_of_go_ok (u := ()) ((leaRecord_taken wf port ok record kind training (by simp) (by decide) (by decide) _).trans ?_)
    exact go_upd _ _
  case request =>
    intro v o there heard mine active s1
    have accepted : (o.mine (s.rf (leatReg n 0) 62 60) && (!bit v 0 || s.leaState n == 3)) = true := by
      rw [mine, Bool.true_and]
      cases start : bit v 0
      · rfl
      · exact beq_iff_eq.2 (active start)
    refine run'_of_go_ok (u := ()) ((go_bind_ok (go_get _) _).trans ?_)
    dsimp only
    rw [if_pos there]
    refine (plainWrite_heard heard accepted _).trans ?_
    refine (go_bind_ok (go_upd _ _) _).trans ((go_bind_ok (go_upd _ _) _).trans ?_)
    split
    · exact go_upd _ _
    · rfl
  case asked =>
    intro devid width x y up known s1 s2
    refine congrArg Host.Outcome.next ((if_pos known).trans ?_)
    dsimp only
    rw [if_pos (show 3 ≤ (s.lport n).st ∧ (s.lport n).st ≤ 5 by omega), State.lport_setLport wf]
    exact if_pos up
  case answered =>
    intro devid width x y own retraining asked known
    refine congrArg Host.Outcome.next ?_
    rw [asked]
    exact if_pos ⟨retraining, known⟩
  case retrained =>
    intro failed pgood retraining agreed first s1 g w some' s2 q occ
    refine run'_of_go_ok (u := ()) ?_
    dsimp only
    rw [if_pos ⟨retraining, agreed, first⟩]
    refine (go_bind_ok (go_upd _ _) _).trans ((go_bind_ok (go_get _) _).trans ?_)
    rw [if_neg some']
    refine (go_bind_ok (go_upd _ _) _).trans ((go_bind_ok (go_upd _ _) _).trans ?_)
    exact go_upd _ _
  case sync =>
    intro corr flit port retraining ok record kind s1 f q q'
    refine run'_of_go_ok (u := ()) ((leaRecord_taken wf port ok record kind retraining (by simp) (by decide) (by decide) _).trans ?_)
    exact go_upd _ _
  case window =>
    intro spares up due few calm
    refine run'_of_go_ok (u := ()) ?_
    dsimp only
    rw [if_pos ⟨up, due⟩, hotLanes_of_calm calm]
    refine (go_bind_ok (go_upd _ _) _).trans ?_
    rw [if_neg (Nat.not_lt.2 few)]
    rfl
  case swaps =>
    intro corr flit port ok record s1 q
    refine ⟨fun active kind => ?_, fun swapping kind mine => ?_⟩
    · refine run'_of_go_ok (u := ()) ((leaRecord_taken wf port ok record kind active (by simp) (by decide) (by decide) _).trans ?_)
      rw [if_pos (.inl rfl)]
      exact (go_bind_ok (go_upd _ _) _).trans (go_upd _ _)
    · refine run'_of_go_ok (u := ()) ((leaRecord_taken wf port ok record kind swapping (by simp) (by decide) (by decide) _).trans ?_)
      rw [if_pos (.inr rfl)]
      refine (go_upd _ _).trans (congrArg (Prod.mk _) ?_)
      exact if_pos mine
  case apply =>
    intro w swapping mine agreed move
    refine congrArg Host.Outcome.next ?_
    rw [mine]
    exact if_pos ⟨swapping, agreed⟩

end Sys2Proof.Machine
end

section
/-! SUPPORT. Messages of a peer and its ports' configuration, and accesses of a host. -/

namespace Sys2Proof.Machine

/-! ### A tile set again -/

section
variable {α : Type}

theorem spInsert_spInsert (m : Sparse α) (k : Nat) (a b : α) : spInsert (spInsert m k a) k b = spInsert m k b := by
  induction m with
  | nil => simp [spInsert]
  | cons e m ih =>
    obtain ⟨j, v⟩ := e
    by_cases at' : k = j
    · simp [spInsert, at']
    · by_cases before : k < j
      · simp [spInsert, at', before]
      · simp [spInsert, at', before, ih]

theorem spErase_spInsert (m : Sparse α) (k : Nat) (a : α) : spErase (spInsert m k a) k = spErase m k := by
  induction m with
  | nil => simp [spInsert, spErase]
  | cons e m ih =>
    obtain ⟨j, v⟩ := e
    by_cases at' : k = j
    · simp [spInsert, spErase, at']
    · by_cases before : k < j
      · simp [spInsert, spErase, at', before]
      · simp [spInsert, spErase, at', before, ih]

theorem spSet_spSet [DecidableEq α] {d : Nat → α} (m : Sparse α) {k : Nat} {a : α} (listed : a ≠ d k) (b : α) :
    spSet d (spSet d m k a) k b = spSet d m k b := by
  unfold spSet
  rw [if_neg listed]
  split
  · exact spErase_spInsert ..
  · exact spInsert_spInsert ..

end

/-- A tile that an instruction has issued on is not as after reset, so that it is listed until it is set again. -/
theorem State.setTile_setTile {s : State} {t : Nat} {a : Tile} (issued : a.issued ≠ 0) (b : Tile) : (s.setTile t a).setTile t b = s.setTile t b := by
  unfold State.setTile
  dsimp only
  rw [spSet_spSet _ fun h => issued (congrArg Tile.issued h)]

/-- An instruction whose effect on the device leaves an entry in its queue that has started. -/
theorem deviceInstr_started {s s' : State} {t : Nat} {r : Run} {k : LKernel} {opc : Nat} {w : IWord} {x : W64} {i : Instr}
    {body : State → Tile → Kx → State × Act} {tl : Tile} {ref : Nat} (h : s.canIssue t opc w x = true)
    (hr : (s.tile t).running = some (r, k)) (hb : body s (s.issuing t r opc) (s.seen t r k opc w) = (s', .started tl ref)) :
    deviceInstr s t i opc w x body =
      .next (s'.went t r opc w (tl.pushQueue (kzQueue opc) { s.entry t r i opc w x with started := true, ref := ref })) := by
  rw [deviceInstr_issue h hr, hb]
  rfl

/-- A tile that an instruction has issued on, and that goes on. -/
theorem went_setTile_issuing {s : State} {t : Nat} {r : Run} {opc opc' : Nat} {w : IWord} (tl : Tile) :
    (s.setTile t (s.issuing t r opc)).went t r opc' w tl = s.went t r opc' w tl := by
  unfold State.went
  rw [State.setTile_setTile (Nat.succ_ne_zero _)]

/-! ### Peers -/

theorem padSlots_nil : padSlots [] = [] := rfl

theorem freeBytes_zero {s : State} {n : Nat} (none : n = 0) : (freeBytes n).gives s [] s := by
  unfold freeBytes
  rw [if_pos none]
  rfl

theorem State.leaPop_peerReqs (s : State) (n v : Nat) : (s.leaPop n v).peerReqs = s.peerReqs := by
  have counted (u : State) (off k : Nat) : (u.perf off k).peerReqs = u.peerReqs := by
    unfold State.perf
    dsimp only
    split <;> rfl
  unfold State.leaPop
  dsimp only
  split
  · rfl
  · exact counted ..

/-- What a peer sends, and requests that time out (R493 to R501). -/
theorem peer_messages :
    ∀ (s s1 s2 : State) (n : Nat) (m : List Byte) (rest : List (List Byte)),
      let f := dfld m; let cfg := s.rn (leatReg n 0); let as := some (fld cfg 58 53)
      let v : View := { who := .leat n (f 6 2), part := fld cfg 62 60, as := as, sel := s.vsel as, src := 5, fn := none }
      let head := fun kind len => memHeader kind 0 len (f 6 2) (s.rf 0x70000 15 0) (f 8 2) 0 0
      (((s.lport n).vc 0).ready = m :: rest → reqFormat m = true → bit cfg 59 = true →
        (∀ bs, (m.headD 0).toNat = 0x20 → (inRead v (f 1 1) (f 0x10 8) (f 2 2)).gives s (.ok bs) s1 →
          exec (.leatRdReq n) s = .next ((s1.leaPop n 0).leaSend n 1 (head 0x22 (f 2 2) ++ padSlots bs))) ∧
        ((m.headD 0).toNat = 0x21 → (inWrite v (f 1 1) (f 0x10 8) ((m.drop 64).take (f 2 2))).gives s (.ok ()) s1 →
          exec (.leatWrReq n) s = .next ((s1.leaPop n 0).leaSend n 1 (head 0x23 0)))) ∧
      (((s.lport n).vc 1).ready = m :: rest →
        ∀ r, (s.leaPop n 1).peerReqs.find? (fun r => r.port == n && r.tag == f 8 2 && r.sent && r.write == ((m.headD 0).toNat == 0x23)) = some r →
          ((m.headD 0).toNat = 0x22 → (m.getD 0xA 0) = 0 → r.len ≤ m.length - 64 →
            (peerDone r 0 ((m.drop 64).take r.len)).gives (s.leaPop n 1) () s2 → exec (.leatRdRsp n) s = .next s2) ∧
          ((m.headD 0).toNat = 0x23 → (peerDone r (m.getD 0xA 0).toNat []).gives (s.leaPop n 1) () s2 →
            exec (.leatWrRsp n) s = .next s2)) ∧
      (∀ tag r, s.peerReqs.find? (fun r => r.port == n && r.tag == tag && r.sent) = some r →
        r.t0 + 1000 * s.rf (leatReg n 0) 15 0 ≤ s.time → (peerDone r 0x11 []).gives s () s1 →
        exec (.leatRspTimeout n tag) s = .next s1) ∧
      (((s.lport n).vc 4).ready = m :: rest → exec (.leatMgtMsg n) s = .next ((s.leaPop n 4).emit (.mgt n m))) := by
  intro s s1 s2 n m rest f cfg as v head
  refine ⟨fun waits format served => ?requests, fun waits r asked => ⟨fun kind fine whole done => ?rdRsp, fun kind done => ?wrRsp⟩,
    fun tag r asked late done => ?timeout, fun waits => ?mgt⟩
  case requests =>
    have malformed : ¬ (!reqFormat m) = true := by rw [format]; exact Bool.false_ne_true
    have unserved : ¬ (!bit cfg 59) = true := by rw [served]; exact Bool.false_ne_true
    refine ⟨fun bs kind read => ?rd, fun kind written => ?wr⟩
    case rd =>
      refine run'_of_go_ok (u := ()) ?_
      unfold leaServe
      refine (go_bind_ok (go_get _) _).trans ?_
      rw [waits]
      dsimp only
      rw [if_pos kind, if_neg malformed, if_neg unserved, if_neg (by decide)]
      refine (go_bind_ok read _).trans ((go_bind_ok (go_pure _ _) _).trans ?_)
      exact (go_bind_ok (go_upd _ _) _).trans (go_upd _ _)
    case wr =>
      refine run'_of_go_ok (u := ()) ?_
      unfold leaServe
      refine (go_bind_ok (go_get _) _).trans ?_
      rw [waits]
      dsimp only
      rw [if_pos kind, if_neg malformed, if_neg unserved, if_pos rfl]
      refine (go_bind_ok written _).trans ((go_bind_ok (go_pure _ _) _).trans ?_)
      refine (go_bind_ok (go_upd _ _) _).trans ((go_upd _ _).trans ?_)
      rw [padSlots_nil, List.append_nil]
      rfl
  case rdRsp =>
    rw [kind, State.leaPop_peerReqs] at asked
    have read : r.write = false := by
      have found := List.find?_some asked
      simp only [Bool.and_eq_true, beq_iff_eq] at found
      exact found.2
    have enough : r.len - ((m.drop 64).take r.len).length = 0 := by
      rw [List.length_take, List.length_drop]
      omega
    refine run'_of_go_ok (u := ()) ?_
    unfold leaResponse
    refine (go_bind_ok (go_get _) _).trans ?_
    rw [waits]
    dsimp only
    rw [if_pos kind]
    refine (go_bind_ok (go_upd _ _) _).trans ?_
    split
    · next found => cases found.symm.trans asked
    · next found =>
      cases found.symm.trans asked
      have plain : (m.getD 0xA 0).toNat = 0 ∧ (!r.write) = true := ⟨by rw [fine]; rfl, by rw [read]; rfl⟩
      rw [if_pos plain]
      refine (go_bind_ok (freeBytes_zero enough) _).trans ?_
      rw [if_pos plain, plain.1, List.append_nil]
      exact done
  case wrRsp =>
    rw [kind, State.leaPop_peerReqs] at asked
    have write : r.write = true := by
      have found := List.find?_some asked
      simp only [Bool.and_eq_true, beq_iff_eq] at found
      exact found.2
    refine run'_of_go_ok (u := ()) ?_
    unfold leaResponse
    refine (go_bind_ok (go_get _) _).trans ?_
    rw [waits]
    dsimp only
    rw [if_pos kind]
    refine (go_bind_ok (go_upd _ _) _).trans ?_
    split
    · next found => cases found.symm.trans asked
    · next found =>
      cases found.symm.trans asked
      have other : ¬ ((m.getD 0xA 0).toNat = 0 ∧ (!r.write) = true) := fun h => by
        rw [write] at h
        exact Bool.false_ne_true h.2
      rw [if_neg other]
      refine (go_bind_ok (freeBytes_zero rfl) _).trans ?_
      rw [if_neg other]
      exact done
  case timeout =>
    refine run'_of_go_ok (u := ()) ?_
    rw [asked]
    dsimp only
    rw [if_pos late]
    exact done
  case mgt =>
    refine congrArg Host.Outcome.next ?_
    rw [waits]

/-- LEA_NODE and LEA_PORTn_CFG (R483, R529, R530). -/
theorem leat_registers :
    ∀ (s : State) (n v : Nat) (o : Origin),
      (s.heard o 0x70000 = true → (o.isDrd || originPf0 o) = true → s.rb 0x70000 16 = false →
        exec (.leaNodeWrite v o) s =
          .next ((List.range 16).foldl State.leaWake ((s.noted o 0x70000 v).putAt 0x70000 (keepBits v 0x1FFFF)))) ∧
      (s.heard o 0x70000 = true → (o.isDrd || originPf0 o) = true → s.rb 0x70000 16 = true →
        exec (.leaNodeWrite v o) s = .next ((s.logRec 3 o 0 0x70000 v).count 0x70FF8 1)) ∧
      (s.leatThere n = true → s.heard o (leatReg n 0) = true → o.mine (s.rf (leatReg n 0) 62 60) = true → s.rb (leatReg n 0) 63 = false →
        let s1 := s.putAt (leatReg n 0) (Nat.lor (keepBits v (maskBits 63 50)) (max 3000 (fld v 15 0)))
        exec (.leaPortCfgWrite n v o) s = .next (if bit v 63 then s1.leaWake n else s1)) := by
  intro s n v o
  refine ⟨fun heard mine unlocked => ?_, fun heard mine locked => ?_, ?_⟩
  · refine run'_of_go_ok (u := ()) ((lockWrite_heard heard mine unlocked _ _).trans ?_)
    exact (go_bind_ok (go_upd _ _) _).trans (go_upd _ _)
  · have running : (o.isDrd || originPf0 o) = true ∧ s.mute o = false := ⟨mine, mute_of_heard heard⟩
    refine run'_of_go_ok (u := ()) ?_
    unfold lockWrite
    refine (go_bind_ok (go_get _) _).trans ?_
    rw [if_pos (reaches_of_heard heard), running.1, running.2, if_neg (by decide), if_pos locked]
    exact (go_bind_ok (go_upd _ _) _).trans ((go_bind_ok (go_upd _ _) _).trans rfl)
  · intro there heard mine disabled s1
    have kept : bit (Nat.lor (keepBits v (maskBits 63 50)) (max 3000 (fld v 15 0))) 63 = bit v 63 := by
      have small : max 3000 (fld v 15 0) < 2 ^ 16 := max_lt (by decide) (Nat.mod_lt _ (by decide))
      rw [bit, show Nat.lor (keepBits v (maskBits 63 50)) (max 3000 (fld v 15 0)) = Nat.land v (maskBits 63 50) ||| max 3000 (fld v 15 0) from rfl,
        Nat.testBit_or, Nat.testBit_lt_two_pow (lt_trans small (by decide)), Bool.or_false]
      exact (Nat.testBit_and v (maskBits 63 50) 63).trans (by rw [show (maskBits 63 50).testBit 63 = true by decide, Bool.and_true]; rfl)
    have off : ¬ bit (s.rn (leatReg n 0)) 63 = true := Bool.eq_false_iff.1 disabled
    have ok : (o.mine (fld (s.rn (leatReg n 0)) 62 60) && (!bit (s.rn (leatReg n 0)) 63 ||
        fld (Nat.lor (keepBits v (maskBits 63 50)) (max 3000 (fld v 15 0))) 62 53 == fld (s.rn (leatReg n 0)) 62 53)) = true := by
      rw [Bool.eq_false_iff.2 off]
      exact Bool.and_eq_true_iff.2 ⟨mine, rfl⟩
    refine run'_of_go_ok (u := ()) ((go_bind_ok (go_get _) _).trans ?_)
    dsimp only
    rw [if_pos there]
    refine (plainWrite_heard heard ok _).trans ((go_bind_ok (go_upd _ _) _).trans ?_)
    rw [kept]
    split
    · exact go_upd _ _
    · rfl

/-- Settles O44: a request is served or a response ends its request, each as its format says. -/
theorem peerMessages : Obligations.PeerMessages := ⟨peer_messages, leat_registers⟩

/-! ### The host -/

/-- Settles O45: BAR accesses of an open function and of another, and the ends of a host read. -/
theorem hostAccesses : Obligations.HostAccesses := by
  refine ⟨fun s s1 p f va hp hf => ?accesses, fun s s1 t w r k hr hc => ?hflush, fun s s1 tag h asked => ?reads⟩
  case accesses =>
    intro up
    refine ⟨fun opened => ⟨fun bs len read => ?_, fun data written => ?_⟩, fun closed => ⟨fun len => ?_, fun data => ?_⟩, rfl, fun lost => ?_⟩
    · refine run'_of_go_ok (u := ()) ((go_bind_ok (go_get _) _).trans ?_)
      rw [if_pos ⟨hp, hf⟩, if_pos opened]
      exact (go_bind_ok read _).trans ((go_bind_ok (go_upd _ _) _).trans (go_upd _ _))
    · refine run'_of_go_ok (u := ()) ((go_bind_ok (go_get _) _).trans ?_)
      rw [if_pos ⟨hp, hf⟩, if_pos opened]
      exact (go_bind_ok written _).trans (go_bind_ok (go_upd _ _) _)
    · refine run'_of_go_ok (u := ()) ((go_bind_ok (go_get _) _).trans ?_)
      rw [if_pos ⟨hp, hf⟩, if_neg (Bool.eq_false_iff.1 closed)]
      exact (go_bind_ok (go_pure _ _) _).trans ((go_bind_ok (go_upd _ _) _).trans (go_upd _ _))
    · refine run'_of_go_ok (u := ()) ((go_bind_ok (go_get _) _).trans ?_)
      rw [if_pos ⟨hp, hf⟩, if_neg (Bool.eq_false_iff.1 closed)]
      exact (go_bind_ok (go_pure _ _) _).trans ((go_bind_ok (go_upd _ _) _).trans (go_upd _ _))
    · refine ⟨_, rfl, rfl, if_pos hp, fun w => ?_⟩
      rw [List.mem_filter]
      refine and_congr_right fun _ => ?_
      cases who : w.req.who <;> cases w.req.write <;> simp
  case hflush =>
    intro tl ports drained allowed wf
    have first : ¬ (tl.outstanding.any fun e => decide (e.seq < (s.tile t).issued)) = true := by
      refine not_any fun e he => ?_
      have := drained e he
      have issued : tl.issued = (s.tile t).issued + 1 := rfl
      simp
      omega
    have flushes : ¬ (!bit k.flags 1) = true := by rw [allowed]; exact Bool.false_ne_true
    refine ⟨fun none => ?_, fun some' targets sent => ?_⟩
    · rw [← went_setTile_issuing (opc := 0x74)]
      refine deviceInstr_done hc hr ?_
      have covered : ¬ (ports.any fun p => !s.rb (flushReg p (s.tilePart t)) 7) = true := by rw [none]; exact Bool.false_ne_true
      refine (if_neg first).trans ((if_neg flushes).trans ((if_neg covered).trans (inDev_ok ?_)))
      refine (go_bind_ok (go_get _) _).trans ?_
      rw [show (List.range 4).filter (fun p => bit w.imm.toNat p) = [] from none]
      refine (go_bind_ok (go_pure _ _) _).trans ((go_bind_ok (go_get _) _).trans ?_)
      rw [tile_setTile_issuing]
      rfl
    · have covered : ¬ (ports.any fun p => !s.rb (flushReg p (s.tilePart t)) 7) = true :=
        not_any fun p hp => by rw [targets p hp]; rfl
      refine deviceInstr_started hc hr ?_
      refine (if_neg first).trans ((if_neg flushes).trans ((if_neg covered).trans (inDev_ok ?_)))
      refine (go_bind_ok (go_get _) _).trans ((go_bind_ok sent _).trans ((go_bind_ok (go_get _) _).trans ?_))
      exact congrArg (fun a => (Except.ok a, s1)) (if_neg some')
  case reads =>
    refine ⟨fun ok data ended => run'_of_go_ok ended, fun late ended => ?_, fun early => ?_, fun empty ended => ?_⟩
    · refine run'_of_go_ok (u := ()) ((go_bind_ok (go_get _) _).trans ?_)
      rw [asked]
      refine (go_bind_ok (go_get _) _).trans ?_
      rw [if_pos late]
      exact ended
    · refine run'_of_go_ok (u := ()) ((go_bind_ok (go_get _) _).trans ?_)
      rw [asked]
      refine (go_bind_ok (go_get _) _).trans ?_
      rw [if_neg (Nat.not_le.2 early)]
      rfl
    · have found : ∃ g, s.hostReqs.find? (fun r => r.tag == tag && r.len == 0) = some g := by
        have here : (h.tag == tag && h.len == 0) = true := by rw [empty]; simpa using List.find?_some asked
        exact Option.isSome_iff_exists.1 (List.find?_isSome.2 ⟨h, List.mem_of_find?_eq_some asked, here⟩)
      obtain ⟨g, found⟩ := found
      refine run'_of_go_ok (u := ()) ((go_bind_ok (go_get _) _).trans ?_)
      rw [found]
      exact ended

end Sys2Proof.Machine
end

section
/-! SUPPORT. Command queues, the host block's registers, and the mailboxes. -/

namespace Sys2Proof.Machine

/-- A queue gives its next command, and the timer reports (R545, R548, R550). -/
theorem queue_fetches :
    ∀ (s s1 s2 : State) (q : Nat), q < 8192 →
      let cfg := s.rn (qReg q 0); let cons := s.rf (qReg q 0x20) 31 0; let pi := s.rf (qReg q 0x20) 63 32
      (∀ ext bytes, bit cfg 63 = true → cons ≠ pi → s.isFrozen 2 q = false →
        (s.rf (qReg q 0x28) 63 32 + (s.cq q).owed.length + 2 ^ 32 - s.rf (qReg q 0x28) 31 0) % 2 ^ 32 < 2 ^ fld cfg 39 35 →
        (vaRead (s.queueView q 4) 0 (s.rf (qReg q 0x10) 47 6 * 64 + 64 * (cons % 2 ^ fld cfg 39 35)) 64 ext).gives s (.ok bytes) s1 →
        let u := s1.setF (qReg q 0x20) 31 0 (cons + 1)
        let u := u.setCq q { u.cq q with owed := (u.cq q).owed ++ [(cons, none)] }
        let ty := (bytes.headD 0).toNat
        (targetTakes (fld cfg 53 50) ty = true → (fld cfg 53 50 < 6 ∨ s.lic 2 = true) →
          exec (.queueCommandFetch q ext) s =
            .next (u.setCq q { u.cq q with cmds := (u.cq q).cmds ++ [{ seqno := cons, bytes := bytes }] })) ∧
        (targetTakes (fld cfg 53 50) ty = false → (completeWith q cons ty 0x311 0).gives u () s2 →
          exec (.queueCommandFetch q ext) s = .next s2)) ∧
      exec (.queueIrqTimer q) s = .next (if s.rb (qReg q 0x30) 63 = true ∧ (s.cq q).unrep ≠ 0 ∧
        (s.cq q).since + 1000 * s.rf (qReg q 0x30) 15 0 ≤ s.time then s.queueIrq q else s) := by
  intro s s1 s2 q hq cfg cons pi
  refine ⟨fun ext bytes on ready thawed room read => ?fetch, rfl⟩
  case fetch =>
    intro u u' ty
    have goesOn : ¬ (!(decide (q < 8192) && bit cfg 63) || cons == pi || decide (2 ^ fld cfg 39 35 ≤
        (s.rf (qReg q 0x28) 63 32 + (s.cq q).owed.length + 2 ^ 32 - s.rf (qReg q 0x28) 31 0) % 2 ^ 32) || s.isFrozen 2 q) = true := by
      have differs : (cons == pi) = false := beq_eq_false_iff_ne.2 ready
      rw [decide_eq_true hq, on, differs, decide_eq_false (Nat.not_le.2 room), thawed]
      exact Bool.false_ne_true
    have fetched {s'} (h : Dev.gives (if !targetTakes (fld cfg 53 50) ty then completeWith q cons ty 0x311 0
        else if decide (6 ≤ fld cfg 53 50) && !s.lic 2 then completeWith q cons ty 0x10 0
        else upd fun s =>
          let c := s.cq q
          s.setCq q { c with cmds := c.cmds ++ [{ seqno := cons, bytes := bytes }] }) u' () s') :
        exec (.queueCommandFetch q ext) s = .next s' := by
      refine run'_of_go_ok (u := ()) ((go_bind_ok (go_get _) _).trans ?_)
      dsimp only
      rw [if_neg goesOn]
      refine (go_bind_ok read _).trans ?_
      dsimp only
      exact (go_bind_ok (go_upd _ _) _).trans ((go_bind_ok (go_upd _ _) _).trans h)
    refine ⟨fun served licensed => fetched ?_, fun unserved ended => fetched ?_⟩
    · have licence : ¬ (decide (6 ≤ fld cfg 53 50) && !s.lic 2) = true := by
        rcases licensed with low | licensed
        · simp [low]
        · simp [licensed]
      rw [if_neg (by rw [served]; exact Bool.false_ne_true), if_neg licence]
      exact go_upd _ _
    · rw [if_pos (by rw [unserved]; rfl)]
      exact ended

/-- The registers of queues, functions, Ethernet ports and device time (R538, R546, R549, R567, R576). -/
theorem host_registers :
    ∀ (s : State) (v : Nat) (o : Origin),
      (∀ q, q < 8192 → o.isDrd = true →
        let cfg := s.rn (qReg q 0)
        (s.heard o (qReg q 0) = true →
          let n := keepBits v (maskBits 63 35); let s1 := (s.noted o (qReg q 0) v).putAt (qReg q 0) n
          (bit cfg 63 = false → fld n 53 50 ≤ 8 → bit n 63 = true → 4 ≤ fld n 39 35 → fld n 39 35 ≤ 16 →
            exec (.hifQCfgWrite q 0 v o) s = .next ((s1.putAt (qReg q 0x20) 0).putAt (qReg q 0x28) 0)) ∧
          (bit cfg 63 = true → n = setFld cfg 63 63 0 → bit n 63 = false → exec (.hifQCfgWrite q 0 v o) s = .next s1)) ∧
        (∀ k, 0 < k → k < 4 → bit cfg 63 = false → s.heard o (qReg q (8 * k)) = true →
          exec (.hifQCfgWrite q k v o) s = .next ((s.noted o (qReg q (8 * k)) v).putAt (qReg q (8 * k))
            (if k = 1 then v else keepBits v (maskBits 47 6)))) ∧
        (v < 2 ^ 32 → (s.rf (qReg q 0x28) 63 32 + 2 ^ 32 - v) % 2 ^ 32 < 2 ^ 31 → s.heard o (qReg q 0x28) = true →
          exec (.hifCconsWrite q v o) s = .next (s.setF (qReg q 0x28) 31 0 v))) ∧
      (∀ p f, p < 4 → f < 64 → o.isDrd = true → s.heard o (fnCfg p f) = true → (f = 0 ∨ s.rb (fnCfg p f) 63 = false) →
        let n := keepBits v (maskBits 63 53)
        exec (.hifFnCfgWrite p f v o) s =
          .next ((s.noted o (fnCfg p f) v).putAt (fnCfg p f) (if f = 0 then setFld n 63 63 1 else n))) ∧
      (∀ n, n < 4 → s.lic 2 = true → s.heard o (ethReg n) = true → s.rb (ethReg n) 63 = false →
        let k := keepBits v (maskBits 63 32 + maskBits 13 0)
        o.mine (fld k 62 60) = true → fld k 59 58 ≠ 3 → exec (.ethPortCfgWrite n v o) s = .next (s.putAt (ethReg n) k)) ∧
      (s.heard o 0x30 = true → (o.isDrd || o.isPf) = true → fld v 62 61 ≠ 1 ∨ s.lic 2 = true →
        exec (.glbPtpCfgWrite v o) s = .next ((s.noted o 0x30 v).putAt 0x30 (keepBits v (maskBits 63 49)))) := by
  refine fun s v o => ⟨fun q hq drd => ?config, fun p f hp hf drd heard free => ?function, fun n hn licensed heard off => ?port, ?ptp⟩
  case config =>
    intro cfg
    refine ⟨fun heard => ?zero, fun k hk hk' off heard => ?other, fun small behind heard => ?ccons⟩
    case zero =>
      intro n s1
      refine ⟨fun off target on least most => ?_, fun running only off => ?_⟩
      · refine run'_of_go_ok (u := ()) ((go_bind_ok (go_get _) _).trans ?_)
        dsimp only
        rw [if_pos ⟨hq, by decide⟩]
        refine (regWrite_heard heard ?_ _).trans ((go_bind_ok (go_upd _ _) _).trans ?_)
        · have allowed : (decide (fld n 53 50 ≤ 8) && (!bit n 63 || decide (4 ≤ fld n 39 35) && decide (fld n 39 35 ≤ 16))) = true := by
            rw [decide_eq_true target, on, decide_eq_true least, decide_eq_true most]
            rfl
          rw [show bit (s.rn (qReg q 0)) 63 = false from off, drd, if_neg Bool.false_ne_true]
          exact allowed
        · refine (congrArg (fun m : Dev Unit => m.go _) (if_pos (show (decide (0 = 0) && bit n 63) = true from on))).trans ?_
          exact (go_bind_ok (go_upd _ _) _).trans (go_upd _ _)
      · refine run'_of_go_ok (u := ()) ((go_bind_ok (go_get _) _).trans ?_)
        dsimp only
        rw [if_pos ⟨hq, by decide⟩]
        refine (regWrite_heard heard ?_ _).trans ((go_bind_ok (go_upd _ _) _).trans ?_)
        · rw [show bit (s.rn (qReg q 0)) 63 = true from running, drd]
          exact beq_iff_eq.2 only
        · exact congrArg (fun m : Dev Unit => m.go _) (if_neg (show ¬ (decide (0 = 0) && bit n 63) = true from Bool.eq_false_iff.1 off))
    case other =>
      refine run'_of_go_ok (u := ()) ((go_bind_ok (go_get _) _).trans ?_)
      dsimp only
      rw [if_pos ⟨hq, hk'⟩]
      have later : (k != 0) = true := bne_iff_ne.2 (Nat.ne_of_gt hk)
      refine (regWrite_heard heard ?_ _).trans ((go_bind_ok (go_upd _ _) _).trans ?_)
      · rw [show bit (s.rn (qReg q 0)) 63 = false from off, drd, later]
        rfl
      · rw [decide_eq_false (Nat.ne_of_gt hk), Bool.false_and, if_neg Bool.false_ne_true]
        interval_cases k <;> rfl
    case ccons =>
      refine run'_of_go_ok (u := ()) ((go_bind_ok (go_get _) _).trans ?_)
      dsimp only
      rw [if_pos (.inl hq), Nat.mod_eq_of_lt small]
      refine (plainWrite_heard heard ?_ _).trans (go_upd _ _)
      rw [Origin.manages, drd, decide_eq_true behind]
      rfl
  case function =>
    intro n
    have kept : (f == 0 || !bit (s.rn (fnCfg p f)) 63 ||
        fld (if f = 0 then setFld n 63 63 1 else n) 62 53 == fld (s.rn (fnCfg p f)) 62 53) = true := by
      rcases free with first | off
      · rw [first]
        rfl
      · rw [show bit (s.rn (fnCfg p f)) 63 = false from off]
        simp
    refine run'_of_go_ok (u := ()) ((go_bind_ok (go_get _) _).trans ?_)
    dsimp only
    rw [if_pos ⟨hp, hf⟩]
    refine (regWrite_heard heard ?_ _).trans (go_upd _ _)
    rw [drd]
    exact kept
  case port =>
    intro k mine format
    refine run'_of_go_ok (u := ()) ((go_bind_ok (go_get _) _).trans ?_)
    dsimp only
    rw [if_pos ⟨hn, licensed⟩]
    refine (plainWrite_heard heard ?_ _).trans (go_upd _ _)
    rw [show bit (s.rn (ethReg n)) 63 = false from off, if_neg Bool.false_ne_true, mine, bne_iff_ne.2 format]
    rfl
  case ptp =>
    intro heard owner licensed
    refine run'_of_go_ok (u := ()) ((go_bind_ok (go_get _) _).trans ?_)
    refine (regWrite_heard heard ?_ _).trans (go_upd _ _)
    rw [owner]
    exact Bool.or_eq_true_iff.2 (licensed.imp bne_iff_ne.2 id)

/-- Settles O47: a fetch advances the queue, and each register takes the write that its rule allows. -/
theorem queuesAndRegisters : Obligations.QueuesAndRegisters := ⟨queue_fetches, host_registers⟩

/-- Messages in and out through the host's accesses (R541, R561, R562, R564). -/
theorem mailbox_accesses :
    ∀ (s : State) (p f m : Nat), m < 1024 → s.ready = true → s.fnFrozen p f = false →
      let t := m / 16; let k := m % 16; let tl := s.tile t; let b := tl.mbxAt k
      (tl.mbxBound k false p f = true →
        ∀ off data, off + data.length ≤ 64 → data ≠ [] →
        let buf := spWrite dByte b.buf off data
        (off + data.length < 64 → exec (.mbxInboundWrite p f m off data) s =
          .next (s.setTile t (tl.setMbx k { b with buf := buf }))) ∧
        (off + data.length = 64 → b.msgs.length < 16 → exec (.mbxInboundWrite p f m off data) s =
          .next (s.setTile t (tl.setMbx k
            { b with buf := [], msgs := b.msgs ++ [spRead dByte buf 0 64], committed := (b.committed + 1) % 2 ^ 32 }))) ∧
        (off + data.length = 64 → 16 ≤ b.msgs.length → exec (.mbxInboundWrite p f m off data) s =
          .next (s.setTile t ((tl.setMbx k { b with buf := [] }).setReg 0xC100 (satCount (tl.reg 0xC100) 1))))) ∧
      (∀ off data, tl.mbxBound k false p f = false → off + List.length data ≤ 64 →
        exec (.mbxInboundWrite p f m off data) s = .next (s.count (portErr p 0x10) 1)) ∧
      (∀ v, tl.mbxBound k true p f = true →
        let left := (b.sent + 2 ^ 32 - v % 2 ^ 32) % 2 ^ 32
        left ≤ b.sent - b.consumed → exec (.mbxConsumedWrite p f m v) s =
          .next (s.setTile t (tl.setMbx k { b with consumed := b.sent - left }))) ∧
      (∀ x rest, let r := (tl.reg (mbxReg k true)).toNat
        b.outbox = x :: rest → bit r 63 = true →
        let s1 := (s.setTile t (tl.setMbx k { b with outbox := rest, delivered := b.delivered + 1 })).toHost (fld r 62 61)
          (fld r 60 55) (fld r 42 6 * 64 + 64 * (b.delivered % 16)) x
        exec (.mbxOutboundDeliver t k) s = .next (if bit r 43 then s1.emit (.msix (fld r 62 61) (fld r 60 55) (fld r 54 44)) else s1)) ∧
      (∀ v o, s.tileUp t = true → s.heard o (tileReg t (mbxReg k false)) = true → o.mine (s.tilePart t) = true → b.msgs = [] →
        let n := keepBits v (maskBits 63 55)
        s.rf (fnCfg (fld n 62 61) (fld n 60 55)) 62 60 = s.tilePart t →
        exec (.mbxCfgWrite t k false v o) s = .next (s.setTile t (tl.setReg (mbxReg k false) (BitVec.ofNat 64 n)))) := by
  intro s p f m hm up thawed t k tl b
  refine ⟨fun bound off data fits some' => ?write, fun off data unbound fits => ?stranger, ?consumed, ?deliver, ?config⟩
  case write =>
    intro buf
    have goesOn : ¬ (!tl.mbxBound k false p f || s.fnFrozen p f) = true := by rw [bound, thawed]; exact Bool.false_ne_true
    have written {s'} (h : Dev.gives (if off + data.length < 64 ∨ data = [] then upd fun s => s.setTile t (tl.setMbx k { b with buf := buf })
        else if 16 ≤ b.msgs.length then
          let tl := tl.setMbx k { b with buf := [] }
          upd fun s => s.setTile t (tl.setReg 0xC100 (satCount (tl.reg 0xC100) 1))
        else
          let m := spRead dByte buf 0 64
          upd fun s => s.setTile t (tl.setMbx k { b with buf := [], msgs := b.msgs ++ [m], committed := (b.committed + 1) % 2 ^ 32 })) s () s') :
        exec (.mbxInboundWrite p f m off data) s = .next s' := by
      refine run'_of_go_ok (u := ()) ((go_bind_ok (go_get _) _).trans ?_)
      dsimp only [mbxOf]
      rw [if_pos ⟨hm, fits, up⟩, if_neg goesOn]
      exact h
    refine ⟨fun short => written ?_, fun whole room => written ?_, fun whole full => written ?_⟩
    · rw [if_pos (.inl short)]
      exact go_upd _ _
    · rw [if_neg fun h => h.elim (by omega) some', if_neg (Nat.not_le.2 room)]
      exact go_upd _ _
    · rw [if_neg fun h => h.elim (by omega) some', if_pos full]
      exact go_upd _ _
  case stranger =>
    refine run'_of_go_ok (u := ()) ((go_bind_ok (go_get _) _).trans ?_)
    dsimp only [mbxOf]
    rw [if_pos ⟨hm, fits, up⟩, if_pos (by rw [show (s.tile (m / 16)).mbxBound (m % 16) false p f = false from unbound]; rfl)]
    exact go_upd _ _
  case consumed =>
    intro v bound left few
    refine run'_of_go_ok (u := ()) ((go_bind_ok (go_get _) _).trans ?_)
    dsimp only [mbxOf]
    rw [if_pos ⟨hm, up⟩, if_neg (by rw [show (s.tile (m / 16)).mbxBound (m % 16) true p f = true from bound, thawed]; exact Bool.false_ne_true),
      if_pos few]
    exact go_upd _ _
  case deliver =>
    intro x rest r waits on s1
    refine run'_of_go_ok (u := ()) ((go_bind_ok (go_get _) _).trans ?_)
    dsimp only
    split
    · next found => cases found.symm.trans waits
    · next found =>
      cases found.symm.trans waits
      rw [if_pos ⟨Nat.mod_lt _ (by decide), on⟩]
      refine (go_bind_ok (go_upd _ _) _).trans ((go_bind_ok (go_upd _ _) _).trans ?_)
      split
      · exact go_upd _ _
      · rfl
  case config =>
    intro v o there heard mine none n owned
    refine run'_of_go_ok (u := ()) ((go_bind_ok (go_get _) _).trans ?_)
    dsimp only
    rw [if_pos ⟨there, Nat.mod_lt _ (by decide)⟩]
    refine (plainWrite_heard heard ?_ _).trans (go_upd _ _)
    have idle : (b.msgs != []) = false := bne_eq_false_iff_eq.2 none
    have mine' : (s.rf (fnCfg (fld n 62 61) (fld n 60 55)) 62 60 == s.tilePart t) = true := beq_iff_eq.2 owned
    exact Bool.and_eq_true_iff.2 ⟨Bool.and_eq_true_iff.2 ⟨mine, mine'⟩, Bool.or_eq_true_iff.2 (.inl (Bool.or_eq_true_iff.2 (.inl (congrArg not idle))))⟩

/-- MBX on a tile (R563). -/
theorem mailbox_instructions :
    ∀ (s : State) (t : Nat) (w : IWord) (r : Run) (k : LKernel), (s.tile t).running = some (r, k) → s.canIssue t 0x73 w 0 = true →
      let tl := s.issuing t r 0x73; let y := tl.ctx r.ctx; let a := (y.aGet w.sa.toNat).toNat
      let m := 4 * r.ctx + fld w.imm.toNat 1 0; let b := tl.mbxAt m
      (w.fn = 0 → bit (tl.reg (mbxReg m false)).toNat 63 = true → a % 64 = 0 → a + 64 ≤ k.cisBytes → r.jmode = 0 →
        spWf dTile s.tiles = true → ∀ x rest, b.msgs = x :: rest →
        let u := tl.setMbx m { b with msgs := rest, taken := (b.taken + 1) % 2 ^ 32 }
        exec (.mbxRecv t w) s = .next (s.went t r 0x73 w (u.effect.cisPut (k.cisOff + a) x))) ∧
      (w.fn = 1 → bit (tl.reg (mbxReg m true)).toNat 63 = true → a % 64 = 0 → b.sent - b.consumed < 16 → readable tl k a 64 = true →
        exec (.mbxSend t w) s = .next (s.went t r 0x73 w
          (tl.setMbx m { b with outbox := b.outbox ++ [tl.cisBytes (k.cisOff + a) 64], sent := b.sent + 1 }).effect)) ∧
      (w.fn = 2 → bit (tl.reg (mbxReg m false)).toNat 63 = true →
        exec (.mbxCount t w) s = .next (s.went t r 0x73 w (tl.setCtx r.ctx (y.sSet w.dst.toNat (BitVec.ofNat 64 b.msgs.length))))) := by
  intro s t w r k hr hc tl y a m b
  refine ⟨?recv, ?send, ?count⟩
  case recv =>
    intro fn bound aligned fits mode wf x rest waits u
    have outside : ¬ (a % 64 ≠ 0 ∨ k.cisBytes < a + 64) := by omega
    refine (fnInstr_of_fn (congrArg BitVec.toNat fn) _).trans ?_
    have issued : u.issued ≠ 0 := Nat.succ_ne_zero _
    have wf' : spWf dTile (s.setTile t tl).tiles = true := spWf_set dTile wf t tl
    have tile : ((s.setTile t tl).setTile t u).tile t = u := State.tile_setTile_same wf' t u
    have run : (((s.setTile t tl).setTile t u).tile t).run = some r := by
      rw [tile]
      exact issuing_run (opc := 0x73) hr
    have collapse (z : Tile) : ((s.setTile t tl).setTile t u).went t r 0x73 w z = s.went t r 0x73 w z := by
      unfold State.went
      rw [State.setTile_setTile issued, State.setTile_setTile (Nat.succ_ne_zero _)]
    rw [← collapse]
    refine deviceInstr_done hc hr ?_
    refine (if_neg fun h => Bool.false_ne_true ((congrArg not bound).symm.trans h)).trans ((if_neg outside).trans ?_)
    split
    · next found => cases found.symm.trans waits
    · next found =>
      cases found.symm.trans waits
      refine inDev_ok ?_
      refine (go_bind_ok (go_upd _ _) _).trans ?_
      refine (go_bind_ok (tileJournal_off run mode _ _ _) _).trans ?_
      refine (go_bind_ok (go_get _) _).trans ((go_pure _ _).trans ?_)
      rw [tile]
      rfl
  case send =>
    intro fn bound aligned room data
    refine (fnInstr_of_fn (congrArg BitVec.toNat fn) _).trans (tileInstr_done hc hr ?_)
    refine (if_neg fun h => Bool.false_ne_true ((congrArg not bound).symm.trans h)).trans ?_
    refine (if_neg (not_not.2 aligned)).trans ((if_neg (Nat.not_le.2 room)).trans ?_)
    split
    · next found => cases found.symm.trans (cisRead_readable data)
    · next found => cases found.symm.trans (cisRead_readable data)
    · next found =>
      cases found.symm.trans (cisRead_readable data)
      rfl
  case count =>
    intro fn bound
    refine (fnInstr_of_fn (congrArg BitVec.toNat fn) _).trans (tileInstr_done hc hr ?_)
    exact if_neg fun h => Bool.false_ne_true ((congrArg not bound).symm.trans h)

/-- Settles O48: each write and each instruction of a mailbox in the state that its premises name. -/
theorem mailboxes : Obligations.Mailboxes := ⟨mailbox_accesses, mailbox_instructions⟩

end Sys2Proof.Machine
end

section
/-! SUPPORT. Commands on queue pairs and memory regions. -/

namespace Sys2Proof.Machine

/-- A part that answers answers in each of its steps. -/
theorem gives_of_bind {α β : Type} {m : Dev α} {f : α → Dev β} {s s' : State} {b : β} (h : (m >>= f).gives s b s') :
    ∃ a t, m.gives s a t ∧ (f a).gives t b s' := by
  rw [Dev.gives, go_bind] at h
  rcases first : m.go s with ⟨_ | a, t⟩
  · rw [first] at h
    cases h
  · rw [first] at h
    exact ⟨a, t, first, h⟩

/-- A receive entry is used up when one is posted. -/
theorem recvInto_some {s s1 : State} {q : Nat} {who : Master} {data : List Byte} {imm : Option Nat} {a : Option Bool}
    (posted : (s.cq q).posted ≠ []) (received : (recvInto q who data imm).gives s a s1) : a.isSome = true := by
  unfold recvInto at received
  obtain ⟨u, t, got, received⟩ := gives_of_bind received
  cases got
  dsimp only at received
  have ends {code n : Nat} {e : QCmd} {t : State} (h : Dev.gives (do
      complete q e.seqno (rdmaRecord e code (imm.getD 0) n (if code = 0 then b2n imm.isSome else 0xFF) (← get).time)
      return some (code != 0)) t a s1) : a.isSome = true := by
    obtain ⟨_, _, got, h⟩ := gives_of_bind h
    obtain ⟨_, _, completed, h⟩ := gives_of_bind h
    cases h
    rfl
  split at received
  · next none => exact absurd none posted
  · obtain ⟨_, _, changed, received⟩ := gives_of_bind received
    split at received
    · exact ends received
    · obtain ⟨r, _, written, received⟩ := gives_of_bind received
      cases r
      · exact ends received
      · exact ends received

/-- The commands on queue pairs and memory regions (R570, R571). -/
theorem queuePair_commands :
    ∀ (s s1 s2 s3 : State) (q : Nat) (c : QCmd),
      let n := c.f 4 4; let v := s1.queueView q 6; let old := s1.qp n; let st := c.f 2 1
      ((takeCmd q 0x50).gives s c s1 → c.zero 0x35 11 = true →
        (s1.qpSetOk q c = true →
          (st ≠ 0 → st ≠ 4 →
            (completeWith q c.seqno 0x50 0 0).gives (s1.setQp n { old with
              state := st, port := c.f 1 1, mtu := c.f 3 1, sq := c.f 8 2, rq := c.f 0xA 2, dqpn := c.f 0xC 4
              dgid := (c.bytes.drop 0x10).take 16, dmac := (c.bytes.drop 0x20).take 6, vlan := c.f 0x26 2, dscp := c.f 0x30 1
              prio := c.f 0x31 1, retry := c.f 0x32 1, timeout := c.f 0x33 1, maxrd := c.f 0x34 1, part := v.part, as := v.as.getD 0
              psn := if st = 3 then c.f 0x28 4 else old.psn, epsn := if st = 2 then c.f 0x2C 4 else old.epsn
              left := c.f 0x32 1 }) () s2 →
            exec (.rdmaQpSet q) s = .next s2) ∧
          (st = 0 → (qpFlush n).gives s1 () s2 →
            (completeWith q c.seqno 0x50 0 0).gives (s2.setQp n
              { Qp.none with port := c.f 1 1, sq := c.f 8 2, rq := c.f 0xA 2, part := v.part, as := v.as.getD 0 }) () s3 →
            exec (.rdmaQpSet q) s = .next s3)) ∧
        (s1.qpSetOk q c = false → (completeWith q c.seqno 0x50 0xC10 0).gives s1 () s2 → exec (.rdmaQpSet q) s = .next s2)) ∧
      ((takeCmd q 0x51).gives s c s1 → c.zero 1 3 = true → c.zero 8 56 = true → old ≠ .none → old.part = s1.qPart q →
        (qpFlush n).gives s1 () s2 → (completeWith q c.seqno 0x51 0 0).gives (s2.setQp n .none) () s3 →
        exec (.rdmaQpDestroy q) s = .next s3) ∧
      ((takeCmd q 0x52).gives s c s1 → c.zero 2 2 = true → c.zero 0x18 40 = true → c.f 1 1 < 4 → c.f 0x10 8 ≠ 0 → s1.mrs.length < 65536 →
        (spGet dMr s1.mrs n = none → (completeWith q c.seqno 0x52 0 0).gives { s1 with mrs := spSet dMr s1.mrs n (some
            { access := c.f 1 1, base := c.f 8 8, len := c.f 0x10 8, part := s1.qPart q, as := s1.rf (qReg q 0) 59 54 }) } () s2 →
          exec (.rdmaMrReg q) s = .next s2) ∧
        (spGet dMr s1.mrs n ≠ none → (completeWith q c.seqno 0x52 0xC11 0).gives s1 () s2 → exec (.rdmaMrReg q) s = .next s2)) ∧
      ((takeCmd q 0x53).gives s c s1 → c.zero 1 3 = true → c.zero 8 56 = true →
        ∀ m, spGet dMr s1.mrs n = some m → m.part = s1.qPart q →
          (completeWith q c.seqno 0x53 0 0).gives { s1 with mrs := spSet dMr s1.mrs n none } () s2 →
          exec (.rdmaMrDereg q) s = .next s2) := by
  intro s s1 s2 s3 q c n v old st
  refine ⟨fun taken zero => ?set, fun taken z1 z2 there mine flushed ended => ?destroy, fun taken z1 z2 access len room => ?reg,
    fun taken z1 z2 m found mine ended => ?dereg⟩
  case set =>
    have format : ¬ (!c.zero 0x35 11) = true := by rw [zero]; exact Bool.false_ne_true
    refine ⟨fun allowed => ⟨fun later fine ended => ?_, fun back flushed ended => ?_⟩, fun refused ended => ?_⟩
    · refine run'_of_go_ok (u := ()) ((go_bind_ok taken _).trans ((go_bind_ok (go_get _) _).trans ?_))
      dsimp only
      rw [if_neg format, if_neg (by rw [allowed]; exact Bool.false_ne_true), if_neg fine, if_neg later]
      exact (go_bind_ok (go_upd _ _) _).trans ended
    · refine run'_of_go_ok (u := ()) ((go_bind_ok taken _).trans ((go_bind_ok (go_get _) _).trans ?_))
      dsimp only
      have other : ¬ st = 4 := by omega
      rw [if_neg format, if_neg (by rw [allowed]; exact Bool.false_ne_true), if_neg other, if_pos back]
      exact (go_bind_ok flushed _).trans ((go_bind_ok (go_upd _ _) _).trans ended)
    · refine run'_of_go_ok (u := ()) ((go_bind_ok taken _).trans ((go_bind_ok (go_get _) _).trans ?_))
      dsimp only
      rw [if_neg format, if_pos (by rw [refused]; rfl)]
      exact ended
  case destroy =>
    refine run'_of_go_ok (u := ()) ((go_bind_ok taken _).trans ((go_bind_ok (go_get _) _).trans ?_))
    dsimp only
    have known : (s1.qp n == .none || (s1.qp n).part != s1.qPart q) = false := by
      rw [beq_eq_false_iff_ne.2 there, bne_eq_false_iff_eq.2 mine]
      rfl
    rw [if_neg (by rw [z1, z2]; exact Bool.false_ne_true), if_neg (Bool.eq_false_iff.1 known)]
    exact (go_bind_ok flushed _).trans ((go_bind_ok (go_upd _ _) _).trans ended)
  case reg =>
    have format : ¬ (!(c.zero 2 2 && c.zero 0x18 40 && decide (c.f 1 1 < 4))) = true := by
      rw [z1, z2, decide_eq_true access]
      exact Bool.false_ne_true
    refine ⟨fun fresh ended => ?_, fun used ended => ?_⟩
    · refine run'_of_go_ok (u := ()) ((go_bind_ok taken _).trans ((go_bind_ok (go_get _) _).trans ?_))
      dsimp only
      rw [if_neg format, fresh, Option.isSome_none, beq_eq_false_iff_ne.2 len, decide_eq_false (Nat.not_le.2 room), if_neg (by decide)]
      exact (go_bind_ok (go_upd _ _) _).trans ended
    · refine run'_of_go_ok (u := ()) ((go_bind_ok taken _).trans ((go_bind_ok (go_get _) _).trans ?_))
      dsimp only
      rw [if_neg format, Option.isSome_iff_ne_none.2 used, Bool.true_or, Bool.true_or, if_pos rfl]
      exact ended
  case dereg =>
    refine run'_of_go_ok (u := ()) ((go_bind_ok taken _).trans ((go_bind_ok (go_get _) _).trans ?_))
    dsimp only
    rw [if_neg (by rw [z1, z2]; exact Bool.false_ne_true), found]
    dsimp only
    rw [if_neg (not_not.2 mine)]
    exact (go_bind_ok (go_upd _ _) _).trans ended

/-- The entries of a queue pair, and raw frames (R567, R568, R572). -/
theorem queuePair_entries :
    ∀ (s s1 s2 s3 : State) (q n : Nat) (c : QCmd),
      let qp := s1.qp n; let reads := (qp.out.filter fun m => m.type == 0x64).length
      let m := fun type data => ({
        psn := 0, pkts := 0, type := type, data := data, raddr := c.f 0x18 8, rkey := c.f 0x20 4, len := c.f 4 4, imm := c.f 0x24 4
        cmd := some (q, c.seqno), tag := c.f 0x10 8, laddr := c.f 8 8, got := 0 } : QpMsg)
      (s.qpOfQueue q true = some n → qp.state = 3 → bit (c.f 1 1) 0 = false ∨ reads = 0 →
        (∀ ext bs type i, (type, i) ∈ [(0x60, Instr.rdmaSend q ext), (0x61, .rdmaSendImm q ext), (0x62, .rdmaWrite q ext), (0x63, .rdmaWriteImm q ext)] →
          (takeCmd q type).gives s c s1 → (vaRead (s1.rdmaView q (.qp n)) 0 (c.f 8 8) (c.f 4 4) ext).gives s1 (.ok bs) s2 →
          exec i s = .next (s2.qpPost n (m type bs))) ∧
        ((takeCmd q 0x64).gives s c s1 → reads < qp.maxrd → exec (.rdmaRead q) s = .next (s1.qpPost n (m 0x64 [])))) ∧
      (∀ ext bs, s.qpOfQueue q true = some n → (takeCmd q 0x65).gives s c s1 → qp.state ≠ 4 → 60 ≤ c.f 4 4 →
        c.f 4 4 + 4 ≤ s1.rf (ethReg qp.port) 45 32 →
        (vaRead (s1.rdmaView q (.qp n)) 0 (c.f 8 8) (c.f 4 4) ext).gives s1 (.ok bs) s2 →
        (complete q c.seqno (rdmaRecord c 0 0 bs.length 0xFF s2.time)).gives (s2.emit (.eth qp.port bs)) () s3 →
        exec (.rawSend q ext) s = .next s3) ∧
      ((takeCmd q 0x68).gives s c s1 → (∀ n, s1.qpOfQueue q false = some n → (s1.qp n).state ≠ 4) →
        exec (.rdmaRecvPost q) s = .next (s1.setCq q { s1.cq q with posted := (s1.cq q).posted ++ [c] })) ∧
      (∀ port frame, port < 4 → s.lic 2 = true → s.rb (ethReg port) 63 = true → frame.length ≤ s.rf (ethReg port) 45 32 →
        passesOn frame = false →
        let raw := s.rf (ethReg port) 12 0
        (s.rb (ethReg port) 13 = true → (s.cq raw).posted ≠ [] → ∀ a, (recvInto raw (.queue raw) frame none).gives s a s1 →
          exec (.ethFrameReceive port frame) s = .next s1) ∧
        (s.rb (ethReg port) 13 = false → exec (.ethFrameReceive port frame) s = .next (s.count (0x60100 + 8 * port) 1))) := by
  intro s s1 s2 s3 q n c qp reads m
  refine ⟨fun mine ready fence => ?sent, fun ext bs mine taken running least most read ended => ?raw, fun taken alive => ?post,
    fun port frame hp licensed on short kept => ?frame⟩
  case sent =>
    have failed : ¬ qp.state = 4 := by omega
    have goesOn : (bit (c.f 1 1) 0 && reads != 0) = false := by
      rcases fence with unfenced | none
      · rw [unfenced, Bool.false_and]
      · rw [bne_eq_false_iff_eq.2 none, Bool.and_false]
    refine ⟨?sends, ?reads⟩
    case sends =>
      intro ext bs type i known taken read
      have plain : type ≠ 0x64 := by
        rintro rfl
        simp at known
      have sent : (sendEntry q type ext).gives s () (s2.qpPost n (m type bs)) := by
        unfold sendEntry
        refine (go_bind_ok (go_get _) _).trans ?_
        rw [mine]
        refine (go_bind_ok taken _).trans ((go_bind_ok (go_get _) _).trans ?_)
        dsimp only
        rw [if_neg failed, if_neg (not_not.2 ready), goesOn, beq_eq_false_iff_ne.2 plain, Bool.false_and, Bool.or_false, if_neg Bool.false_ne_true,
          if_neg plain]
        exact (go_bind_ok read _).trans (go_upd _ _)
      simp only [List.mem_cons, List.not_mem_nil, or_false, Prod.mk.injEq] at known
      obtain ⟨rfl, rfl⟩ | ⟨rfl, rfl⟩ | ⟨rfl, rfl⟩ | ⟨rfl, rfl⟩ := known <;> exact run'_of_go_ok sent
    case reads =>
      intro taken room
      refine run'_of_go_ok (u := ()) ?_
      unfold sendEntry
      refine (go_bind_ok (go_get _) _).trans ?_
      rw [mine]
      refine (go_bind_ok taken _).trans ((go_bind_ok (go_get _) _).trans ?_)
      dsimp only
      have few : (0x64 == 0x64 && decide (qp.maxrd ≤ reads)) = false := by rw [decide_eq_false (Nat.not_le.2 room), Bool.and_false]
      rw [if_neg failed, if_neg (not_not.2 ready), goesOn, few, Bool.or_false, if_neg Bool.false_ne_true, if_pos rfl]
      exact go_upd _ _
  case raw =>
    have lengths : ¬ (c.f 4 4 < 60 ∨ s1.rf (ethReg qp.port) 45 32 < c.f 4 4 + 4) := by omega
    refine run'_of_go_ok (u := ()) ((go_bind_ok (go_get _) _).trans ?_)
    rw [mine]
    refine (go_bind_ok taken _).trans ((go_bind_ok (go_get _) _).trans ?_)
    dsimp only
    rw [if_neg running, if_neg lengths]
    refine (go_bind_ok read _).trans ?_
    exact (go_bind_ok (go_upd _ _) _).trans ((go_bind_ok (go_get _) _).trans ended)
  case post =>
    refine run'_of_go_ok (u := ()) ((go_bind_ok taken _).trans ((go_bind_ok (go_get _) _).trans ?_))
    split
    · next n found =>
      rw [if_neg (alive n found)]
      exact go_upd _ _
    · exact go_upd _ _
  case frame =>
    intro raw
    have taken : ¬ (decide (4 ≤ port) || !s.lic 2 || !bit (s.rn (ethReg port)) 63 || decide (fld (s.rn (ethReg port)) 45 32 < frame.length) ||
        passesOn frame) = true := by
      rw [decide_eq_false (Nat.not_le.2 hp), licensed, show bit (s.rn (ethReg port)) 63 = true from on,
        show decide (fld (s.rn (ethReg port)) 45 32 < frame.length) = false from decide_eq_false (Nat.not_lt.2 short), kept]
      exact Bool.false_ne_true
    refine ⟨fun wanted posted a received => ?_, fun unwanted => ?_⟩
    · refine run'_of_go_ok (u := ()) ((go_bind_ok (go_get _) _).trans ?_)
      dsimp only
      rw [if_neg taken, if_pos (show bit (s.rn (ethReg port)) 13 = true from wanted)]
      refine (go_bind_ok received _).trans ?_
      obtain ⟨b, rfl⟩ := Option.isSome_iff_exists.1 (recvInto_some posted received)
      rfl
    · refine run'_of_go_ok (u := ()) ((go_bind_ok (go_get _) _).trans ?_)
      dsimp only
      rw [if_neg taken, if_neg (show ¬ bit (s.rn (ethReg port)) 13 = true from Bool.eq_false_iff.1 unwanted)]
      exact go_upd _ _

/-- Settles O49: each command with the checks that its premises pass. -/
theorem rdmaCommands : Obligations.RdmaCommands := ⟨queuePair_commands, queuePair_entries⟩

end Sys2Proof.Machine
end

section
/-! SUPPORT. Messages, responses and timeouts of queue pairs. -/

namespace Sys2Proof.Machine

/-- A queue pair in RTS whose oldest packet has no answer in time. -/
theorem unanswered {q : Qp} {now : Nat} (ready : q.state = 3) (out : q.out ≠ []) (fine : q.rnr = false) (late : q.since + 4096 * 2 ^ q.timeout ≤ now) :
    (q.state == 3 && q.out != [] && !q.rnr && decide (q.since + 4096 * 2 ^ q.timeout ≤ now)) = true := by
  rw [beq_iff_eq.2 ready, bne_iff_ne.2 out, fine, decide_eq_true late]
  rfl

/-- A responder serves the message whose turn it is (R569, R573). -/
theorem responder_serves :
    ∀ (s s1 : State) (n psn : Nat), s.qp n ≠ .none → s.lic 2 = true →
      let q := s.qp n
      let ack := fun k p (s : State) =>
        s.emit (.roce (s.qp n).port (s.qp n).dgid (s.qp n).dqpn 0x11 p (beBytes 1 k ++ beBytes 3 (s.qp n).msn))
      let served := fun k (s : State) => s.setQp n { s.qp n with epsn := ((s.qp n).epsn + k) % 2 ^ 24, msn := ((s.qp n).msn + 1) % 2 ^ 24 }
      (∀ key va len m bs, psn = q.epsn → s.mrFor n key va len 0 = some m → (inRead (s.mrView n m) 0 va len).gives s (.ok bs) s1 →
        exec (.rdmaInboundRead n psn key va len) s = .next (served (q.packets len) (s1.readResponse n psn bs))) ∧
      (∀ key va data m, psn = q.epsn → s.mrFor n key va data.length 1 = some m →
        (inWrite (s.mrView n m) 0 va data).gives s (.ok ()) s1 →
        exec (.rdmaInboundWrite n psn key va data none) s =
          .next (ack 0x1F ((psn + q.packets data.length - 1) % 2 ^ 24) (served (q.packets data.length) s1))) ∧
      (∀ data imm, (q.state = 2 ∨ q.state = 3) → psn = q.epsn → q.rq ≠ 0xFFFF →
        (recvInto q.rq (.qp n) data imm).gives s (some false) s1 →
        exec (.rdmaInboundSend n psn data imm) s =
          .next (ack 0x1F ((psn + q.packets data.length - 1) % 2 ^ 24) (served (q.packets data.length) s1))) ∧
      (∀ key va len data imm, psn ≠ q.epsn → psnBefore psn q.epsn = false →
        exec (.rdmaInboundRead n psn key va len) s = .next (ack 0x60 q.epsn s) ∧
        exec (.rdmaInboundWrite n psn key va data imm) s = .next (ack 0x60 q.epsn s) ∧
        (q.state = 2 ∨ q.state = 3 → exec (.rdmaInboundSend n psn data imm) s = .next (ack 0x60 q.epsn s))) ∧
      (∀ key va len, psn = q.epsn → s.mrFor n key va len 0 = none →
        exec (.rdmaInboundRead n psn key va len) s = .next (ack 0x62 psn s)) := by
  intro s s1 n psn there licensed q ack served
  have known : ¬ (s.qp n == .none || !s.lic 2) = true := by
    rw [beq_eq_false_iff_ne.2 there, licensed]
    exact Bool.false_ne_true
  have receiving (ready : q.state = 2 ∨ q.state = 3) : ¬ (s.qp n == .none || !s.lic 2 || (q.state != 2 && q.state != 3)) = true := by
    rw [Bool.eq_false_iff.2 known]
    rcases ready with two | three
    · rw [two]
      decide
    · rw [three]
      decide
  refine ⟨?read, ?write, ?send, ?early, ?denied⟩
  case read =>
    intro key va len m bs turn region answered
    refine run'_of_go_ok (u := ()) ((go_bind_ok (go_get _) _).trans ?_)
    rw [if_neg known]
    refine (go_bind_ok (go_get _) _).trans ?_
    dsimp only
    rw [if_pos turn, region]
    dsimp only
    refine (go_bind_ok answered _).trans ?_
    dsimp only
    refine (go_bind_ok (go_upd _ _) _).trans ?_
    rw [if_pos turn]
    exact go_upd _ _
  case write =>
    intro key va data m turn region written
    refine run'_of_go_ok (u := ()) ((go_bind_ok (go_get _) _).trans ?_)
    dsimp only
    rw [if_neg known]
    refine (go_bind_ok (go_get _) _).trans ?_
    dsimp only
    rw [if_pos turn, region]
    dsimp only
    rw [Option.isSome_none, Bool.false_and, Bool.false_and, if_neg Bool.false_ne_true]
    refine (go_bind_ok written _).trans ?_
    dsimp only
    rw [if_neg Bool.false_ne_true]
    exact (go_bind_ok (go_upd _ _) _).trans (go_upd _ _)
  case send =>
    intro data imm ready turn plain received
    refine run'_of_go_ok (u := ()) ((go_bind_ok (go_get _) _).trans ?_)
    dsimp only
    rw [if_neg (receiving ready)]
    refine (go_bind_ok (go_get _) _).trans ?_
    dsimp only
    rw [if_pos turn, if_neg plain]
    refine (go_bind_ok received _).trans ?_
    dsimp only
    rw [if_neg Bool.false_ne_true]
    exact (go_bind_ok (go_upd _ _) _).trans (go_upd _ _)
  case early =>
    intro key va len data imm other ahead
    have refused (dup serve : Dev Unit) : (inTurn n psn dup serve).gives s () (ack 0x60 q.epsn s) := by
      unfold inTurn
      refine (go_bind_ok (go_get _) _).trans ?_
      dsimp only
      rw [if_neg other, ahead, if_neg Bool.false_ne_true]
      exact go_upd _ _
    refine ⟨?_, ?_, fun ready => ?_⟩
    · refine run'_of_go_ok (u := ()) ((go_bind_ok (go_get _) _).trans ?_)
      rw [if_neg known]
      exact refused _ _
    · refine run'_of_go_ok (u := ()) ((go_bind_ok (go_get _) _).trans ?_)
      dsimp only
      rw [if_neg known]
      exact refused _ _
    · refine run'_of_go_ok (u := ()) ((go_bind_ok (go_get _) _).trans ?_)
      dsimp only
      rw [if_neg (receiving ready)]
      exact refused _ _
  case denied =>
    intro key va len turn none
    refine run'_of_go_ok (u := ()) ((go_bind_ok (go_get _) _).trans ?_)
    rw [if_neg known]
    refine (go_bind_ok (go_get _) _).trans ?_
    dsimp only
    rw [if_pos turn, none]
    exact go_upd _ _

/-- A requester takes its responses and timeouts (R569, R573, R575). -/
theorem requester_takes :
    ∀ (s s1 s2 : State) (n psn : Nat),
      let q := s.qp n; let before := (psn + 2 ^ 24 - 1) % 2 ^ 24
      let again := fun (s : State) =>
        ((s.qp n).out.foldl (fun s m => s.sendPackets n m) s)
      (q.state = 3 → q.out ≠ [] →
        ((qpAcked n psn).gives s () s1 → ∀ data, exec (.rdmaResponseReceive n 0 psn data) s = .next s1) ∧
        ((qpAcked n before).gives s () s1 → ∀ data,
          ((qpFail n 0xC12).gives s1 () s2 → exec (.rdmaResponseReceive n 2 psn data) s = .next s2) ∧
          exec (.rdmaResponseReceive n 4 psn data) s = .next (s1.setQp n { s1.qp n with rnr := true, since := s1.time }) ∧
          exec (.rdmaResponseReceive n 5 psn data) s = .next (again s1))) ∧
      (0 < q.left →
        let s0 := s.setQp n { q with left := q.left - 1, since := s.time, rnr := false }
        (q.rnr = true → q.since + 10000 ≤ s.time → exec (.rdmaRnrRetry n) s = .next (again s0)) ∧
        (q.state = 3 → q.out ≠ [] → q.rnr = false → q.since + 4096 * 2 ^ q.timeout ≤ s.time →
          exec (.rdmaRetransmitTimeout n) s = .next (again s0))) ∧
      (q.left = 0 → (qpFail n 0xC13).gives s () s1 →
        (q.state = 3 → q.out ≠ [] → q.rnr = false → q.since + 4096 * 2 ^ q.timeout ≤ s.time →
          exec (.rdmaRetransmitTimeout n) s = .next s1)) ∧
      (∀ due port m rest, s.udAgain = (due, port, n, m) :: rest → due ≤ s.time →
        exec .spkUdResend s = .next ({ s with udAgain := rest }.emit (.roce port q.dgid 2 0x64 0 m))) := by
  intro s s1 s2 n psn q before again
  refine ⟨fun ready out => ?answers, fun left => ?retries, fun left failed ready out fine late => ?last, fun due port m rest waits late => ?copy⟩
  case answers =>
    have sending : ¬ (q.state ≠ 3 ∨ q.out = []) := fun h => h.elim (· ready) out
    refine ⟨fun acked data => ?_, fun acked data => ⟨fun failed => ?_, ?_, ?_⟩⟩
    · refine run'_of_go_ok (u := ()) ((go_bind_ok (go_get _) _).trans ?_)
      dsimp only
      rw [if_neg sending]
      exact acked
    · refine run'_of_go_ok (u := ()) ((go_bind_ok (go_get _) _).trans ?_)
      dsimp only
      rw [if_neg sending]
      exact (go_bind_ok acked _).trans failed
    · refine run'_of_go_ok (u := ()) ((go_bind_ok (go_get _) _).trans ?_)
      dsimp only
      rw [if_neg sending]
      exact (go_bind_ok acked _).trans (go_upd _ _)
    · refine run'_of_go_ok (u := ()) ((go_bind_ok (go_get _) _).trans ?_)
      dsimp only
      rw [if_neg sending]
      exact (go_bind_ok acked _).trans (go_upd _ _)
  case retries =>
    intro s0
    have retried : (qpRetry n).gives s () (again s0) := by
      unfold qpRetry
      refine (go_bind_ok (go_get _) _).trans ?_
      dsimp only
      rw [if_neg (Nat.ne_of_gt left)]
      exact (go_bind_ok (go_upd _ _) _).trans (go_upd _ _)
    refine ⟨fun waiting late => ?_, fun ready out fine late => ?_⟩
    · refine run'_of_go_ok (u := ()) ((go_bind_ok (go_get _) _).trans ?_)
      rw [if_pos (Bool.and_eq_true_iff.2 ⟨waiting, decide_eq_true late⟩)]
      exact retried
    · refine run'_of_go_ok (u := ()) ((go_bind_ok (go_get _) _).trans ?_)
      dsimp only
      rw [if_pos (unanswered ready out fine late)]
      exact retried
  case last =>
    refine run'_of_go_ok (u := ()) ((go_bind_ok (go_get _) _).trans ?_)
    dsimp only
    rw [if_pos (unanswered ready out fine late)]
    unfold qpRetry
    refine (go_bind_ok (go_get _) _).trans ?_
    dsimp only
    rw [if_pos left]
    exact failed
  case copy =>
    refine congrArg Host.Outcome.next ?_
    rw [waits]
    exact if_pos late

/-- Settles O50: a responder serves a message in its turn, and a requester acts on each kind of answer. -/
theorem rdmaMessages : Obligations.RdmaMessages := ⟨responder_serves, requester_takes⟩

end Sys2Proof.Machine
end

section
/-! SUPPORT. Media rings, sessions and jobs. -/

namespace Sys2Proof.Machine

theorem bit_keepBits {v hi lo i : Nat} (low : lo ≤ i) (high : i ≤ hi) : bit (keepBits v (maskBits hi lo)) i = bit v i := by
  have kept : (maskBits hi lo).testBit i = true := by
    rw [maskBits, Nat.testBit_shiftLeft, Nat.testBit_two_pow_sub_one, decide_eq_true low, decide_eq_true (by omega)]
    rfl
  exact (Nat.testBit_and v (maskBits hi lo) i).trans (by rw [kept, Bool.and_true]; rfl)

/-- A field that a mask keeps whole. -/
theorem fld_keepBits {v hi lo a b : Nat} (low : lo ≤ b) (high : a ≤ hi) : fld (keepBits v (maskBits hi lo)) a b = fld v a b := by
  refine Nat.eq_of_testBit_eq fun j => ?_
  rw [testBit_fld, testBit_fld]
  by_cases inside : j < a + 1 - b
  · rw [show (keepBits v (maskBits hi lo)).testBit (b + j) = v.testBit (b + j) from bit_keepBits (by omega) (by omega)]
  · rw [decide_eq_false inside, Bool.false_and, Bool.false_and]

theorem shadowed_gives {s : State} (off v : Nat) : (shadowed off v).gives s () (s.shadowing off v) := upd_gives _

/-! ### A job of the ring -/

section
variable {s s1 : State} {r i type : Nat} {j : MedJob} {body : MedJob → Dev MedRes}

/-- The jobs with a result for one of them. -/
def State.medResult (s : State) (r i : Nat) (res : MedRes) : State :=
  { s with jobs := s.jobs.map fun k => if k.ring = r ∧ k.idx = i then { k with res := some res } else k }

/-- The result of a job whose turn has come is kept with it (R616). -/
theorem medJob_result (turn : s.jobs.find? (fun j => j.ring == r && j.idx == i && j.res.isNone && j.type == type) = some j)
    (first : s.medWaits j = false) {res : MedRes} (ran : (do
        match ← attempt (body j) with
        | .ok x => pure x
        | .error (c, _) => pure { MedRes.zero with status := c }).gives s res s1) (kept : res.status < 0xD08) :
    (medJob r i type body).gives s () (s1.medResult r i res) := by
  unfold medJob
  refine (go_bind_ok (go_get _) _).trans ?_
  rw [turn]
  dsimp only
  rw [first, if_neg Bool.false_ne_true]
  refine (go_bind_ok ran _).trans ((go_bind_ok (go_upd _ _) _).trans ?_)
  rw [if_neg fun h => absurd h.1 (Nat.not_le.2 kept)]
  rfl

/-- A job whose turn has come and that runs to its end. -/
theorem medJob_ok (turn : s.jobs.find? (fun j => j.ring == r && j.idx == i && j.res.isNone && j.type == type) = some j)
    (first : s.medWaits j = false) {res : MedRes} (ran : (body j).gives s res s1) (fine : res.status = 0) :
    (medJob r i type body).gives s () (s1.medResult r i res) :=
  medJob_result turn first (go_bind_ok (attempt_ok ran) _) (by rw [fine]; decide)

/-- One that breaks off with a code. -/
theorem medJob_code (turn : s.jobs.find? (fun j => j.ring == r && j.idx == i && j.res.isNone && j.type == type) = some j)
    (first : s.medWaits j = false) {code d : Nat} (ran : (body j).go s = (.error (.abort code d), s1)) (kept : code < 0xD08) :
    (medJob r i type body).gives s () (s1.medResult r i { MedRes.zero with status := code }) :=
  medJob_result turn first (go_bind_ok (attempt_abort ran) _) kept

end

/-- The session that a job names, when it is the ring's and is open. -/
theorem medSession_ok {s : State} {j : MedJob} {x : Sess} {dir : Option Nat} (open' : s.session j.num = some x) (own : x.ring = j.ring)
    (usable : (match dir with
      | none => true
      | some d => x.f 0x19 1 == d && !x.failed) = true) : (medSession j dir).gives s x s := by
  unfold medSession
  refine (go_bind_ok (go_get _) _).trans ?_
  rw [open']
  exact go_bind_ok (must_true (Bool.and_eq_true_iff.2 ⟨beq_iff_eq.2 own, usable⟩) _ _) _

theorem State.withSessions_same {s : State} {l : List Sess} (same : l = s.sessions) : { s with sessions := l } = s := by rw [same]

theorem State.defect_sessions (s : State) (kind unit loc threshold : Nat) : (s.defect kind unit loc threshold).sessions = s.sessions := by
  unfold State.defect
  dsimp only
  split
  · rfl
  · split <;> rfl

/-- The part that loses an engine with the sessions on it (R617). -/
def State.engineLost (s : State) (hit : List Sess) : State :=
  let u := hit.foldl (fun s x => s.failSession x.num) s
  { u with jobs := u.jobs.map fun (j : MedJob) =>
      if j.res.isNone ∧ j.type ≠ 0x70 ∧ hit.any (fun x => x.ring == j.ring && x.num == j.num) then
        { j with res := some { MedRes.zero with status := 0xD0B } } else j }

/-- A ring of the media unit takes its doorbell and its configuration, and gives its next job (R586 to R588). -/
theorem mediaRing_serves :
    ∀ (s s1 : State) (r : Nat), r < 32 →
      let q := ringQ r; let cons := s.rf (qReg q 0x20) 31 0
      (∀ v o, let off := hifReg (0x4030 + 0x40 * r)
        s.heard o off = true → (o.isPf && o.part == s.rf (qReg q 0) 62 60) = true → v < 2 ^ 32 →
        let s0 := (s.noted o off v).shadowing off v; let pi := s0.rf (qReg q 0x20) 63 32; let n := s0.rf (qReg q 0x20) 31 0
        s.rb (qReg q 0) 63 = true → (v + 2 ^ 32 - pi) % 2 ^ 32 < 2 ^ 31 → (v + 2 ^ 32 - n) % 2 ^ 32 ≤ s0.qSize q →
        exec (.hifMrDoorbell r v o) s = .next (s0.setF (qReg q 0x20) 63 32 v)) ∧
      (∀ k v o, k < 3 → o.isDrd = true → s.heard o (hifReg (0x4000 + 0x40 * r + 8 * k)) = true → s.rb (qReg q 0) 63 = false →
        (k = 0 → bit v 63 = true → 4 ≤ fld v 44 40 ∧ fld v 44 40 ≤ 12) →
        let off := hifReg (0x4000 + 0x40 * r + 8 * k); let n := keepBits v (if k = 0 then maskBits 63 40 else maskBits 47 6)
        let s1 := (s.noted o off v).putAt off n
        exec (.hifMrCfgWrite r k v o) s = .next
          ((if k = 0 ∧ bit n 63 = true then (s1.putAt (qReg q 0x20) 0).putAt (qReg q 0x28) 0 else s1).closeRing r)) ∧
      (∀ ext bytes, s.rb (qReg q 0) 63 = true → cons ≠ s.rf (qReg q 0x20) 63 32 →
        (s.rf (qReg q 0x28) 63 32 + (s.cq q).owed.length + 2 ^ 32 - s.rf (qReg q 0x28) 31 0) % 2 ^ 32 < s.qSize q →
        (vaRead (s.queueView q 7) 0 (s.rf (qReg q 0x10) 47 6 * 64 + 128 * (cons % s.qSize q)) 128 ext).gives s (.ok bytes) s1 →
        let u := s1.setF (qReg q 0x20) 31 0 (cons + 1); let u := u.setCq q { u.cq q with owed := (u.cq q).owed ++ [(cons, none)] }
        let j : MedJob := { ring := r, idx := cons, bytes := bytes, t0 := s.time, res := none }
        s.medThere (s.rf (qReg q 0) 53 53) = true → 0x70 ≤ j.type → j.type ≤ 0x73 →
        exec (.mediaJobFetch r ext) s = .next { u with jobs := u.jobs ++ [j] }) := by
  intro s s1 r hr q cons
  refine ⟨?doorbell, ?config, ?fetch⟩
  case doorbell =>
    intro v o off heard mine small s0 pi n on ahead room
    refine run'_of_go_ok (u := ()) ((go_bind_ok (go_get _) _).trans ?_)
    dsimp only
    rw [if_pos hr]
    refine (regWrite_heard heard mine _).trans ?_
    have whole : v % 2 ^ 32 = v := Nat.mod_eq_of_lt small
    simp only [whole]
    refine (go_bind_ok (shadowed_gives off v) _).trans ((go_bind_ok (go_get _) _).trans ?_)
    have counts : ¬ (!bit (s.rn (qReg (ringQ r) 0)) 63 || decide (2 ^ 31 ≤ (v + 2 ^ 32 - pi) % 2 ^ 32)) = true := by
      rw [show bit (s.rn (qReg (ringQ r) 0)) 63 = true from on, decide_eq_false (Nat.not_le.2 ahead)]
      exact Bool.false_ne_true
    rw [if_neg counts, if_neg (Nat.not_lt.2 room)]
    exact go_upd _ _
  case config =>
    intro k v o hk drd heard off legal o' n s1
    have disabled : ¬ bit (s.rn (qReg (ringQ r) 0)) 63 = true := Bool.eq_false_iff.1 off
    have mask : (if k = 0 then keepBits v (maskBits 63 40) else keepBits v (maskBits 47 6)) = n := by
      split <;> rename_i zero
      · exact congrArg (keepBits v) (if_pos zero).symm
      · exact congrArg (keepBits v) (if_neg zero).symm
    have ok : (k != 0 || !bit n 63 || (decide (4 ≤ fld n 44 40) && decide (fld n 44 40 ≤ 12))) = true := by
      by_cases zero : k = 0
      · have first : n = keepBits v (maskBits 63 40) := congrArg (keepBits v) (if_pos zero)
        rw [first, bit_keepBits (by decide) (by decide), fld_keepBits (by decide) (by decide)]
        cases on : bit v 63
        · simp
        · simp [legal zero on]
      · rw [bne_iff_ne.2 zero]
        rfl
    refine run'_of_go_ok (u := ()) ((go_bind_ok (go_get _) _).trans ?_)
    dsimp only
    rw [if_pos ⟨hr, hk⟩, mask]
    refine (regWrite_heard heard ?_ _).trans ((go_bind_ok (go_upd _ _) _).trans ?_)
    · rw [if_neg disabled, drd]
      exact ok
    · by_cases zero : k = 0 ∧ bit n 63 = true
      · rw [if_pos (by rw [decide_eq_true zero.1, zero.2]; rfl), if_pos zero]
        exact (go_bind_ok (go_upd _ _) _).trans ((go_bind_ok (go_upd _ _) _).trans (go_upd _ _))
      · rw [if_neg (by simpa using zero), if_neg zero]
        exact go_upd _ _
  case fetch =>
    intro ext bytes on ready room read u u' j there least most
    have goesOn : ¬ (!(decide (r < 32) && s.rb (qReg q 0) 63) || cons == s.rf (qReg q 0x20) 63 32 || decide (s.qSize q ≤
        (s.rf (qReg q 0x28) 63 32 + (s.cq q).owed.length + 2 ^ 32 - s.rf (qReg q 0x28) 31 0) % 2 ^ 32)) = true := by
      rw [decide_eq_true hr, on, beq_eq_false_iff_ne.2 ready, decide_eq_false (Nat.not_le.2 room)]
      exact Bool.false_ne_true
    refine run'_of_go_ok (u := ()) ((go_bind_ok (go_get _) _).trans ?_)
    dsimp only
    rw [if_neg goesOn]
    refine (go_bind_ok read _).trans ?_
    dsimp only
    refine (go_bind_ok (go_upd _ _) _).trans ((go_bind_ok (go_upd _ _) _).trans ?_)
    have known : ¬ (j.type < 0x70 ∨ 0x73 < j.type) := by omega
    rw [there, if_neg (by decide), if_neg known]
    exact go_upd _ _

/-- A session is opened and closed when its job has its turn (R591 to R594). -/
theorem mediaSession_opens_closes :
    ∀ (s : State) (r i : Nat) (j : MedJob), s.medWaits j = false →
      let done := fun (res : MedRes) (s : State) =>
        { s with jobs := s.jobs.map fun k => if k.ring = r ∧ k.idx = i then { k with res := some res } else k }
      let turn := fun ty => s.jobs.find? fun j => j.ring == r && j.idx == i && j.res.isNone && j.type == ty
      (turn 0x70 = some j →
        let d := s.rf (qReg (ringQ r) 0) 53 53; let enc := j.f 0x19 1 == 1
        let rate := if j.f 0x40 1 = 2 then j.f 0x54 4 else j.f 0x48 4
        ((!enc || s.lic 4) = true → medOpenOk j = true → medSupported j = true →
          (s.sessions.filter fun x => x.die == d).length < 64 → medStore j ≤ j.f 0x38 8 → j.f 0x1D 1 ≠ 0 →
          ∀ e, s.medEngines d enc = [e] → exec (.medOpen r i) s =
            .next (done { MedRes.zero with detail := s.nextId % 2 ^ 32 } { s with nextId := s.nextId + 1, sessions := s.sessions ++ [
              { num := s.nextId % 2 ^ 32, ring := r, die := d, eng := e, desc := j.bytes, failed := false, shown := 0, ready := [], coded := 0
                full := min (rate * j.f 0x50 4) (1000 * j.f 0x4C 4) * j.f 0x24 4, seq := 0, fall := none }] })) ∧
        ((enc && !s.lic 4) = true → exec (.medOpen r i) s = .next (done { MedRes.zero with status := 0x10 } s))) ∧
      (turn 0x73 = some j → (j.hdrOk 0 && j.zero 0x18 104) = true →
        (∀ x, s.session j.num = some x → x.ring = j.ring → exec (.medClose r i) s =
          .next (done MedRes.zero { s with sessions := s.sessions.filter fun y => y.num != x.num })) ∧
        (s.session j.num = none → exec (.medClose r i) s = .next (done { MedRes.zero with status := 0xD02 } s))) := by
  intro s r i j first done turn
  refine ⟨fun mine => ?opens, fun mine format => ?closes⟩
  case opens =>
    intro d enc rate
    refine ⟨fun licensed fine supported few store cls e engine => ?_, fun unlicensed => ?_⟩
    · refine run'_of_go_ok (medJob_ok mine first ?_ rfl)
      refine (go_bind_ok (go_get _) _).trans ?_
      refine (go_bind_ok (must_true licensed _ _) _).trans ((go_bind_ok (must_true fine _ _) _).trans ?_)
      refine (go_bind_ok (must_true supported _ _) _).trans ((go_bind_ok (must_true (decide_eq_true few) _ _) _).trans ?_)
      refine (go_bind_ok (must_true (decide_eq_true store) _ _) _).trans ?_
      dsimp only
      rw [engine]
      dsimp only
      refine (go_bind_ok (must_true (by rw [bne_iff_ne.2 cls]; rfl) _ _) _).trans ?_
      exact go_bind_ok (go_upd _ _) _
    · refine run'_of_go_ok (medJob_code (d := 0) mine first ?_ (by decide))
      refine (go_bind_ok (go_get _) _).trans ?_
      obtain ⟨encodes, unlicensed⟩ := Bool.and_eq_true_iff.1 unlicensed
      exact go_bind_error (must_false (Bool.or_eq_false_iff.2 ⟨congrArg not encodes, by simpa using unlicensed⟩) _ _) _
  case closes =>
    refine ⟨fun x open' own => ?_, fun closed => ?_⟩
    · refine run'_of_go_ok (medJob_ok mine first ?_ rfl)
      refine (go_bind_ok (must_true format _ _) _).trans ?_
      refine (go_bind_ok (medSession_ok open' own rfl) _).trans ?_
      exact go_bind_ok (go_upd _ _) _
    · refine run'_of_go_ok (medJob_code (d := 0) mine first ?_ (by decide))
      refine (go_bind_ok (must_true format _ _) _).trans ?_
      refine go_bind_error ?_ _
      unfold medSession
      refine (go_bind_ok (go_get _) _).trans ?_
      rw [closed]
      exact go_refuse ..

/-- A job of a live session decodes or encodes (R594 to R609). -/
theorem mediaJob_codes :
    ∀ (s s1 s2 s3 : State) (r i : Nat) (j : MedJob) (x : Sess), s.medWaits j = false → s.session j.num = some x → x.ring = j.ring →
      x.failed = false →
      let done := fun (res : MedRes) (s : State) =>
        { s with jobs := s.jobs.map fun k => if k.ring = r ∧ k.idx = i then { k with res := some res } else k }
      let turn := fun ty => s.jobs.find? fun j => j.ring == r && j.idx == i && j.res.isNone && j.type == ty
      (turn 0x71 = some j → medDecodeOk j = true → x.f 0x19 1 = 0 → ∀ us tail bs pix pr data,
        let room := j.f 0x38 4; let step := j.f 0x29 1
        let w0 : MedWork := { units := 0, bytes := 0, out := [], ready := x.ready, shown := x.shown, conceal := 0, resync := 0, samples := 0 }
        let w1 := medUnits j (w0.drain step room) us
        let w := if j.f 1 1 = 1 ∧ w1.out.length < room then { w1 with ready := w1.ready ++ tail }.drain step room else w1
        let used := min w.bytes (j.f 0x20 4); let d := tdOf (BitVec.ofNat 512 (leNat pr))
        (medRead x (j.f 0x30 8) 64 pix).gives s pr s1 → (medRead x (j.f 0x18 8) used bs).gives s1 data s2 →
        (j.f 0x28 1 = 1 → medTdOk d (3 * room) = true ∧ ∀ g ∈ w.out, medOutSize j g = (d.cols, d.rows)) →
        let u := (((s2.setSession { x with shown := w.shown, ready := w.ready }).count (medReg x.die 8) w.conceal).count
          (medReg x.die 0x10) w.resync).perf (medReg x.die 0x100) w.samples
        (forAll w.out.zipIdx fun p => do
          if j.f 0x28 1 = 0 then medPlanes x j pr p.1 p.2
          else forAll [0, 1, 2] fun c => medChannel x j d p.1 c (3 * p.2 + c)
          medWrite x (j.f 0x40 8 + 16 * p.2) (medInfo p.1)).gives u () s3 →
        exec (.medDecode r i us tail bs pix) s = .next (done { MedRes.zero with
          flags := b2n (decide (0 < w.conceal)) + 2 * b2n (decide (0 < w.resync)) + 64 * b2n (decide (room ≤ w.out.length))
          units := w.units, frames := w.out.length, bytes := used, detail := used
          conc := (w.out.filter fun g => bit g.flags 0).length, first := (w.out.head?.map (·.order)).getD 0
          last := (w.out.getLast?.map (·.order)).getD 0 } s3)) ∧
      (turn 0x72 = some j → medEncodeOk j = true → x.f 0x19 1 = 1 → ∀ cs pr pix cons st,
        j.f 0x22 2 ≤ x.f 0x20 2 → j.f 0x24 2 ≤ x.f 0x22 2 → medSlices x j = false →
        (medInput x j pr pix).gives s () s1 →
        (medFrames j 0 { at_ := 0, x := x, flags := 0, status := 0, samples := 0 } cs).gives s1 st s2 →
        s3 = (s2.setSession st.x).perf (medReg x.die 0x108) st.samples → st.status = 0 →
        exec (.medEncode r i cs pr pix cons) s = .next (done { MedRes.zero with
            flags := st.flags, frames := cs.length, bytes := st.at_, detail := st.at_, first := (cs.head?.map (·.order)).getD 0
            last := (cs.getLast?.map (·.order)).getD 0, full := st.x.full / max 1 (x.f 0x24 4) } s3)) := by
  intro s s1 s2 s3 r i j x first open' own alive done turn
  refine ⟨?decode, ?encode⟩
  case decode =>
    intro mine format decodes us tail bs pix pr data room step w0 w1 w used d record read tensor u written
    have whole : j.f 0x28 1 ≤ 1 := by
      simp only [medDecodeOk, Bool.and_eq_true, decide_eq_true_eq] at format
      omega
    have fits : (j.f 0x28 1 == 0 || (medTdOk d (3 * room) && w.out.all fun g => medOutSize j g == (d.cols, d.rows))) = true := by
      rcases Nat.le_one_iff_eq_zero_or_eq_one.1 whole with planes | tensors
      · rw [planes]
        rfl
      · obtain ⟨dims, sizes⟩ := tensor tensors
        rw [dims, List.all_eq_true.2 fun g hg => beq_iff_eq.2 (sizes g hg), Bool.and_true, Bool.or_true]
    refine run'_of_go_ok (medJob_ok mine first ?_ rfl)
    refine (go_bind_ok (must_true format _ _) _).trans ?_
    refine (go_bind_ok (medSession_ok (dir := some 0) open' own (Bool.and_eq_true_iff.2 ⟨beq_iff_eq.2 decodes, congrArg not alive⟩)) _).trans ?_
    refine (go_bind_ok record _).trans ((go_bind_ok (must_true fits _ _) _).trans ((go_bind_ok read _).trans ?_))
    refine (go_bind_ok (go_upd _ _) _).trans ((go_bind_ok (go_upd _ _) _).trans ((go_bind_ok (go_upd _ _) _).trans ?_))
    exact (go_bind_ok written _).trans (go_pure _ _)
  case encode =>
    intro mine format encodes cs pr pix cons st width height whole input coded counted fine
    obtain ⟨at', x', flags, status, samples⟩ := st
    obtain rfl : status = 0 := fine
    refine run'_of_go_ok (medJob_ok mine first ?_ rfl)
    refine (go_bind_ok (must_true format _ _) _).trans ?_
    refine (go_bind_ok (medSession_ok (dir := some 1) open' own (Bool.and_eq_true_iff.2 ⟨beq_iff_eq.2 encodes, congrArg not alive⟩)) _).trans ?_
    refine (go_bind_ok (must_true (Bool.and_eq_true_iff.2 ⟨decide_eq_true width, decide_eq_true height⟩) _ _) _).trans ?_
    refine (go_bind_ok input _).trans ?_
    rw [if_neg (Bool.eq_false_iff.1 whole)]
    refine (go_bind_ok (go_pure _ _) _).trans ((go_bind_ok coded _).trans ((go_bind_ok (go_upd _ _) _).trans ?_))
    rw [counted]
    exact go_pure _ _

/-- A job that has run completes, a slice entry goes into its ring, and an engine fails (R612, R616 to R618). -/
theorem mediaJob_ends :
    ∀ (s s1 s2 : State),
      (∀ r i j m, s.jobs.find? (fun j => j.ring == r && j.idx == i) = some j → j.res = some m → (∀ x ∈ s.sessions, x.fall = none) →
        j.f 0x10 8 % 64 = 0 →
        (vaWrite { s.queueView (ringQ r) 7 with who := .media j.num } 0 (j.f 0x10 8) (m.record s.time)).gives s (.ok ()) s1 →
        (complete (ringQ r) i (recordBytes i m.status j.type 0xFF (j.f 8 8) m.flags m.detail s.time)).gives
          { s1 with jobs := s1.jobs.filter fun k => !(k.ring == r && k.idx == i) } () s2 →
        exec (.medJobComplete r i) s = .next (s2.closeRing r)) ∧
      (∀ num x idx e j c cons y, s.session num = some x → x.fall = some (idx, e) →
        s.jobs.find? (fun j => j.ring == x.ring && j.idx == idx) = some j → (medRead x (j.f 0x38 8) 4 cons).gives s c s1 →
        (putSlice x j (leNat c) e).gives s1 (y, true) s2 →
        exec (.sliceFallbackEntry num cons) s = .next (s2.setSession { y with fall := none })) ∧
      (∀ d e, d < 2 → e < 3 → s.medThere d = true →
        let u := { s.defect 8 (4 * d + e) 0 1 with medDead := Nat.lor (Nat.lor s.medDead (2 ^ (4 * d + e))) (2 ^ (4 * d + 3)) }
        let hit := s.sessions.filter fun x => x.die == d && x.eng == e
        let u1 := hit.foldl (fun s x => s.failSession x.num) u
        let u2 := { u1 with jobs := u1.jobs.map fun (j : MedJob) =>
          if j.res.isNone ∧ j.type ≠ 0x70 ∧ hit.any (fun x => x.ring == j.ring && x.num == j.num) then
            { j with res := some { MedRes.zero with status := 0xD0B } } else j }
        exec (.medEngineFault d e false) s = .next (u2.logRec 6 Origin.drd 0 (medReg d 0) (4 * d + e)).capChange.reservice) := by
  refine fun s s1 s2 => ⟨?complete, ?slice, ?engine⟩
  case complete =>
    intro r i j m job done quiet aligned written ended
    have none (x : Sess) (hx : x ∈ s.sessions) : (x.ring == r && x.fall.any fun e => e.1 == i) = false := by
      rw [quiet x hx, Option.any_none, Bool.and_false]
    refine run'_of_go_ok (u := ()) ((go_bind_ok (go_get _) _).trans ?_)
    rw [job]
    dsimp only
    rw [done]
    dsimp only
    refine (go_bind_ok (go_get _) _).trans ?_
    rw [if_neg (not_any none)]
    have kept : s.sessions.map (fun x => if (x.ring == r && x.fall.any fun e => e.1 == i) = true then { x with fall := Option.none } else x) = s.sessions :=
      (List.map_congr_left (g := id) fun x hx => if_neg (Bool.eq_false_iff.1 (none x hx))).trans (List.map_id _)
    refine (go_bind_ok ((go_upd _ _).trans (congrArg (Prod.mk _) (State.withSessions_same kept))) _).trans ?_
    rw [if_pos aligned]
    refine (go_bind_ok written _).trans ?_
    dsimp only
    refine (go_bind_ok (go_pure _ _) _).trans ((go_bind_ok (go_upd _ _) _).trans ((go_bind_ok ended _).trans ?_))
    exact go_upd _ _
  case slice =>
    intro num x idx e j c cons y open' waits job read put
    refine run'_of_go_ok (u := ()) ((go_bind_ok (go_get _) _).trans ?_)
    rw [open']
    dsimp only
    rw [waits]
    dsimp only
    refine (go_bind_ok (go_get _) _).trans ?_
    rw [job]
    dsimp only
    refine (go_bind_ok (attempt_ok ((go_bind_ok read _).trans put)) _).trans ?_
    exact go_upd _ _
  case engine =>
    intro d e hd he there u hit u1 u2
    have goesOn : ¬ (2 ≤ d ∨ 3 ≤ e ∨ (!s.medThere d) = true) := fun h => h.elim (by omega) fun h => h.elim (by omega) fun h => by
      rw [there] at h
      exact Bool.false_ne_true h
    have sessions : u.sessions = s.sessions := State.defect_sessions ..
    have same : (u.sessions.filter fun x => x.die == d && [e].contains x.eng) = hit := by
      rw [sessions]
      refine List.filter_congr fun x _ => ?_
      rw [List.contains_cons, List.contains_nil, Bool.or_false]
    have ran : exec (.medEngineFault d e false) s =
        .next ((u.engineLost (u.sessions.filter fun x => x.die == d && [e].contains x.eng)).logRec 6 Origin.drd 0 (medReg d 0) (4 * d + e)).capChange.reservice :=
      congrArg Host.Outcome.next (if_neg goesOn)
    rw [ran, same]
    rfl

/-- Settles O52: each job runs in its turn, and each register of a ring takes the write that its rule allows. -/
theorem media : Obligations.Media := ⟨mediaRing_serves, mediaSession_opens_closes, mediaJob_codes, mediaJob_ends⟩

end Sys2Proof.Machine
end

section
/-! SUPPORT. The operations of the flash unit. -/

namespace Sys2Proof.Machine

section
variable {s : State} {len : Nat}

/-- The end of an operation that runs (R632). -/
theorem fwOpComplete_ends {op : Nat} {r : State × Nat} (running : s.fw.busy = some (op, len)) (done : s.fwOp op len true = r) :
    exec (.fwOpComplete true) s = .next { r.1 with fw := { r.1.fw with busy := none, code := r.2 } } := by
  refine congrArg Host.Outcome.next ?_
  rw [running]
  dsimp only
  rw [done]

theorem fwOp_begin : s.fwOp 1 len true =
    if s.fw.staging.isSome then (s, 0x0E01)
    else if len = 0 ∨ 31457280 < len then (s, 0x0E05)
    else
      let (_, _, active, next, bootno) := s.flashHdr
      let s := if next = 0xFF then s else s.putHdr active 0xFF bootno
      ({ s with fw := { s.fw with staging := some len, got := 0, pend := false } }, 0) := rfl

theorem fwOp_chunk : s.fwOp 2 len true =
    match s.fw.staging with
    | none => (s, 0x0E05)
    | some total =>
      if len = 0 ∨ 65536 < len ∨ total < s.fw.got + len then (s, 0x0E05)
      else
        let s := s.flWrite (bankBase s.stagedBank + s.fw.got) (s.fwWin len)
        ({ s with fw := { s.fw with got := s.fw.got + len } }, 0) := by
  unfold State.fwOp
  cases s.fw.staging <;> rfl

theorem fwOp_commit_short (short : s.fw.staging ≠ some s.fw.got) : s.fwOp 3 len true = ({ s with fw := { s.fw with staging := none } }, 0x0E05) := by
  unfold State.fwOp
  rw [if_neg (by decide), if_neg (by decide), if_pos rfl, if_pos short]

theorem fwOp_commit_sound (whole : s.fw.staging = some s.fw.got) (sound : s.bankFault s.stagedBank = none) {k seq active next bootno : Nat}
    (hdr : s.flashHdr = (k, seq, active, next, bootno)) : s.fwOp 3 len true =
      let u := s.putHdr active s.stagedBank bootno
      ({ u with fw := { u.fw with staging := none, pend := true } }, 0) := by
  unfold State.fwOp
  rw [if_neg (by decide), if_neg (by decide), if_pos rfl, if_neg (not_not.2 whole), sound]
  dsimp only
  rw [if_neg (by decide), hdr]

theorem fwOp_abort : s.fwOp 4 len true = ({ s with fw := { s.fw with staging := none } }, if s.fw.staging.isSome then 0x0E06 else 0) := rfl

theorem fwOp_licence : s.fwOp 5 len true =
    if s.fw.staging.isSome then (s, 0x0E01)
    else if !s.licOk (s.fwWin 128) then (s, 0x0E07)
    else match s.addLicence (s.fwWin 128) with
      | none => (s, 0x0E08)
      | some s' => (s', 0) := rfl

theorem fwOp_clear : s.fwOp 6 len true =
    if s.fw.staging.isSome then (s, 0x0E01)
    else match s.defects[len]? with
      | none => (s, 0x0E09)
      | some d =>
        if d.kind ≠ 5 ∧ d.kind ≠ 6 then (s, 0x0E09)
        else ({ s with defects := s.defects.set len { d with st := 2 }, defPrev := s.defects, defSeq := (s.defSeq + 1) % 2 ^ 32 }, 0) := rfl

/-- An operation of the flash unit starts when none runs, and is recorded. -/
theorem fwStart_idle {o : Origin} (heard : s.heard o 0x10010 = true) (may : (originPf0 o || o.cls == 4) = true) (idle : s.fw.busy = none) (op : Nat) :
    let v := op <<< 60 + len % 2 ^ 32; let s1 := (s.noted o 0x10010 v).shadowing 0x10010 v
    (fwStart op len o).gives s () { s1 with fw := { s1.fw with busy := some (op, len % 2 ^ 32) } } := by
  intro v s1
  unfold fwStart
  refine (go_bind_ok (go_get _) _).trans ?_
  dsimp only
  refine (regWrite_heard heard (by rw [may, idle]; rfl) _).trans ?_
  exact (go_bind_ok (shadowed_gives _ _) _).trans (go_upd _ _)

end

/-- Settles O54: each operation by what its rule asks. -/
theorem flashUnit : Obligations.FlashUnit := by
  refine ⟨fun s len o heard may idle op i known => ?starts, fun s len => ?ends⟩
  case starts =>
    intro v s1
    simp only [List.mem_cons, List.not_mem_nil, or_false, Prod.mk.injEq] at known
    obtain ⟨rfl, rfl⟩ | ⟨rfl, rfl⟩ | ⟨rfl, rfl⟩ | ⟨rfl, rfl⟩ | ⟨rfl, rfl⟩ | ⟨rfl, rfl⟩ | ⟨rfl, rfl⟩ := known <;>
      exact run'_of_go_ok (fwStart_idle heard may idle _)
  case ends =>
    rcases hdr : s.flashHdr with ⟨k, seq, active, next, bootno⟩
    intro ends closed
    dsimp only
    refine ⟨fun none => ?idle, fun total staged => ?staging, fun running => ?read, fun idle ok => ?nothing⟩
    case idle =>
      refine ⟨?begin, fun empty running => ?empty, fun running => ?chunk, fun running => ?abort, fun u fine added running => ?licence,
        fun bad running => ?badLicence, fun d found kind running => ?clear, fun absent running => ?absent⟩
      all_goals have closed' : ¬ s.fw.staging.isSome = true := by rw [none]; exact Bool.false_ne_true
      case begin =>
        intro least most running
        refine fwOpComplete_ends running (fwOp_begin.trans ?_)
        rw [if_neg closed', if_neg (by omega), hdr]
      case empty =>
        refine fwOpComplete_ends running (fwOp_begin.trans ?_)
        rw [if_neg closed', if_pos (.inl empty)]
      case chunk =>
        refine fwOpComplete_ends running (fwOp_chunk.trans ?_)
        rw [none]
      case abort =>
        refine fwOpComplete_ends running (fwOp_abort.trans ?_)
        rw [if_neg closed']
      case licence =>
        refine fwOpComplete_ends running (fwOp_licence.trans ?_)
        rw [if_neg closed', fine, if_neg (by decide), added]
      case badLicence =>
        refine fwOpComplete_ends running (fwOp_licence.trans ?_)
        rw [if_neg closed', bad, if_pos (by decide)]
      case clear =>
        have defects : ¬ (d.kind ≠ 5 ∧ d.kind ≠ 6) := by omega
        refine fwOpComplete_ends running (fwOp_clear.trans ?_)
        rw [if_neg closed', found]
        dsimp only
        rw [if_neg defects]
      case absent =>
        refine fwOpComplete_ends running (fwOp_clear.trans ?_)
        rw [if_neg closed', absent]
    case staging =>
      have open' : s.fw.staging.isSome = true := by rw [staged]; rfl
      refine ⟨fun running => ?again, ?chunk, fun short running => ?short, ?commit, fun running => ?abort⟩
      case again =>
        refine fwOpComplete_ends running (fwOp_begin.trans ?_)
        rw [if_pos open']
      case chunk =>
        intro least most fits running
        refine fwOpComplete_ends running (fwOp_chunk.trans ?_)
        rw [staged]
        dsimp only
        rw [if_neg (by omega)]
      case short =>
        exact fwOpComplete_ends running (fwOp_commit_short fun whole => short (Option.some.inj (staged.symm.trans whole)).symm)
      case commit =>
        intro whole sound running
        exact fwOpComplete_ends running (fwOp_commit_sound (by rw [staged, whole]) sound hdr)
      case abort =>
        refine fwOpComplete_ends running (fwOp_abort.trans ?_)
        rw [if_pos open']
    case read => exact fwOpComplete_ends running rfl
    case nothing =>
      refine congrArg Host.Outcome.next ?_
      rw [idle]

end Sys2Proof.Machine
end

section
/-! SUPPORT. Partitions and sharing, losses of hardware, and the change log's registers. -/

namespace Sys2Proof.Machine

/-- Settles O55: each register of partition management takes the write that its rule allows, and SHARE stops at its first failing check. -/
theorem partitionsAndSharing : Obligations.PartitionsAndSharing := by
  refine ⟨fun s n v o manages => ⟨fun hn heard allowed => ?config, fun hn heard small apart kept => ?tiles, ?granule, rfl, fun heard small => ?release⟩,
    fun s v o heard manages => ?sharing⟩
  case config =>
    refine run'_of_go_ok (u := ()) ((go_bind_ok (go_get _) _).trans ?_)
    rw [if_pos hn]
    exact (regWrite_heard heard (Bool.and_eq_true_iff.2 ⟨manages, allowed⟩) _).trans (go_upd _ _)
  case tiles =>
    have whole : v % 2 ^ s.nTiles = v := Nat.mod_eq_of_lt small
    have ok : ((List.range 64).all fun t => if bit v t then (List.range 8).all fun m => m == n || !s.rb (partTiles m) t
        else !(s.rb (partTiles n) t && (List.range 4).any fun c => bit (ctxCfg (s.tile t) c) 63 || ((s.tile t).ctx c).kernels != [])) = true := by
      refine List.all_eq_true.2 fun t ht => ?_
      cases named : bit v t with
      | true =>
        rw [if_pos rfl]
        refine List.all_eq_true.2 fun m hm => ?_
        by_cases own : m = n
        · simp [own]
        · simp [apart t m (List.mem_range.1 ht) (List.mem_range.1 hm) named own]
      | false =>
        rw [if_neg Bool.false_ne_true, kept t (List.mem_range.1 ht) named]
        rfl
    refine run'_of_go_ok (u := ()) ((go_bind_ok (go_get _) _).trans ?_)
    dsimp only
    rw [if_pos hn, whole]
    exact (regWrite_heard heard (Bool.and_eq_true_iff.2 ⟨manages, ok⟩) _).trans (go_upd _ _)
  case granule =>
    intro board g hg off heard quiet enabled apart s1
    have idle : ((s.granFrames board g).any fun e => e.2.shared || e.2.state == 1) = false := List.any_eq_false.2 fun e he => by
      rw [(quiet e he).1, beq_eq_false_iff_ne.2 (quiet e he).2]
      exact Bool.false_ne_true
    refine run'_of_go_ok (u := ()) ((go_bind_ok (go_get _) _).trans ?_)
    dsimp only
    rw [if_pos hg]
    refine (regWrite_heard heard ?_ _).trans (go_upd _ _)
    rw [manages, idle, enabled, apart]
    rfl
  case release =>
    intro i e s1
    have whole : v % 2 ^ 32 = v := Nat.mod_eq_of_lt small
    refine ⟨fun part frozen => ?_, fun master frozen other => ?_⟩
    · refine run'_of_go_ok (u := ()) ((go_bind_ok (go_get _) _).trans ?_)
      dsimp only
      simp only [part, if_true, whole]
      refine (regWrite_heard heard (Bool.and_eq_true_iff.2 ⟨manages, frozen⟩) _).trans ?_
      exact (go_bind_ok (shadowed_gives _ _) _).trans ((go_bind_ok (go_upd _ _) _).trans (go_upd _ _))
    · refine run'_of_go_ok (u := ()) ((go_bind_ok (go_get _) _).trans ?_)
      dsimp only
      simp only [master, Bool.false_eq_true, if_false, whole]
      refine (regWrite_heard heard ?_ _).trans ?_
      · rw [manages, show s.rb (0x101000 + 8 * fld v 7 0) 63 = true from frozen, show (s.rf (0x101000 + 8 * fld v 7 0) 59 56 == 1) = false from
          beq_eq_false_iff_ne.2 other]
        rfl
      · exact (go_bind_ok (shadowed_gives _ _) _).trans ((go_bind_ok (go_upd _ _) _).trans (go_upd _ _))
  case sharing =>
    intro s1 fs
    refine ⟨fun owned enabled mirrored => ?share, fun f hf foreign => ?denied, ?unshare⟩
    case share =>
      have granted : (fs.any fun f => !s1.granted (fld v 18 16) (f * 65536)) = false := List.any_eq_false.2 fun f hf => by
        rw [owned f hf]
        exact Bool.false_ne_true
      have readers : ((List.range 8).any fun p => bit (fld v 15 8) p && !s1.rb (partCfg p) 63) = false := List.any_eq_false.2 fun p hp => by
        cases reads : bit (fld v 15 8) p
        · exact Bool.false_ne_true
        · rw [enabled p (List.mem_range.1 hp) reads]
          exact Bool.false_ne_true
      have copies : (fs.any fun f => !(s1.frame f).mirror || (s1.frame f).mstale != 0) = false := List.any_eq_false.2 fun f hf => by
        obtain ⟨mirror, stale, -⟩ := mirrored f hf
        rw [mirror, stale]
        exact Bool.false_ne_true
      have present : (fs.any fun f => (s1.frame f).state != 0) = false := List.any_eq_false.2 fun f hf => by
        obtain ⟨-, -, state⟩ := mirrored f hf
        rw [state]
        exact Bool.false_ne_true
      refine run'_of_go_ok (u := ()) ((regWrite_heard heard manages _).trans ((go_bind_ok (shadowed_gives _ _) _).trans
        ((go_upd _ _).trans (congrArg (Prod.mk _) ?_))))
      refine (if_neg (Bool.eq_false_iff.1 (Bool.or_eq_false_iff.2 ⟨granted, readers⟩))).trans ?_
      exact (if_neg (Bool.eq_false_iff.1 copies)).trans (if_neg (Bool.eq_false_iff.1 present))
    case denied =>
      have refused : (fs.any fun f => !s1.granted (fld v 18 16) (f * 65536)) = true := List.any_eq_true.2 ⟨f, hf, congrArg not foreign⟩
      refine run'_of_go_ok (u := ()) ((regWrite_heard heard manages _).trans ((go_bind_ok (shadowed_gives _ _) _).trans
        ((go_upd _ _).trans (congrArg (Prod.mk _) ?_))))
      exact if_pos (Bool.or_eq_true_iff.2 (.inl refused))
    case unshare =>
      intro mine s2
      refine run'_of_go_ok (u := ()) ((regWrite_heard heard manages _).trans ((go_bind_ok (shadowed_gives _ _) _).trans ?_))
      exact go_upd _ _

/-! ### Losses -/

/-- A tile's fused site follows from the fuses alone. -/
theorem State.fusedSite_congr {s s' : State} (same : s'.fuses = s.fuses) (t : Nat) : s'.fusedSite t = s.fusedSite t := by
  have fuse : s'.fuse = s.fuse := funext fun d => by rw [State.fuse, State.fuse, same]
  have slots : s'.dieSlots = s.dieSlots := funext fun d => by rw [State.dieSlots, State.dieSlots, fuse]
  have die : s'.dieOf t = s.dieOf t := by rw [State.dieOf, State.dieOf, slots]
  rw [State.fusedSite, State.fusedSite, die, fuse]

/-- Settles O56: each loss and each register write by the case that its premises name. -/
theorem lossesAndLog : Obligations.LossesAndLog := by
  refine ⟨fun s s1 => ⟨?channel, ?tile, ?takeover⟩, fun s v o manages => ⟨fun heard => ⟨fun known => ?ack, fun ahead => ?early⟩, fun heard off => ?config,
    fun off small => ?counter, fun t k ht hk => ?tileCounter⟩⟩
  case channel =>
    intro board k there u u' released
    refine run'_of_go_ok (u := ()) ((go_bind_ok (go_get _) _).trans ?_)
    rw [if_pos there]
    refine (go_bind_ok (go_upd _ _) _).trans ((go_bind_ok (go_upd _ _) _).trans ((go_bind_ok (go_upd _ _) _).trans ?_))
    exact (go_bind_ok (go_upd _ _) _).trans released
  case tile =>
    intro t lost up idle old d retire u
    have none : s.launches.find? (fun l => l.phase == 1 && bit l.mask t) = Option.none := by rw [idle]; rfl
    refine ⟨fun spare ok => ?_, fun k spare other => ?_⟩
    · intro u'
      refine run'_of_go_ok (u := ()) ((go_bind_ok (go_get _) _).trans ?_)
      rw [if_pos up]
      refine (go_bind_ok (go_upd _ _) _).trans ?_
      dsimp only
      split
      · next found => cases found.symm.trans spare
      · refine (go_bind_ok (go_upd _ _) _).trans ?_
        split
        · next found =>
          split at found
          · cases found.symm.trans spare
          · cases found
        · exact go_upd _ _
    · intro u'
      refine run'_of_go_ok (u := ()) ((go_bind_ok (go_get _) _).trans ?_)
      rw [if_pos up]
      refine (go_bind_ok (go_upd _ _) _).trans ?_
      dsimp only
      split
      · next found =>
        rw [if_neg (by decide)]
        refine (go_bind_ok (go_upd _ _) _).trans ?_
        split
        · next found' =>
          cases ((if_pos rfl).symm.trans found').symm.trans spare
          split
          · next run => cases run.symm.trans none
          · refine (go_upd _ _).trans (congrArg (Prod.mk _) ?_)
            have fuses : u'.fuses = s.fuses := congrArg (fun z : Fused => z.2.2.1)
              ((State.defect_fused ..).trans (State.logRec_fused ..) : u'.fused = s.fused)
            have other' : ¬ k = u'.fusedSite t := fun same => other (same.trans (State.fusedSite_congr fuses t))
            rw [if_neg other']
        · next found' => cases ((if_pos rfl).symm.trans found').symm.trans spare
      · next found => exact absurd spare (found k)
  case takeover =>
    intro f hf standby u
    refine congrArg Host.Outcome.next ?_
    have goesOn : ¬ (!s.rb 0x10000 2 || (some f).any fun f => decide (2 ≤ f)) = true := by
      rw [standby, Option.any_some, decide_eq_false (Nat.not_le.2 hf)]
      exact Bool.false_ne_true
    rw [if_neg goesOn]
    rcases f with _ | _ | f
    · rfl
    · rfl
    · omega
  case ack =>
    refine run'_of_go_ok (u := ()) ((regWrite_heard heard ?_ _).trans (go_upd _ _))
    rw [manages, decide_eq_true known]
    rfl
  case early =>
    refine run'_of_go_ok (u := ()) (regWrite_discarded (reaches_of_heard heard) ?_ _)
    rw [decide_eq_false (Nat.not_le.2 ahead), Bool.and_false]
  case config =>
    intro new s1 tail
    refine run'_of_go_ok (u := ()) ((regWrite_heard heard ?_ _).trans (go_upd _ _))
    rw [manages, off]
    rfl
  case counter =>
    exact congrArg Host.Outcome.next (if_neg fun h => absurd small (Nat.not_lt.2 h.1))
  case tileCounter =>
    have tile : (0x1000000 + 0x40000 * t + k - 0x1000000) / 0x40000 = t := by omega
    have counter : (0x1000000 + 0x40000 * t + k) % 0x40000 = k := by omega
    refine congrArg Host.Outcome.next ((if_pos (by omega)).trans ?_)
    dsimp only
    rw [tile, counter]

end Sys2Proof.Machine
end

section
/-! SUPPORT. Power periods, ceilings and clocks, and temperatures. -/

namespace Sys2Proof.Machine

/-! ### The clocks -/

theorem State.dieOf_congr {s s' : State} (same : s'.fuses = s.fuses) (t : Nat) : s'.dieOf t = s.dieOf t := by
  have fuse : s'.fuse = s.fuse := funext fun d => by rw [State.fuse, State.fuse, same]
  have slots : s'.dieSlots = s.dieSlots := funext fun d => by rw [State.dieSlots, State.dieSlots, fuse]
  rw [State.dieOf, State.dieOf, slots]

theorem State.nTiles_congr {s s' : State} (same : s'.fuses = s.fuses) : s'.nTiles = s.nTiles := by
  have fuse : s'.fuse = s.fuse := funext fun d => by rw [State.fuse, State.fuse, same]
  have slots : s'.dieSlots = s.dieSlots := funext fun d => by rw [State.dieSlots, State.dieSlots, fuse]
  rw [State.nTiles, State.nTiles, slots]

/-- What a change of the clock registers leaves: everything but registers and what goes out. -/
structure State.SameDevice (s s' : State) : Prop where
  power : s'.power = s.power
  fuses : s'.fuses = s.fuses
  tiles : s'.tiles = s.tiles
  mem : s'.mem = s.mem
  wf : spWf regInit s.regs = true → spWf regInit s'.regs = true

namespace State.SameDevice

theorem refl (s : State) : s.SameDevice s := ⟨rfl, rfl, rfl, rfl, id⟩

theorem setReg {s s' : State} (h : s.SameDevice s') (off : Nat) (v : W64) : s.SameDevice (s'.setReg off v) :=
  ⟨h.power, h.fuses, h.tiles, h.mem, fun wf => State.spWf_setReg (h.wf wf) off v⟩

theorem emit {s s' : State} (h : s.SameDevice s') (o : Out) : s.SameDevice (s'.emit o) := ⟨h.power, h.fuses, h.tiles, h.mem, h.wf⟩

theorem ceilings {s s' : State} (h : s.SameDevice s') (t : Nat) : s'.ceilings t = s.ceilings t := by
  unfold State.ceilings
  rw [h.power, State.dieOf_congr h.fuses]

theorem eclk {s s' : State} (h : s.SameDevice s') (t : Nat) : s'.eclk t = s.eclk t := by rw [State.eclk, State.eclk, h.ceilings]

theorem eclkReg {s s' : State} (h : s.SameDevice s') (t : Nat) : s'.eclkReg t = s.eclkReg t := by
  rw [State.eclkReg, State.eclkReg, h.eclk, h.ceilings]

end State.SameDevice

/-- The clock registers of some tiles set to their ceilings. -/
def State.clocked (s : State) (ts : List Nat) : State :=
  ts.foldl (fun s t => s.setReg (0x30100 + 8 * t) (BitVec.ofNat 64 (s.eclkReg t))) s

theorem State.clocked_append (s : State) (ts : List Nat) (t : Nat) : s.clocked (ts ++ [t]) =
    (s.clocked ts).setReg (0x30100 + 8 * t) (BitVec.ofNat 64 ((s.clocked ts).eclkReg t)) := by
  rw [State.clocked, List.foldl_append]
  rfl

theorem State.sameDevice_clocked (s : State) (ts : List Nat) : s.SameDevice (s.clocked ts) :=
  List.foldlRecOn ts _ (motive := s.SameDevice) (.refl s) fun _ h _ _ => h.setReg ..

theorem State.reg_clocked {s : State} (wf : spWf regInit s.regs = true) {ts : List Nat} {t : Nat} (ht : t ∈ ts) :
    (s.clocked ts).reg (0x30100 + 8 * t) = BitVec.ofNat 64 (s.eclkReg t) := by
  induction ts using List.reverseRecOn with
  | nil => cases ht
  | append_singleton ts u ih =>
    have same := s.sameDevice_clocked ts
    rw [State.clocked_append, State.reg_setReg (same.wf wf)]
    by_cases last : t = u
    · rw [if_pos (by rw [last]), same.eclkReg, last]
    · rw [if_neg (by omega), ih (by simpa [last] using ht)]

/-- After a change of the ceilings every tile's register holds its clock. -/
theorem State.reclock_keeps (s : State) : s.SameDevice s.reclock ∧
    (spWf regInit s.regs = true → ∀ t, t < s.nTiles → s.reclock.reg (0x30100 + 8 * t) = BitVec.ofNat 64 (s.eclkReg t)) := by
  have same := s.sameDevice_clocked (List.range s.nTiles)
  have flags (u : State) (h : s.SameDevice u) (hi lo v : Nat) : s.SameDevice (u.setF 0x30008 hi lo v) := h.setReg ..
  unfold State.reclock
  dsimp only
  refine List.foldlRecOn (List.range 16) _ (motive := fun u => s.SameDevice u ∧ (spWf regInit s.regs = true → ∀ t, t < s.nTiles →
    u.reg (0x30100 + 8 * t) = BitVec.ofNat 64 (s.eclkReg t)))
    ⟨flags _ (flags _ (flags _ same _ _ _) _ _ _) _ _ _, fun wf t ht => ?_⟩ fun u ⟨hu, regs⟩ d _ => ?_
  · have wf1 := same.wf wf
    have other : 0x30100 + 8 * t ≠ 0x30008 := by omega
    exact (State.reg_setF_other (State.spWf_setF (State.spWf_setF wf1 ..) ..) other ..).trans
      ((State.reg_setF_other (State.spWf_setF wf1 ..) other ..).trans ((State.reg_setF_other wf1 other ..).trans
        (State.reg_clocked wf (List.mem_range.2 ht))))
  · split
    · exact ⟨hu, regs⟩
    · exact ⟨hu.emit _, regs⟩

/-- The least of a list below a bound. -/
theorem foldl_min_le (l : List Nat) (b : Nat) : l.foldl min b ≤ b ∧ ∀ c ∈ l, l.foldl min b ≤ c := by
  induction l generalizing b with
  | nil => exact ⟨le_rfl, nofun⟩
  | cons a l ih =>
    obtain ⟨bound, all⟩ := ih (min b a)
    refine ⟨bound.trans (Nat.min_le_left ..), fun c hc => ?_⟩
    rcases List.mem_cons.1 hc with rfl | hc
    · exact bound.trans (Nat.min_le_right ..)
    · exact all c hc

theorem State.eclk_le (s : State) (t : Nat) : s.eclk t ≤ 1500 ∧ ∀ c ∈ s.ceilings t, s.eclk t ≤ c := foldl_min_le ..

theorem State.fld_eclkReg (s : State) (t : Nat) : fld (BitVec.ofNat 64 (s.eclkReg t)).toNat 10 0 = s.eclk t := by
  have small := (s.eclk_le t).1
  rw [BitVec.toNat_ofNat, fld, State.eclkReg, Nat.shiftRight_zero, Nat.shiftLeft_eq]
  omega

theorem State.setPower_congr {s : State} {f g : Power → Power} (same : f s.power = g s.power) : s.setPower f = s.setPower g := by
  rw [State.setPower, State.setPower, same]

/-- A change of the power state sets the clocks and keeps the rest. -/
theorem State.setPower_keeps {s : State} (f : Power → Power) (wf : spWf regInit s.regs = true) :
    (∀ t, t < s.nTiles → (s.setPower f).rf (0x30100 + 8 * t) 10 0 = (s.setPower f).eclk t) ∧
      (∀ t, (s.setPower f).eclk t ≤ 1500 ∧ ∀ c ∈ (s.setPower f).ceilings t, (s.setPower f).eclk t ≤ c) ∧
      (s.setPower f).power = f s.power ∧ (s.setPower f).tiles = s.tiles ∧ (s.setPower f).mem = s.mem := by
  rw [State.setPower]
  generalize changed : ({ s with power := f s.power } : State) = u
  obtain ⟨same, regs⟩ := u.reclock_keeps
  have fuses : u.fuses = s.fuses := by rw [← changed]
  have kept : u.regs = s.regs := by rw [← changed]
  have power : u.power = f s.power := by rw [← changed]
  have tiles : u.tiles = s.tiles := by rw [← changed]
  have mem : u.mem = s.mem := by rw [← changed]
  refine ⟨fun t ht => ?_, u.reclock.eclk_le, same.power.trans power, same.tiles.trans tiles, same.mem.trans mem⟩
  rw [State.rf, State.rn, regs (kept ▸ wf) t (State.nTiles_congr fuses ▸ ht), same.eclk, State.fld_eclkReg]

/-! ### Periods -/

/-- The registers of a period. -/
def State.metered (s : State) (now sum n : Nat) : State :=
  let s := (s.setF 0x30008 15 0 (min now 65535)).setF 0x30008 47 32 (min (sum / n) 65535)
  s.setF 0x30008 31 16 (max (s.rf 0x30008 31 16) (min now 65535))

theorem State.power_setF (s : State) (off hi lo v : Nat) : (s.setF off hi lo v).power = s.power := rfl

theorem State.power_metered (s : State) (now sum n : Nat) : (s.metered now sum n).power = s.power := by
  unfold State.metered
  simp only [State.power_setF]

/-- What a period makes of the power state. -/
def Power.period (p : Power) (limitW : Nat) (nows : List Nat) : Power :=
  let sum := (nowSum nows).1
  let n := (nowSum nows).2
  let calm := if sum ≤ limitW * n then p.calm + 1 else 0
  let held := p.clamp != 0
  let f := nextFpwr p.fpwr limitW nows held
  if held = true ∧ 10 ≤ calm then { p with nows := nows, calm := calm, fpwr := min f p.clamp, clamp := 0 }
  else { p with nows := nows, calm := calm, fpwr := f }

/-- The clamp lifts in one condition, whichever way it is written. -/
theorem Power.period_eq (p : Power) (limitW : Nat) (nows : List Nat) :
    let sum := (nowSum nows).1
    let n := (nowSum nows).2
    let calm := if sum ≤ limitW * n then p.calm + 1 else 0
    let lift := p.clamp != 0 && decide (10 ≤ calm)
    let f := nextFpwr p.fpwr limitW nows (p.clamp != 0)
    p.period limitW nows =
      { p with nows := nows, calm := calm, fpwr := if lift then min f p.clamp else f, clamp := if lift then 0 else p.clamp } := by
  intro sum n calm lift f
  unfold Power.period
  by_cases held : p.clamp != 0 ∧ 10 ≤ calm
  · have lifts : lift = true := Bool.and_eq_true_iff.2 ⟨held.1, decide_eq_true held.2⟩
    rw [if_pos lifts, if_pos lifts]
    exact if_pos held
  · have stays : ¬ lift = true := fun h => held ⟨(Bool.and_eq_true_iff.1 h).1, of_decide_eq_true (Bool.and_eq_true_iff.1 h).2⟩
    rw [if_neg stays, if_neg stays]
    exact if_neg held

theorem State.setPower_period {m s : State} (same : m.power = s.power) (nows : List Nat) :
    let sum := (nowSum nows).1
    let n := (nowSum nows).2
    let calm := if sum ≤ s.limitW * n then s.power.calm + 1 else 0
    let lift := s.power.clamp != 0 && decide (10 ≤ calm)
    let f := nextFpwr s.power.fpwr s.limitW nows (s.power.clamp != 0)
    m.setPower (fun p => { p with
      nows := nows, calm := calm, fpwr := if lift then min f s.power.clamp else f, clamp := if lift then 0 else p.clamp }) =
      m.setPower fun p => p.period s.limitW nows :=
  State.setPower_congr (by rw [same, Power.period_eq])

theorem powerPeriod_sets (s : State) (now : Nat) :
    let nows := (now :: s.power.nows).take 10
    exec (.powerPeriodUpdate now) s =
      .next ((s.metered now (nowSum nows).1 (nowSum nows).2).setPower fun p => p.period s.limitW nows) := by
  intro nows
  exact congrArg Host.Outcome.next (State.setPower_period (s.power_metered now _ _) nows)

/-! ### The steps of a stack -/

/-- How many thresholds a temperature reaches. -/
def stepsPassed (temp : Nat) : Nat := (stepTemps.filter fun x => decide (x ≤ temp)).length

/-- The threshold of step `k`. -/
def stepEntry (k : Nat) : Nat := [0, 85, 95, 100, 105, 110].getD k 0

theorem stepsPassed_le (temp : Nat) : stepsPassed temp ≤ 5 := List.length_filter_le ..

theorem le_stepsPassed {k temp : Nat} (h1 : 1 ≤ k) (h5 : k ≤ 5) : k ≤ stepsPassed temp ↔ stepEntry k ≤ temp := by
  unfold stepsPassed stepTemps stepEntry
  simp only [List.filter_cons, List.filter_nil, decide_eq_true_eq]
  interval_cases k <;> (split_ifs <;> simp <;> omega)

theorem nextStep_of_le {step temp : Nat} (h : step ≤ stepsPassed temp) : nextStep step temp = stepsPassed temp := if_pos h

theorem nextStep_of_lt {step temp : Nat} (h : stepsPassed temp < step) (h5 : step ≤ 5) :
    nextStep step temp = if temp + 3 ≤ stepEntry step then stepsPassed temp else step := by
  obtain ⟨j, rfl⟩ : ∃ j, step = j + 1 := ⟨step - 1, by omega⟩
  refine (if_neg (Nat.not_le.2 h)).trans ?_
  rfl

/-- The steps of R341: entered at the threshold, left 3 °C below it. -/
theorem nextStep_rules {step temp : Nat} (hs : step ≤ 5) :
    nextStep step temp ≤ 5 ∧ (step < 5 → stepEntry (step + 1) ≤ temp → step < nextStep step temp) ∧
      (nextStep step temp < step ↔ temp + 3 ≤ stepEntry step ∧ step ≠ 0) ∧
      ∀ k, 1 ≤ k → k ≤ 5 → step < k → (k ≤ nextStep step temp ↔ stepEntry k ≤ temp) := by
  have most := stepsPassed_le temp
  rcases Nat.lt_or_ge (stepsPassed temp) step with below | reached
  · rw [nextStep_of_lt below hs]
    refine ⟨by split <;> omega, fun lt entered => ?_, ?_, fun k h1 h5 later => ?_⟩
    · exact absurd ((le_stepsPassed (by omega) (by omega)).2 entered) (by omega)
    · split
      next left => exact ⟨fun _ => ⟨left, by omega⟩, fun _ => below⟩
      next stays => exact ⟨fun h => absurd h (lt_irrefl _), fun h => absurd h.1 stays⟩
    · rw [← le_stepsPassed h1 h5]
      split <;> omega
  · rw [nextStep_of_le reached]
    refine ⟨most, fun lt entered => (le_stepsPassed (by omega) (by omega)).2 entered, ⟨fun h => absurd h (by omega), fun ⟨left, pos⟩ => ?_⟩,
      fun k h1 h5 _ => le_stepsPassed h1 h5⟩
    have := (le_stepsPassed (by omega) hs).1 reached
    omega

/-- A write of a heard register whose lock is set changes nothing but the log and the count of violations. -/
theorem lockWrite_locked {s : State} {o : Origin} {off v lockBit : Nat} (h : s.heard o off = true) {ok : Bool} (hok : ok = true)
    (locked : s.rb off lockBit = true) (viol : Nat) (eff : Bool → Dev Unit) :
    (lockWrite o off v lockBit viol ok eff).go s = (eff true).go ((s.logRec 3 o 0 off v).count viol 1) := by
  unfold lockWrite
  refine (go_bind_ok (go_get _) _).trans ?_
  rw [if_pos (reaches_of_heard h), hok, mute_of_heard h, Bool.not_true, Bool.or_false, if_neg Bool.false_ne_true, if_pos locked]
  exact (go_bind_ok (go_upd _ _) _).trans (go_bind_ok (go_upd _ _) _)

theorem alarmTemp_le (i : Nat) : alarmTemp i ≤ 110 := by
  unfold alarmTemp
  split <;> omega

section
variable {s : State} {site temp off step new : Nat}

/-- The register of a stack after a reading: the temperature, its step and the highest step. -/
def State.stackRead (s : State) (off temp new : Nat) : State :=
  ((s.setF off 23 16 temp).setF off 10 8 new).setF off 3 1 (max (s.rf off 3 1) new)

section
variable (fitted : s.fittedSites.contains site = true) (cold : s.pins.trip = false) (hoff : off = hubReg (site / 3) (0x200 + 8 * (site % 3)))
  (under : temp < 115) (hstep : step = s.rf off 10 8) (hnew : new = nextStep step temp)
include fitted cold hoff under hstep hnew

/-- A reading that does not enter step 4 from below only moves the step. -/
theorem stackTempRead_stays (stays : new ≤ step ∨ new < 4) :
    exec (.stackTempRead site temp) s = .next (s.stackRead off temp new).watchCool := by
  have fits : (!s.fittedSites.contains site || s.pins.trip) = false := by rw [fitted, cold]; rfl
  have whole : min temp 255 = temp := by omega
  have quiet (k : Nat) (hk : 4 ≤ k) : (decide (step < new) && decide (k ≤ new)) = false := by
    rw [Bool.and_eq_false_iff, decide_eq_false_iff_not, decide_eq_false_iff_not]
    omega
  refine congrArg Host.Outcome.next ?_
  rw [fits, if_neg Bool.false_ne_true, whole]
  dsimp only
  rw [← hoff, ← hstep, ← hnew]
  simp only [quiet 4 le_rfl, quiet 5 (by omega)]
  exact if_neg (by omega)

/-- A reading that enters step 5 starts protection; the interrupt of step 4 has been raised when it was entered. -/
theorem stackTempRead_last (rises : step < new) (last : new = 5) (known : s.rb off 0 = true) :
    exec (.stackTempRead site temp) s = .next ((s.stackRead off temp new).setF off 0 0 1).protect.watchCool := by
  have fits : (!s.fittedSites.contains site || s.pins.trip) = false := by rw [fitted, cold]; rfl
  have whole : min temp 255 = temp := by omega
  have enters (k : Nat) (hk : k ≤ 5) : (decide (step < new) && decide (k ≤ new)) = true :=
    Bool.and_eq_true_iff.2 ⟨decide_eq_true rises, decide_eq_true (by omega)⟩
  refine congrArg Host.Outcome.next ?_
  rw [fits, if_neg Bool.false_ne_true, whole]
  dsimp only
  rw [← hoff, ← hstep, ← hnew]
  simp only [enters 4 (by omega), enters 5 le_rfl, known]
  exact if_neg (by omega)

end

end

/-! ### The temperature of a die -/

section
variable {s : State} {i tj : Nat}

/-- The register of a die after a reading: its temperature, the highest one, and the mark of 100 °C. -/
def State.dieRead (s : State) (i tj : Nat) : State :=
  let off := 0x30400 + 8 * i
  ((s.setF off 23 16 tj).setF off 15 8 (max (s.rf off 15 8) tj)).setF off 1 1 (b2n (decide (100 ≤ tj)))

section
variable (logic : s.logicDie i = true) (cold : s.pins.trip = false)
include logic cold

theorem dieTempRead_below (below : tj < alarmTemp i) : exec (.dieTempRead i tj) s = .next (s.dieRead i tj).watchCool := by
  have fits : (!s.logicDie i || s.pins.trip) = false := by rw [logic, cold]; rfl
  have alarms := alarmTemp_le i
  have whole : min tj 255 = tj := by omega
  have quiet : decide (alarmTemp i ≤ tj) = false := decide_eq_false (by omega)
  refine congrArg Host.Outcome.next ?_
  rw [fits, if_neg Bool.false_ne_true, whole]
  dsimp only
  rw [quiet]
  exact if_neg (by omega)

theorem dieTempRead_alarm (reached : alarmTemp i ≤ tj) (under : tj < 125) (quiet : s.rb (0x30400 + 8 * i) 0 = false) :
    exec (.dieTempRead i tj) s = .next (((s.dieRead i tj).setF (0x30400 + 8 * i) 0 0 1).pfIrq 2).protect.watchCool := by
  have fits : (!s.logicDie i || s.pins.trip) = false := by rw [logic, cold]; rfl
  have whole : min tj 255 = tj := by omega
  have alarm : decide (alarmTemp i ≤ tj) = true := decide_eq_true reached
  refine congrArg Host.Outcome.next ?_
  rw [fits, if_neg Bool.false_ne_true, whole]
  dsimp only
  rw [alarm, quiet]
  exact if_neg (by omega)

theorem dieTempRead_hot (small : tj < 256) (hot : 125 ≤ tj) (known : s.rb (0x30400 + 8 * i) 0 = true) :
    exec (.dieTempRead i tj) s =
      .next (((s.dieRead i tj).setF (0x30400 + 8 * i) 0 0 1).protect.watchCool.thermTrip (0x30400 + 8 * i)) := by
  have fits : (!s.logicDie i || s.pins.trip) = false := by rw [logic, cold]; rfl
  have alarms := alarmTemp_le i
  have whole : min tj 255 = tj := by omega
  have alarm : decide (alarmTemp i ≤ tj) = true := decide_eq_true (by omega)
  refine congrArg Host.Outcome.next ?_
  rw [fits, if_neg Bool.false_ne_true, whole]
  dsimp only
  rw [alarm, known]
  exact if_pos hot

end

end

/-! ### The limits of power -/

/-- Whether a write of THM_PWR_CFG keeps its rules. -/
def pwrSound (o : Origin) (v : Nat) : Bool :=
  o.manages && decide (max 600 (min 2200 (fld v 15 0)) ≤ min 2420 (fld v 31 16)) && decide (400 ≤ fld v 47 32) &&
    decide (fld v 47 32 ≤ 1500) && fld v 47 32 % 25 == 0

theorem pwrSound_of {o : Origin} {v : Nat} (manages : o.manages = true)
    (fits : max 600 (min 2200 (fld v 15 0)) ≤ min 2420 (fld v 31 16)) (least : 400 ≤ fld v 47 32) (most : fld v 47 32 ≤ 1500)
    (whole : fld v 47 32 % 25 = 0) : pwrSound o v = true := by
  rw [pwrSound, manages, decide_eq_true fits, decide_eq_true least, decide_eq_true most, whole]
  rfl

section
variable {s : State} {o : Origin} {v : Nat} (heard : s.heard o 0x30000 = true) (sound : pwrSound o v = true)
include heard sound

theorem thmPwrWrite_unlocked (unlocked : s.rb 0x30000 63 = false) : exec (.thmPwrCfgWrite v o) s =
    .next ((s.noted o 0x30000 v).putAt 0x30000 (b2n (bit v 63) <<< 63 + fld v 47 32 <<< 32 + min 2420 (fld v 31 16) <<< 16 +
      max 600 (min 2200 (fld v 15 0)))) := by
  refine run'_of_go_ok (u := ()) (m := thmPwrWrite v o) ?_
  unfold thmPwrWrite
  exact (lockWrite_heard heard sound unlocked _ _).trans (go_upd _ _)

theorem thmPwrWrite_locked (locked : s.rb 0x30000 63 = true) : exec (.thmPwrCfgWrite v o) s =
    .next ((s.logRec 3 o 0 0x30000 v).count 0x30FF8 1) := by
  refine run'_of_go_ok (u := ()) (m := thmPwrWrite v o) ?_
  unfold thmPwrWrite
  exact (lockWrite_locked heard sound locked _ _).trans (go_pure _ _)

end

/-- Settles O58: each reading and each write by the case that its premises name. -/
theorem powerAndTemperature : Obligations.PowerAndTemperature := by
  refine ⟨fun s now us samples => ⟨?period, ?clamp, ?noClamp, ?brake, ?brakeEnd, rfl⟩,
    fun s i tj cold small => ⟨?die, ?stack, ?ceiling, ?protection⟩,
    fun s v o => ⟨?config, ?alert, ?noAlert, ?pulse⟩, fun step temp hs => ?steps, fun s f wf => ?clocks⟩
  case period =>
    intro nows
    exact powerPeriod_sets s now
  case clamp => exact fun four all => congrArg Host.Outcome.next (if_pos ⟨four, List.all_eq_true.2 fun x hx => decide_eq_true (all x hx)⟩)
  case noClamp =>
    rintro ⟨x, hx, low⟩
    exact congrArg Host.Outcome.next (if_neg fun h => absurd (of_decide_eq_true (List.all_eq_true.1 h.2 x hx)) (Nat.not_lt.2 low))
  case brake => exact fun long => congrArg Host.Outcome.next (if_pos long)
  case brakeEnd => exact fun long braked => congrArg Host.Outcome.next (if_pos ⟨long, braked⟩)
  case die =>
    intro logic off s1
    exact ⟨dieTempRead_below logic cold, dieTempRead_alarm logic cold, dieTempRead_hot logic cold small⟩
  case stack =>
    intro fitted off old new s1
    exact ⟨fun stays under => stackTempRead_stays fitted cold rfl under rfl rfl stays,
      fun rises last under known => stackTempRead_last fitted cold rfl under rfl rfl rises last known⟩
  case ceiling =>
    intro hi c now f
    exact congrArg Host.Outcome.next (if_neg (Nat.not_le.2 hi))
  case protection =>
    intro since cool on
    refine ⟨fun late => ?_, fun early => ?_⟩
    · refine congrArg Host.Outcome.next ?_
      rw [cool]
      exact if_pos ⟨on, late⟩
    · refine congrArg Host.Outcome.next ?_
      rw [cool]
      exact if_neg fun h => absurd h.2 (Nat.not_le.2 early)
  case config =>
    intro heard manages limit clampW mhz fits least most whole
    have sound : pwrSound o v = true := pwrSound_of manages fits least most whole
    exact ⟨thmPwrWrite_unlocked heard sound, thmPwrWrite_locked heard sound⟩
  case alert => exact fun standby alert => congrArg Host.Outcome.next (if_pos (Bool.and_eq_true_iff.2 ⟨standby, alert⟩))
  case noAlert =>
    intro quiet
    refine congrArg Host.Outcome.next (if_neg ?_)
    rw [quiet, Bool.and_false]
    exact Bool.false_ne_true
  case pulse =>
    intro sec
    exact ⟨fun other => congrArg Host.Outcome.next (if_neg other), fun same => congrArg Host.Outcome.next (if_pos same)⟩
  case steps =>
    exact nextStep_rules hs
  case clocks =>
    exact State.setPower_keeps f wf

end Sys2Proof.Machine
end

section
/-! SUPPORT. Cold starts and warm restarts. -/

namespace Sys2Proof.Machine

/-! ### Cold starts -/

section
variable {s v v1 s1 s2 s3 : State} {b : Findings} {bank : Option Nat}

theorem coldStart_failed (bad : (b.testLow || !b.fuseOk) = true) : (coldStart b).gives s () (s.setFault true) := by
  unfold coldStart Dev.gives
  rw [if_pos bad]
  exact go_upd _ _

section
variable (sound : (b.testLow || !b.fuseOk) = false) (chosen : (s.stage 2).selectBank = (v, bank))
include sound chosen

theorem coldStart_unbootable (none : bank = none) :
    (coldStart b).gives s () ({ v with boot := { v.boot with ports := b.ports % 16 } }.recover (5, 1, 0, 0, 0)) := by
  unfold coldStart Dev.gives
  rw [sound, if_neg Bool.false_ne_true]
  refine (go_bind_ok (go_upd _ _) _).trans ((go_bind_ok (go_get _) _).trans ?_)
  rw [chosen]
  refine (go_bind_ok (go_set _ _) _).trans ((go_bind_ok (go_upd _ _) _).trans ?_)
  rw [none]
  exact go_upd _ _

variable {k : Nat} (some : bank = some k)
include some

theorem coldStart_rejected
    (checked : (checkImages k).gives ({ v with boot := { v.boot with ports := b.ports % 16 } }.stage 3) false s1) :
    (coldStart b).gives s () s1 := by
  unfold coldStart Dev.gives
  rw [sound, if_neg Bool.false_ne_true]
  refine (go_bind_ok (go_upd _ _) _).trans ((go_bind_ok (go_get _) _).trans ?_)
  rw [chosen]
  refine (go_bind_ok (go_set _ _) _).trans ((go_bind_ok (go_upd _ _) _).trans ?_)
  rw [some]
  refine (go_bind_ok (go_upd _ _) _).trans ((go_bind_ok checked _).trans ?_)
  rw [if_neg Bool.false_ne_true]
  exact go_pure _ _

theorem coldStart_finishes
    (checked : (checkImages k).gives ({ v with boot := { v.boot with ports := b.ports % 16 } }.stage 3) true v1)
    (common : (commonStart b).gives (v1.stage 4) () s1) (memory : (qualifyStacks b).gives (s1.stage 7) () s2)
    (finish : (finishStart b).gives ((((s2.qualifyBoards b).stage 9).assignSites b.badSites (deadTiles b)).stage 0xA) () s3) :
    (coldStart b).gives s () s3 := by
  unfold coldStart Dev.gives
  rw [sound, if_neg Bool.false_ne_true]
  refine (go_bind_ok (go_upd _ _) _).trans ((go_bind_ok (go_get _) _).trans ?_)
  rw [chosen]
  refine (go_bind_ok (go_set _ _) _).trans ((go_bind_ok (go_upd _ _) _).trans ?_)
  rw [some]
  refine (go_bind_ok (go_upd _ _) _).trans ((go_bind_ok checked _).trans ?_)
  rw [if_pos rfl]
  refine (go_bind_ok (go_upd _ _) _).trans ((go_bind_ok common _).trans ?_)
  refine (go_bind_ok (go_upd _ _) _).trans ((go_bind_ok memory _).trans ?_)
  exact (go_bind_ok (go_upd _ _) _).trans ((go_bind_ok (go_upd _ _) _).trans finish)

end

/-- Released with power good and standby power, the part starts with device time 0. -/
theorem coldResetRelease_starts (cold : s.pins.cold = true) (good : s.pins.pwrgd = true) (standby : s.pins.standby = true)
    (started : (coldStart b).gives { s with time := 0, pins := { s.pins with cold := false } } () s1) :
    exec (.coldResetRelease b) s = .next s1 := by
  refine run'_of_go_ok (u := ()) ?_
  rw [if_pos ⟨cold, good, standby⟩]
  exact (go_bind_ok (go_upd _ _) _).trans started

end

/-! ### Warm restarts -/

theorem State.setF_fw (s : State) (off hi lo v : Nat) : (s.setF off hi lo v).fw = s.fw := rfl

theorem State.logPut_fw (s : State) (r : LogRec) : (s.logPut r).fw = s.fw := by
  unfold State.logPut
  dsimp only
  split_ifs <;> simp only [State.setF_fw, State.setReg_fw]

theorem State.logRec_fw (s : State) (type : Nat) (o : Origin) (info target value : Nat) :
    (s.logRec type o info target value).fw = s.fw := by
  unfold State.logRec
  dsimp only
  split_ifs <;> simp only [State.logPut_fw, State.event]


section
variable {s s1 : State} {us v : Nat} {o : Origin} {b : Findings}

/-- What lets a warm restart start: the part is out of cold reset, has not tripped and is past its first stage. -/
structure State.Restartable (s : State) : Prop where
  cold : s.pins.cold = false
  trip : s.pins.trip = false
  stage : s.rf 0x18 31 24 ≠ 1

theorem State.Restartable.not_held (h : s.Restartable) : ¬ (s.pins.cold = true ∨ s.pins.trip = true ∨ s.rf 0x18 31 24 = 1) := by
  rw [h.cold, h.trip]
  rintro (h' | h' | h')
  · exact Bool.false_ne_true h'
  · exact Bool.false_ne_true h'
  · exact h.stage h'

/-- Neither operation of the flash that a restart waits for is running. -/
def State.FlashIdle (s : State) : Prop := ∀ n, s.fw.busy ≠ some (5, n) ∧ s.fw.busy ≠ some (6, n)

/-- A restart that waits for no operation of the flash starts at once. -/
theorem goRestart_starts {u : State} (idle : s.FlashIdle) (same : u.fw = s.fw) (started : (warmStart b).gives u () s1) :
    (do match (← get).fw.busy with
        | some (5, _) => stall
        | some (6, _) => stall
        | _ => warmStart b : Dev Unit).gives u () s1 := by
  refine (go_bind_ok (go_get _) _).trans ?_
  rw [same]
  split
  next n busy => exact absurd busy (idle n).1
  next n busy => exact absurd busy (idle n).2
  next => exact started

section
variable (h : s.Restartable)
include h

theorem warmRestart_pin (idle : s.FlashIdle) (long : 10 ≤ us) (own : o.isDrd = false)
    (started : (warmStart b).gives s () s1) : exec (.warmRestart none us o b) s = .next s1 := by
  refine run'_of_go_ok (u := ()) ?_
  rw [if_neg h.not_held]
  dsimp only
  rw [own, if_neg Bool.false_ne_true, if_pos long]
  exact goRestart_starts idle rfl started

theorem warmRestart_brief (brief : us < 10) (own : o.isDrd = false) : exec (.warmRestart none us o b) s = .next s := by
  refine run'_of_go_ok (u := ()) ?_
  rw [if_neg h.not_held]
  dsimp only
  rw [own, if_neg Bool.false_ne_true, if_neg (Nat.not_le.2 brief)]
  exact go_pure _ _

variable (small : v < 2 ^ 32) (key : fld v 31 16 = 0xA5C3) (allowed : (o.isDrd || originPf0 o) = true)
include small key allowed

theorem warmRestart_write (idle : s.FlashIdle) (asked : bit v 0 = true)
    (started : (warmStart b).gives ((s.noted o 0x20 v).shadowing 0x20 v) () s1) :
    exec (.warmRestart (some v) us o b) s = .next s1 := by
  have ok : (fld v 31 16 == 0xA5C3 && (o.isDrd || originPf0 o)) = true := by rw [key, allowed]; rfl
  have whole : v % 2 ^ 32 = v := Nat.mod_eq_of_lt small
  refine run'_of_go_ok (u := ()) ?_
  rw [if_neg h.not_held]
  dsimp only
  rw [ok, if_pos rfl, if_pos rfl, if_pos ⟨rfl, asked⟩]
  simp only [whole]
  refine (go_bind_ok (go_upd _ _) _).trans ((go_bind_ok (shadowed_gives _ _) _).trans ?_)
  exact goRestart_starts idle (State.logRec_fw s ..) started

theorem warmRestart_unasked (quiet : bit v 0 = false) :
    exec (.warmRestart (some v) us o b) s = .next ((s.noted o 0x20 v).shadowing 0x20 v) := by
  have ok : (fld v 31 16 == 0xA5C3 && (o.isDrd || originPf0 o)) = true := by rw [key, allowed]; rfl
  have whole : v % 2 ^ 32 = v := Nat.mod_eq_of_lt small
  refine run'_of_go_ok (u := ()) ?_
  rw [if_neg h.not_held]
  dsimp only
  rw [ok, if_pos rfl, if_pos rfl, if_neg fun both => Bool.false_ne_true (quiet.symm.trans both.2)]
  simp only [whole]
  refine (go_bind_ok (go_upd _ _) _).trans ((go_bind_ok (shadowed_gives _ _) _).trans ?_)
  exact go_pure _ _

end

/-- A warm restart of a part that has not become ready ends in recovery mode when no bank boots. -/
theorem warmStart_unbootable (early : s.ready = false) {w u : State} (hw : w = (s.warmCleared.setF 0x18 19 19 1).stage 0x13)
    (none : (if w.power.brake then w.setF 0x30008 61 61 1 else w).selectBank = (u, none)) :
    (warmStart b).gives s () (u.recover (5, 1, 0, 0, 0)) := by
  unfold warmStart Dev.gives
  refine (go_bind_ok (go_get _) _).trans ?_
  rw [early, if_neg Bool.false_ne_true]
  refine (go_bind_ok (go_upd _ _) _).trans ?_
  rw [← hw]
  refine (go_bind_ok (go_upd _ _) _).trans ((go_bind_ok (go_get _) _).trans ?_)
  rw [none]
  exact (go_bind_ok (go_set _ _) _).trans (go_upd _ _)

end

/-- Settles O53: each start by the branch that its findings name. -/
theorem starts : Obligations.Starts := by
  refine ⟨fun s us strap => ⟨fun off => ?up, fun on cold => ?good, fun long on => ?assert, fun short => ?short, fun long good => ?loss,
    rfl, rfl, rfl, rfl, rfl, rfl⟩, fun s v v1 s1 s2 s3 b bank cold good standby => ⟨?failed, ?sound⟩,
    fun s s1 us v o b => ⟨fun cold trip stage idle => ⟨?pin, ?brief, ?write⟩, ?warm, rfl, rfl, rfl, rfl, rfl, rfl⟩⟩
  case up => exact congrArg Host.Outcome.next (if_neg (by rw [off]; exact Bool.false_ne_true))
  case good => exact congrArg Host.Outcome.next (if_pos ⟨on, cold⟩)
  case assert => exact congrArg Host.Outcome.next (if_pos ⟨long, on⟩)
  case short => exact congrArg Host.Outcome.next (if_neg fun h => absurd h.1 (Nat.not_le.2 short))
  case loss =>
    refine congrArg Host.Outcome.next (if_neg ?_)
    rw [good]
    simp
    omega
  case failed => exact fun bad => coldResetRelease_starts cold good standby (coldStart_failed bad)
  case sound =>
    intro sound chosen u
    exact ⟨fun none => coldResetRelease_starts cold good standby (coldStart_unbootable sound chosen none),
      fun k some checked common memory finish =>
        coldResetRelease_starts cold good standby (coldStart_finishes sound chosen some checked common memory finish),
      fun k some checked => coldResetRelease_starts cold good standby (coldStart_rejected sound chosen some checked)⟩
  case pin => exact fun long own started => warmRestart_pin ⟨cold, trip, stage⟩ idle long own started
  case brief => exact fun short own => warmRestart_brief ⟨cold, trip, stage⟩ short own
  case write =>
    exact fun small key allowed => ⟨fun asked started => warmRestart_write ⟨cold, trip, stage⟩ small key allowed idle asked started,
      fun quiet => warmRestart_unasked ⟨cold, trip, stage⟩ small key allowed quiet⟩
  case warm =>
    intro early w u none
    exact warmStart_unbootable early rfl none

end Sys2Proof.Machine
end

section
/-! SUPPORT. Writes and reads through the register view and the sideband. -/

namespace Sys2Proof.Machine

section
variable {s s' : State} {off size v : Nat} {o : Origin} {h : RegHit}

/-! ### The register view -/

theorem viewWrite_outside (out : 0x20000000 ≤ off ∨ s.reaches o off = false) : (viewWrite off size v o).gives s () s := by
  unfold viewWrite
  refine (go_bind_ok (go_get _) _).trans ?_
  have silent : 0x20000000 ≤ off ∨ (!s.reaches o off) = true := out.imp_right fun h => by rw [h]; rfl
  rw [if_pos silent]
  exact go_pure _ _

theorem viewWrite_refused (reaches : s.reaches o off = true) (inside : off < 0x20000000)
    (bad : 0x10000000 ≤ off ∨ (size ≠ 4 ∧ size ≠ 8) ∨ off % size ≠ 0) : (viewWrite off size v o).gives s () (s.logRec 2 o 0 off v) := by
  unfold viewWrite
  refine (go_bind_ok (go_get _) _).trans ?_
  have heard : ¬ (0x20000000 ≤ off ∨ (!s.reaches o off) = true) := by
    rw [reaches]
    rintro (h | h)
    · omega
    · exact Bool.false_ne_true h
  have wrong : 0x10000000 ≤ off ∨ (!(size == 4 || size == 8)) = true ∨ off % size ≠ 0 :=
    bad.imp_right (Or.imp_left fun ⟨h4, h8⟩ => by rw [beq_eq_false_iff_ne.2 h4, beq_eq_false_iff_ne.2 h8]; rfl)
  rw [if_neg heard, if_pos wrong]
  exact go_upd _ _

/-- What a write of a whole register of the view does. -/
def rowEffect (h : RegHit) (v : Nat) (o : Origin) : Dev Unit :=
  match rowWrite h v o with
  | some f => upd fun s => match f s with
    | .next s' => s'
    | _ => s
  | none => genericWrite h v o

theorem rowEffect_row {g : State → Res} (row : rowWrite h v o = some g) (done : g s = .next s') : (rowEffect h v o).gives s () s' := by
  unfold rowEffect Dev.gives
  rw [row]
  refine (go_upd _ _).trans ?_
  rw [done]

theorem rowEffect_generic (row : rowWrite h v o = none) : rowEffect h v o = genericWrite h v o := by
  unfold rowEffect
  rw [row]

theorem viewWrite_whole (reaches : s.reaches o off = true) (inside : off < 0x10000000) (aligned : off % 8 = 0)
    (found : findReg off = some h) (there : s.regThere h = true) (sees : s.vfSees h o = true) (wide : h.reg.wide = true)
    (done : (rowEffect h (v % 2 ^ 64) o).gives s () s') : exec (.registerWrite off 8 v o) s = .next s' := by
  refine run'_of_go_ok (u := ()) (m := viewWrite off 8 v o) ?_
  unfold viewWrite
  refine (go_bind_ok (go_get _) _).trans ?_
  have heard : ¬ (0x20000000 ≤ off ∨ (!s.reaches o off) = true) := by
    rw [reaches]
    rintro (h | h)
    · omega
    · exact Bool.false_ne_true h
  have right : ¬ (0x10000000 ≤ off ∨ (!((8 : Nat) == 4 || (8 : Nat) == 8)) = true ∨ off % 8 ≠ 0) := by
    rintro (h | h | h)
    · omega
    · exact Bool.false_ne_true h
    · exact h aligned
  rw [if_neg heard, if_neg right, aligned, Nat.sub_zero, found]
  dsimp only
  rw [there, sees, if_neg (by decide), if_neg (by omega), if_neg (by decide), wide, if_pos rfl]
  exact done

/-- A register of no other meaning keeps what its fields make writable (R7, R8). -/
theorem genericWrite_stores (unlockable : h.lock = none) (heard : s.heard o h.off = true)
    (may : (s.mayWrite h o && s.writeOk h v) = true) (readable : ∀ f ∈ h.reg.flds, f.2.2 ≠ .wo) :
    let s1 := if h.logged then s.noted o h.off v else s
    (genericWrite h v o).gives s () (s1.store h (h.reg.write false (s1.stored h) v)) := by
  have shadowless : h.reg.flds.any (fun f => f.2.2 == .wo) = false :=
    List.any_eq_false.2 fun f hf same => readable f hf (eq_of_beq same)
  unfold genericWrite
  refine (go_bind_ok (go_get _) _).trans ?_
  rw [unlockable]
  dsimp only
  rw [shadowless, if_neg Bool.false_ne_true, may]
  split
  · exact (regWrite_heard heard rfl _).trans ((go_bind_ok (go_pure _ _) _).trans (go_upd _ _))
  · exact (plainWrite_heard heard rfl _).trans ((go_bind_ok (go_pure _ _) _).trans (go_upd _ _))

/-! ### The sideband -/

theorem sideband_quiet (off v : Nat) {pec : Bool} (quiet : (pec && s.pins.standby) = false) :
    exec (.sbReadRequest off pec) s = .next s ∧ exec (.sbWriteRequest off v pec) s = .next s ∧ exec (.sbResultRead pec) s = .next s := by
  have deaf : (!pec || !s.pins.standby) = true := by rw [← Bool.not_and, quiet]; rfl
  exact ⟨congrArg Host.Outcome.next (if_pos deaf), congrArg Host.Outcome.next (if_pos deaf), congrArg Host.Outcome.next (if_pos deaf)⟩

end

/-- Settles O59: a write of the view by what stands at its offset, and a sideband request by its offset. -/
theorem registerView : Obligations.RegisterView := by
  refine ⟨fun s off size v o => ⟨fun out => run'_of_go_ok (viewWrite_outside (.inl out)), fun reaches inside =>
    ⟨fun bad => run'_of_go_ok (viewWrite_refused reaches inside bad), fun inside aligned whole h found there sees wide => ?_⟩,
    fun deaf => run'_of_go_ok (viewWrite_outside (.inr deaf))⟩,
    fun s off v pec => ⟨fun awake => ?_, fun quiet => sideband_quiet off v quiet⟩⟩
  · subst whole
    refine ⟨fun g s' row done => viewWrite_whole reaches inside aligned found there sees wide (rowEffect_row row done), ?_⟩
    intro row unlockable heard may readable s1
    refine viewWrite_whole reaches inside aligned found there sees wide ?_
    rw [rowEffect_generic row]
    exact genericWrite_stores unlockable heard may readable
  · have hears : ¬ (!pec || !s.pins.standby) = true := by
      rw [← Bool.not_and, awake]
      exact Bool.false_ne_true
    refine ⟨fun inside aligned => ?_, fun bad => ?_, congrArg Host.Outcome.next (if_neg hears)⟩
    · have ok : sbOffOk off = true := Bool.and_eq_true_iff.2 ⟨decide_eq_true inside, beq_iff_eq.2 aligned⟩
      exact ⟨congrArg Host.Outcome.next ((if_neg hears).trans (if_pos ok)), congrArg Host.Outcome.next ((if_neg hears).trans (if_pos ok))⟩
    · have wrong : ¬ sbOffOk off = true := fun ok => by
        have ⟨inside, aligned⟩ := Bool.and_eq_true_iff.1 ok
        exact bad.elim (Nat.not_le.2 (of_decide_eq_true inside)) (absurd (eq_of_beq aligned))
      exact ⟨congrArg Host.Outcome.next ((if_neg hears).trans (if_neg wrong)), congrArg Host.Outcome.next ((if_neg hears).trans (if_neg wrong))⟩

end Sys2Proof.Machine
end
